-- ==== Sys2Proof/Word.lean ====
section
/-!
DEFINITION. The word types of the model: a byte, a 64-bit control register (R5) and the
identifiers of R11 and chapter 0 ("Names") as bounded numbers.
-/

namespace Sys2Proof

/-- One byte. -/
abbrev Byte := BitVec 8

/-- A 64-bit register or memory word (R5). -/
abbrev Word := BitVec 64

/-- Global tile id, CD × 12 + T (chapter 0, "Names"). -/
abbrev TileId := Fin 576

/-- Compute die CD0 to CD47. -/
abbrev CdId := Fin 48

/-- Fabric die FD0 to FD3. -/
abbrev FdId := Fin 4

/-- A die as the DIE field names it: 0 to 47 compute, 48 to 51 fabric (R184). -/
abbrev DieId := Fin 52

/-- Torus port 0 to 7 (Table 0.3). -/
abbrev PortId := Fin 8

/-- A link of the module: torus ports 0 to 7, then CCL0 and CCL1 as 8 and 9 (Table 16.4). -/
abbrev LinkId := Fin 10

/-- Context 0 to 63 (R195). -/
abbrev CtxId := Fin 64

end Sys2Proof
end

