-- ==== Sys2Proof/Syntax.lean ====
section
/-!
DEFINITION. The commands of the block: one constructor per row of spec/opcode_table.json, with
the row's operands. A word that the tile sequencer reads stands as its bits [119:0], since its
OPCODE [127:120] is the row (R73, R321); a vector-engine word as its bits [55:0] (R160).
-/

namespace Sys2Proof

/-- What runs a vector-engine word: a tile's engine (R154) or an update core (R389). -/
inductive VUnit where
  | tile (t : TileId)
  | core (fd : FdId) (c : Fin 16)
  deriving DecidableEq, Repr

/-- Operations of TG.ATOM (R125). -/
inductive AtomOp where
  | add | and | or | xor | minS | maxS | minU | maxU | swap | cas | fmin | fmax | fadd
  deriving DecidableEq, Repr

/-- Operands of a thread-group memory instruction: registers, log2 of the element size in bytes,
a signed byte offset, the hint of Table 7.1 and whether a short load is sign-extended. -/
structure TgMem where
  rd   : BitVec 8
  ra   : BitVec 8
  size : Fin 4
  off  : BitVec 16
  hint : BitVec 3
  sx   : Bool
  deriving DecidableEq, Repr

/-- Operands of a thread-group atomic: result, address, operand and compare registers. -/
structure TgAtomic where
  op   : AtomOp
  w64  : Bool
  ret  : Bool
  rd   : BitVec 8
  ra   : BitVec 8
  rb   : BitVec 8
  rc   : BitVec 8
  hint : BitVec 3
  deriving DecidableEq, Repr

/-- The special value that TG.SREG names: the parameter address of R113, or another by number,
for which the spec states no value. -/
inductive SpecialReg where
  | param
  | other (k : BitVec 8)
  deriving DecidableEq, Repr

/-- Who issues a synchronisation instruction (R268): a group, naming td, ta, tb and tc, or a tile
sequencer with its word. -/
inductive SyOp where
  | group (t : TileId) (g : Fin 48) (td ta tb tc : BitVec 8)
  | seq (t : TileId) (w : BitVec 120)
  deriving DecidableEq, Repr

/-- Issuer of a reduce-write (R238). -/
inductive RedIssuer where
  | tmv (t : TileId)
  | fabric (fd : FdId)
  | remote (p : PortId)
  | companion (p : Fin 2)
  deriving DecidableEq, Repr

/-- Flags that a collection carries for one layer (R329, Table 9.5): WOVF, ROVF and EOVF of the
arrays and engines, SPECIAL, FAULT and whether a called-for widening does not exist. -/
structure LayerFlags where
  layer   : BitVec 32
  wovf    : Bool
  rovf    : Bool
  eovf    : Bool
  special : Bool
  noWider : Bool
  deriving DecidableEq, Repr

/-- What a report of a module barrier context carries of its unit (R329, R331). -/
structure UnitFlags where
  layers  : List LayerFlags
  fault   : Bool
  skew    : Bool
  late    : Bool
  deriving DecidableEq, Repr

/-- Hold causes, in the order of Table 9.6. -/
inductive HoldCause where
  | power | jobHold | rerun | fallback | hotFence | slice | timeLoss
  deriving DecidableEq, Repr

/-- Header of a flit (Table 10.3). -/
structure FlitHdr where
  kind   : BitVec 4
  vc     : BitVec 3
  seq    : BitVec 12
  first  : Bool
  last   : Bool
  tag    : BitVec 16
  offset : BitVec 27
  deriving DecidableEq, Repr

/-- Header of a dynamic packet (Table 10.11). -/
structure PktHdr where
  dst     : BitVec 12
  src     : BitVec 12
  op      : BitVec 8
  flags   : BitVec 8
  jobkey  : BitVec 16
  ga      : BitVec 40
  ctx     : BitVec 8
  len     : BitVec 16
  tag     : BitVec 16
  tagGen  : BitVec 8
  status  : BitVec 8
  fmt     : BitVec 8
  operand : BitVec 64
  deriving DecidableEq, Repr

/-- A gradient or skew notice (R394). -/
structure Notice where
  skew       : Bool
  bid        : BitVec 16
  gen        : BitVec 8
  step       : BitVec 32
  stepRecv   : BitVec 32
  layerFirst : BitVec 32
  layerLast  : BitVec 32
  anchor     : BitVec 8
  fmt64      : Bool
  destGa     : BitVec 40
  poison     : Bool
  eovf       : Bool
  special    : Bool
  deriving DecidableEq, Repr

/-- Header of a companion-link message (Table 12.5), without OP and CLASS, which the row fixes. -/
structure CclHdr where
  poison : Bool
  flagsReserved : BitVec 4
  tag    : BitVec 16
  tagGen : BitVec 8
  len    : BitVec 13
  ctx    : CtxId
  fmt    : BitVec 4
  status : BitVec 8
  addr   : BitVec 52
  deriving DecidableEq, Repr

/-- Mailbox header (Table 14.6) without CODE, which the row fixes. -/
structure MbxHdr where
  major    : BitVec 8
  minor    : BitVec 8
  seq      : BitVec 16
  seqGen   : BitVec 8
  flags    : BitVec 8
  plen     : BitVec 16
  ctx      : BitVec 8
  mbx      : BitVec 8
  status   : BitVec 8
  state    : BitVec 8
  serial   : BitVec 64
  session  : BitVec 64
  counter  : BitVec 64
  owner    : BitVec 8
  reserved : BitVec 200
  deriving DecidableEq, Repr

/-- One mailbox command as it reaches the system controller: the mailbox that carried it (8 is
MBXM), header, payload, signature trailer (R490), the response room and address of its slot
(Table 12.9), and for MBXM where the datagram came from (R489). -/
structure MbxCmd where
  mb      : Fin 9
  hdr     : MbxHdr
  payload : List Byte
  trailer : List Byte
  rspAddr : BitVec 52
  rspLen  : BitVec 16
  srcIp   : BitVec 128
  srcPort : BitVec 16
  via     : Fin 2
  deriving DecidableEq, Repr

/-- A controller core (R479, R499). -/
inductive Ctl where
  | system | deputy
  | fabric (fd : FdId)
  | die (d : CdId)
  deriving DecidableEq, Repr

/-- Causes of a supply shutdown (R529). -/
inductive ShutdownCause where
  | low | veryLow | over
  deriving DecidableEq, Repr

/-- Why E2 is entered (R542): the cap with the measured power, or a die with its junction. -/
inductive E2Cause where
  | cap (pin : BitVec 16)
  | junction (d : DieId) (tj : BitVec 12)
  deriving DecidableEq, Repr

/-- A unit that a power state applies to (Table 15.5). -/
inductive PowerUnit where
  | tile (t : TileId)
  | die (d : CdId)
  | allDies
  | module
  deriving DecidableEq, Repr

/-- What built-in self-test finds (R473): a fault in tile memory or near cache of a tile, or in
die-level storage, and whether a free spare repairs it. -/
structure BistFault where
  die     : CdId
  tile    : Option (Fin 12)
  spare   : Bool
  deriving DecidableEq, Repr

/-- What the boot meets outside the model: PUF attempts that failed at FD0 (R471), whether FD1
obtains its images (R464), and what self-test finds. The boot time in ms is BOOT_MS. -/
structure BootWorld where
  straps    : BitVec 12
  mstrSel   : Bool
  refclk    : Bool
  pufFails  : Nat
  deputyOk  : Bool
  bist      : List BistFault
  bootMs    : BitVec 32
  deriving DecidableEq, Repr

/-- Who accesses a control register: an engine of a tile in a context, or firmware (R200). -/
inductive RegAgent where
  | tile (t : TileId) (c : CtxId)
  | firmware
  deriving DecidableEq, Repr

/-- Frames that a management port receives (R619). -/
inductive MgtFrame where
  | arpRequest (target : BitVec 32)
  | neighbourSolicit (target : BitVec 128)
  | icmpEcho (dst : BitVec 32) (data : List Byte)
  | icmp6Echo (dst : BitVec 128) (data : List Byte)
  | dhcp4Offer (addr : BitVec 32) (plen : BitVec 8) (gw : BitVec 32)
  | dhcp6Reply (addr : BitVec 128) (plen : BitVec 8)
  | other
  deriving DecidableEq, Repr

/-- I3C common commands of R620 and R623. -/
inductive I3cCcc where
  | setdasa (addr : BitVec 7)
  | entdaa (addr : BitVec 7)
  | enec
  deriving DecidableEq, Repr

/-- Boundary-scan instructions of R624. -/
inductive JtagOp where
  | bypass | idcode | samplePreload (v : BitVec 64) | extest (v : BitVec 64) | clamp | highz
  deriving DecidableEq, Repr

/-- Why a lane becomes bad (R359). -/
inductive LaneCause where
  | symbolLock | deskew | corrected
  deriving DecidableEq, Repr

/-- The commands: one constructor per row of spec/opcode_table.json. -/
inductive Instr where
  -- matrix arrays (chapter 3)
  | mxaLds (t : TileId) (w : BitVec 120)
  | mxaMm (t : TileId) (w : BitVec 120)
  | mxaMmt (t : TileId) (w : BitVec 120)
  | mxaRd (t : TileId) (w : BitVec 120)
  | mxaClr (t : TileId) (w : BitVec 120)
  | mxaAts (t : TileId) (w : BitVec 120)
  | mxaAtv (t : TileId) (w : BitVec 120)
  | mxaAtf (t : TileId) (w : BitVec 120)
  -- thread groups (chapter 4)
  | tgLaunch (t : TileId) (w : BitVec 120)
  | blockPlace (t : TileId)
  | tgLd (t : TileId) (g : Fin 48) (m : TgMem)
  | tgSt (t : TileId) (g : Fin 48) (m : TgMem)
  | tgAtom (t : TileId) (g : Fin 48) (m : TgAtomic)
  | tgLdb (t : TileId) (g : Fin 48) (m : TgMem)
  | tgStb (t : TileId) (g : Fin 48) (m : TgMem)
  | tgAtomb (t : TileId) (g : Fin 48) (m : TgAtomic)
  | tgSreg (t : TileId) (g : Fin 48) (rd : BitVec 8) (sel : SpecialReg)
  | tgBr (t : TileId) (g : Fin 48) (taken : BitVec 32) (target rpc : BitVec 48)
  | tgAcq (t : TileId) (g : Fin 48) (pred : BitVec 32) (ra : BitVec 8) (rpc : BitVec 48)
  | tgRel (t : TileId) (g : Fin 48) (ra : BitVec 8)
  | tgBar (t : TileId) (g : Fin 48) (id : Fin 16)
  | tgExit (t : TileId) (g : Fin 48)
  | tgFence (t : TileId) (g : Fin 48)
  | groupDataReturn (t : TileId) (g : Fin 48)
  | requestSlotGrant (t : TileId)
  | lockTimeout (t : TileId) (g : Fin 48)
  | groupLivelock (t : TileId) (g : Fin 48)
  -- vector engine (chapter 5)
  | vxLaunch (t : TileId) (w : BitVec 120)
  | vxSetvl (u : VUnit) (w : BitVec 56)
  | vxSadd (u : VUnit) (w : BitVec 56)
  | vxSaddi (u : VUnit) (w : BitVec 56)
  | vxSmul (u : VUnit) (w : BitVec 56)
  | vxSld (u : VUnit) (w : BitVec 56)
  | vxSst (u : VUnit) (w : BitVec 56)
  | vxSbne (u : VUnit) (w : BitVec 56)
  | vxSblt (u : VUnit) (w : BitVec 56)
  | vxEnd (u : VUnit) (w : BitVec 56)
  | vxFence (u : VUnit) (w : BitVec 56)
  | vxLd (u : VUnit) (w : BitVec 56)
  | vxLds (u : VUnit) (w : BitVec 56)
  | vxLdx (u : VUnit) (w : BitVec 56)
  | vxSt (u : VUnit) (w : BitVec 56)
  | vxSts (u : VUnit) (w : BitVec 56)
  | vxStx (u : VUnit) (w : BitVec 56)
  | vxAdd (u : VUnit) (w : BitVec 56)
  | vxSub (u : VUnit) (w : BitVec 56)
  | vxMul (u : VUnit) (w : BitVec 56)
  | vxMulh (u : VUnit) (w : BitVec 56)
  | vxFma (u : VUnit) (w : BitVec 56)
  | vxMin (u : VUnit) (w : BitVec 56)
  | vxMax (u : VUnit) (w : BitVec 56)
  | vxAbs (u : VUnit) (w : BitVec 56)
  | vxNeg (u : VUnit) (w : BitVec 56)
  | vxAnd (u : VUnit) (w : BitVec 56)
  | vxOr (u : VUnit) (w : BitVec 56)
  | vxXor (u : VUnit) (w : BitVec 56)
  | vxShl (u : VUnit) (w : BitVec 56)
  | vxShr (u : VUnit) (w : BitVec 56)
  | vxDiv (u : VUnit) (w : BitVec 56)
  | vxSqrt (u : VUnit) (w : BitVec 56)
  | vxFn (u : VUnit) (w : BitVec 56)
  | vxEadd (u : VUnit) (w : BitVec 56)
  | vxCmp (u : VUnit) (w : BitVec 56)
  | vxSel (u : VUnit) (w : BitVec 56)
  | vxBcast (u : VUnit) (w : BitVec 56)
  | vxExt (u : VUnit) (w : BitVec 56)
  | vxPlog (u : VUnit) (w : BitVec 56)
  | vxPcnt (u : VUnit) (w : BitVec 56)
  | vxPerm (u : VUnit) (w : BitVec 56)
  | vxPerm2 (u : VUnit) (w : BitVec 56)
  | vxShuf (u : VUnit) (w : BitVec 56)
  | vxPack (u : VUnit) (w : BitVec 56)
  | vxUnpack (u : VUnit) (w : BitVec 56)
  | vxCompress (u : VUnit) (w : BitVec 56)
  | vxCvt (u : VUnit) (w : BitVec 56)
  | vxRadd (u : VUnit) (w : BitVec 56)
  | vxRadds (u : VUnit) (w : BitVec 56)
  | vxRmin (u : VUnit) (w : BitVec 56)
  | vxRmax (u : VUnit) (w : BitVec 56)
  | vxRargmax (u : VUnit) (w : BitVec 56)
  | vxFsumx (u : VUnit) (w : BitVec 56)
  | vxFssqx (u : VUnit) (w : BitVec 56)
  | vxEsum (u : VUnit) (w : BitVec 56)
  | vxCbg (u : VUnit) (w : BitVec 56)
  | vxCbgm (u : VUnit) (w : BitVec 56)
  | vxEpld (u : VUnit) (w : BitVec 56)
  | vxEprun (u : VUnit) (w : BitVec 56)
  -- memory and caches (chapters 6 and 7)
  | patrolScrub (d : CdId)
  | healComplete (d : CdId) (line : BitVec 40) (data : BitVec 1024) (poison : Bool)
  | healTimeout (d : CdId) (line : BitVec 40)
  | hcFillComplete (d : CdId) (line : BitVec 40)
  | streamEntryExpire (d : CdId)
  | reduceWrite (i : RedIssuer) (c : CtxId) (ga : BitVec 40) (fmt : BitVec 4) (mask : BitVec 64)
      (data : BitVec 1024)
  | runAheadFetch (t : TileId)
  | ncGranuleInvalidate (ga : BitVec 40)
  | hcFlush (d : CdId)
  | hcFlushComplete (d : CdId)
  | hcPinLoad (d : CdId)
  | hcPinLoadComplete (d : CdId)
  | ncDisable (t : TileId)
  | tmvXfer (t : TileId) (w : BitVec 120)
  | tmvXferComplete (t : TileId) (tag tagGen : BitVec 8)
  -- synchronisation (chapter 8)
  | syInit (o : SyOp)
  | sySig (o : SyOp)
  | syWait (o : SyOp)
  | syTry (o : SyOp)
  | syPoll (o : SyOp)
  | syCsig (o : SyOp)
  | syBar (o : SyOp)
  | syncWaitTimeout (d : DieId)
  | syncWaitRetry (d : DieId)
  | barrierPhaseCheck (d : CdId) (n : Fin 32)
  | dieBarrierReport (d : CdId) (c : Fin 64)
  | moduleBarrierReport (p : PortId) (c : Fin 64) (gen : BitVec 8)
      (deadline : Option (BitVec 64)) (flags : UnitFlags)
  | moduleBarrierRelease (p : PortId) (c : Fin 64) (gen : BitVec 8)
  | dieBarrierRelease (d : CdId) (c : Fin 64)
  | mbcTimedCheck (c : Fin 64)
  | barCfgWrite (d : CdId) (n : Fin 32) (v : Word)
  | syncMbcCfgWrite (c : Fin 64) (v : Word)
  -- fabric time and schedule (chapter 9)
  | ppsEdge
  | ppsLoss
  | timeSend (p : PortId)
  | time (p : PortId) (lgen : BitVec 8) (m : BitVec 112)
  | parentTimeout
  | holdoverTimeout
  | deputyMasterTakeover
  | refclkLoss
  | refclkHoldTimeout
  | refclkReturn
  | tsqHold (t : TileId) (w : BitVec 120)
  | tsqHoldTarget (t : TileId)
  | tsqJoin (t : TileId) (w : BitVec 120)
  | tsqNext (t : TileId) (w : BitVec 120)
  | tsqUnit (t : TileId) (w : BitVec 120)
  | tsqUend (t : TileId) (w : BitVec 120)
  | tsqLayer (t : TileId) (w : BitVec 120)
  | tsqReq (t : TileId) (w : BitVec 120)
  | tsqMark (t : TileId) (w : BitVec 120)
  | tsqEnd (t : TileId) (w : BitVec 120)
  | unitCommit (d : Fin 2) (u : BitVec 16)
  | unitRepeat (d : Fin 2) (u : BitVec 16)
  | holdRequest (d : Fin 2) (cause : HoldCause) (frames : BitVec 32) (atStep : Bool)
  | holdNotice (dom gen : BitVec 8) (b : BitVec 64) (frames : BitVec 32) (cause : HoldCause)
  | holdBegin (d : Fin 2)
  | holdEnd (d : Fin 2)
  -- torus (chapter 10)
  | flitReceive (l : LinkId) (h : FlitHdr) (payload : BitVec 1952) (crcOk fecOk : Bool)
  | ack (l : LinkId) (lgen : BitVec 8) (m : BitVec 112)
  | ackSend (l : LinkId)
  | credit (l : LinkId) (lgen : BitVec 8) (m : BitVec 112)
  | lane (l : LinkId) (lgen : BitVec 8) (m : BitVec 112)
  | portDetect (l : LinkId)
  | trainComplete (l : LinkId) (ok : Bool) (partnerRates : BitVec 2) (good : BitVec 64)
  | alignComplete (l : LinkId) (good : BitVec 64)
  | laneBad (l : LinkId) (k : Fin 64) (cause : LaneCause)
  | cablePresentChange (l : LinkId) (present : Bool)
  | portTrainRequest (l : LinkId)
  | remoteRequest (p : PortId) (h : PktHdr) (data : List Byte)
  | remoteResponse (p : PortId) (h : PktHdr) (data : List Byte)
  | bucketFlit (fd : FdId) (p : PortId) (h : FlitHdr) (payload : BitVec 1952)
  | bucketLocalInput (fd : FdId) (b : Fin 256)
  | bucketComplete (fd : FdId) (b : Fin 256)
  | bucketDiscard (fd : FdId) (b : Fin 256)
  | redMcGo (fd : FdId) (v : Word)
  | multicastFlit (fd : FdId) (p : PortId) (h : FlitHdr) (payload : BitVec 1952)
  | multicastComplete (fd : FdId) (m : Fin 64)
  -- update engines (chapter 11)
  | gradientNotice (fd : FdId) (n : Notice)
  | unitBeginNotice (u : BitVec 16)
  | layerStart (fd : FdId) (l : Fin 128)
  | ueLdd (fd : FdId) (c : Fin 16) (w : BitVec 56)
  | ueXadd (fd : FdId) (c : Fin 16) (w : BitVec 56)
  | ueGbar (fd : FdId) (c : Fin 16) (w : BitVec 56)
  | ueDig (fd : FdId) (c : Fin 16) (w : BitVec 56)
  | ueDone (fd : FdId) (c : Fin 16) (w : BitVec 56)
  | digestReport (k : Fin 8)
  | digestCompare (step : BitVec 32) (reports : List (Nat × BitVec 128))
  -- companion link (chapter 12)
  | rdS (p : Fin 2) (h : CclHdr)
  | rdM (p : Fin 2) (h : CclHdr)
  | rdU (p : Fin 2) (h : CclHdr)
  | wrU (p : Fin 2) (h : CclHdr) (data : List Byte)
  | wb (p : Fin 2) (h : CclHdr) (data : List Byte)
  | drop (p : Fin 2) (h : CclHdr)
  | red (p : Fin 2) (h : CclHdr) (data : List Byte)
  | signal (p : Fin 2) (h : CclHdr) (data : List Byte)
  | doorbell (p : Fin 2) (h : CclHdr) (data : List Byte)
  | ringSetup (p : Fin 2) (h : CclHdr) (data : List Byte)
  | snpAck (p : Fin 2) (h : CclHdr) (data : List Byte)
  | snoopTimeout (d : CdId) (line : BitVec 40)
  | rspD (p : Fin 2) (h : CclHdr) (data : List Byte)
  | rspA (p : Fin 2) (h : CclHdr)
  | completionInterruptTimeout (mb : Fin 8)
  | importWindowWrite (w : Fin 16) (a b : Word)
  -- mailbox commands (chapter 14)
  | hello (c : MbxCmd)
  | getInfo (c : MbxCmd)
  | getState (c : MbxCmd)
  | capmapRead (c : MbxCmd)
  | ringRelease (c : MbxCmd)
  | ctxCreate (c : MbxCmd)
  | ctxDestroy (c : MbxCmd)
  | map (c : MbxCmd)
  | unmap (c : MbxCmd)
  | registerBacking (c : MbxCmd)
  | jobLoad (c : MbxCmd)
  | jobStart (c : MbxCmd)
  | jobHold (c : MbxCmd)
  | jobResume (c : MbxCmd)
  | jobDrain (c : MbxCmd)
  | replicaSet (c : MbxCmd)
  | digestPolicy (c : MbxCmd)
  | setLatTol (c : MbxCmd)
  | setPowerCap (c : MbxCmd)
  | fence (c : MbxCmd)
  | unfenceRequest (c : MbxCmd) (pass : Bool)
  | testRun (c : MbxCmd) (failed : List (Nat × Option Nat)) (elapsedMs : BitVec 32)
  | testPackageBegin (c : MbxCmd)
  | testPackageData (c : MbxCmd)
  | testPackageCommit (c : MbxCmd)
  | testPackageDelete (c : MbxCmd)
  | fwStageBegin (c : MbxCmd)
  | fwStageData (c : MbxCmd)
  | fwStageCommit (c : MbxCmd)
  | fwStageAbort (c : MbxCmd)
  | fwShed (c : MbxCmd)
  | shedSwitch
  | shedAutoStart
  | attest (c : MbxCmd)
  | getCerts (c : MbxCmd)
  | evtSubscribe (c : MbxCmd)
  | evtUnsubscribe (c : MbxCmd)
  | evtReplay (c : MbxCmd)
  | countersRead (c : MbxCmd)
  | masterSet (c : MbxCmd)
  | timeStatus (c : MbxCmd)
  -- registers (chapter 0)
  | readClearRegister (a : RegAgent) (ga : BitVec 40)
  | registerWrite (a : RegAgent) (ga : BitVec 40) (v : Word)
  -- controllers, power, thermal (chapters 14 and 15)
  | watchdogFire (k : Ctl)
  | hlPeak (pin iin : BitVec 16)
  | hlExc (pin iin : BitVec 16)
  | hlCur (pin iin : BitVec 16)
  | hwLimitRelease (pin iin : BitVec 16)
  | thermalClamp (d : DieId) (tj : BitVec 12)
  | thermalClampRelease (d : DieId) (tj : BitVec 12)
  | dieOffTrip (d : DieId) (tj : BitVec 12)
  | emergencyE1 (pin : BitVec 16)
  | emergencyE2 (c : E2Cause)
  | powerHoldRenew (d : Fin 2)
  | emergencyExit (pin : BitVec 16)
  | marginAlarm (t : TileId) (slack : BitVec 8)
  | powerEstimate (t : TileId)
  | powerCalibration (d : CdId)
  | coolantAlarm (tin tout : BitVec 12)
  | ageingReading (t : TileId) (dNow dBase : Nat) (vneedPlanned vneed1800 : Nat)
  | tileIdle (t : TileId)
  | powerStateEnter (u : PowerUnit) (ps : Fin 6)
  | powerStateWake (u : PowerUnit)
  -- events, ports, service (chapters 10, 15, 16, 17)
  | rateSummary (src : BitVec 32)
  | eventDatagramSend (coll : Fin 4)
  | eventRingSpaceReturn (mb : Fin 8) (head : BitVec 64)
  | shadowDigestCompare (shadow : TileId)
  | retrainComplete (l : LinkId) (ok : Bool)
  | powerUpRetry
  | mgtLinkChange (p : Fin 2) (up : Bool)
  | mgtFrameReceive (p : Fin 2) (f : MgtFrame)
  | enec (c : I3cCcc)
  | boundaryScan (op : JtagOp)
  | eventEngineLoss (e : Fin 2)
  -- supply, reset, service connector (chapters 13, 15 and 17)
  | inputTurnOn
  | inrushTimeout
  | inrushRetry
  | supplyShutdown (c : ShutdownCause)
  | clipSenseBreak (clip : Fin 2)
  | modRstNRise (b : BootWorld)
  | modRstNFall (ns : Nat)
  | recoveryOpen
  | recoveryData (off : BitVec 32) (bytes : List Byte)
  | recoveryClose
  | i3cWake
  | mgtAddrWrite (p : Fin 2) (bytes : List Byte)
  | collectorWrite (bytes : List Byte)
  deriving DecidableEq, Repr

end Sys2Proof
end

