-- ==== Sys2Proof/Decode.lean ====
section
/-!
DEFINITION. The table of operations gives no row any bits: a command is an operation or an event, not a
word. So no word spells a command.
-/

namespace Sys2Proof

/-- The command that a word spells by the table's bits: none, since the table gives none. -/
def decodeTableWord (_nbits _w : Nat) : Option Instr := none

end Sys2Proof
end

