-- ==== Sys2Proof/Config.lean ====
section
/-!
DEFINITION. What the spec leaves open, as constants with no body: nothing can be proved of their
values. A value that no rule gives is `freeWord` applied to the model's own counter (DESIGN CHOICE, log entry 6);
functions of named standards that the spec does not write out are uninterpreted (DESIGN CHOICE, log entry 7).
-/

namespace Sys2Proof.Config

/-- The n-th free value (DESIGN CHOICE, log entry 6). -/
opaque freeWord : Nat → BitVec 64

/-- SHA-512 of bytes (named by R452, not written out). -/
opaque sha512 : List Byte → BitVec 512

/-- First 32 bits of the HMAC of R476 and R569 over a record's bytes. -/
opaque hmacTag : BitVec 256 → List Byte → BitVec 32

/-- Whether an ECDSA P-521 signature verifies (R452): key, message, signature. -/
opaque verifies : List Byte → List Byte → List Byte → Bool

/-- The spin detector's signature after one more loaded value (R143 states no function). -/
opaque spinSignature : BitVec 32 → BitVec 64 → BitVec 32

/-- Bytes of a flash bank as shipped (DESIGN CHOICE, log entry 3), by device × 2^28 + bank × 120 MiB + offset. -/
opaque shippedFlash : Nat → BitVec 8

/-- The SHA-512 of the Farigor root public key, held in mask ROM. -/
opaque rootHash : BitVec 512

/-- The module serial number, from the device certificate in the helper-data area (R459). -/
opaque serial : BitVec 64

/-- The certificate chain that GET_CERTS returns (R470). -/
opaque certs : List (BitVec 8)

/-- A signature by the device key (R475). -/
opaque deviceSign : List (BitVec 8) → List (BitVec 8)

/-- Whether an update-core library, by its digest, holds a routine (R393); the spec gives no layout of
the routine table. -/
opaque hasRoutine : BitVec 512 → Nat → Bool

end Sys2Proof.Config
end

