-- ==== Sys2Proof/Machine/RegFile.lean ====
section
/-!
DEFINITION. The register tables of the spec as data: for each register its place in region 4
(Table 6.4 and the offset tables), its fields with access code and reset value (R5, R6), and the
encodings that R8 makes a write leave alone.
-/

namespace Sys2Proof.Machine

/-- Access codes (Table 0.2). -/
inductive Acc where
  | ro | rw | wo | w1c | rc
  deriving DecidableEq, Repr

/-- One field: bits [hi:lo], access, reset value, reserved encodings as ranges (R8). -/
structure RegField where
  hi    : Nat
  lo    : Nat
  acc   : Acc
  reset : Nat
  bad   : List (Nat × Nat)
  deriving DecidableEq, Repr

/-- One register, or a row of `count` registers `stride` bytes apart from offset `off`. -/
structure RegSpec where
  off    : Nat
  stride : Nat
  count  : Nat
  fields : List RegField
  deriving DecidableEq, Repr

/-- Registers of the per-tile blocks, part 0. -/
def regsTilePart0 : List RegSpec :=
  [
   -- MXA_OPDn_A (R78, Table 3.7a)
   ⟨0x1200, 0x20, 16,
    [⟨63, 48, .rw, 0x0, []⟩,
     ⟨47, 32, .rw, 0x0, []⟩,
     ⟨21, 0, .rw, 0x0, []⟩]⟩,
   -- MXA_OPDn_B (R78, Table 3.7b)
   ⟨0x1208, 0x20, 16,
    [⟨63, 32, .rw, 0x0, []⟩,
     ⟨31, 0, .rw, 0x0, []⟩]⟩,
   -- MXA_OPDn_C (R78, Table 3.7c)
   ⟨0x1210, 0x20, 16,
    [⟨47, 0, .rw, 0x0, []⟩]⟩,
   -- MXA_OPDn_D (R78, Table 3.7d)
   ⟨0x1218, 0x20, 16,
    [⟨63, 63, .rw, 0x0, []⟩,
     ⟨62, 62, .rw, 0x0, []⟩,
     ⟨61, 46, .rw, 0x0, []⟩,
     ⟨43, 22, .rw, 0x0, []⟩,
     ⟨21, 0, .rw, 0x0, []⟩]⟩,
   -- MXA_STATUS (R103, Table 3.13)
   ⟨0x1000, 0x8, 1,
    [⟨63, 52, .ro, 0x0, []⟩,
     ⟨48, 24, .ro, 0x0, []⟩,
     ⟨23, 16, .ro, 0x0, []⟩,
     ⟨15, 11, .ro, 0x0, []⟩,
     ⟨10, 10, .ro, 0x0, []⟩,
     ⟨9, 9, .ro, 0x0, []⟩,
     ⟨8, 8, .ro, 0x0, []⟩,
     ⟨7, 0, .ro, 0x80, []⟩]⟩,
   -- MXA_FLAGS (R104, Table 3.14)
   ⟨0x1008, 0x8, 1,
    [⟨63, 52, .ro, 0x0, []⟩,
     ⟨51, 40, .ro, 0x0, []⟩,
     ⟨39, 28, .ro, 0x0, []⟩,
     ⟨27, 16, .ro, 0x0, []⟩,
     ⟨10, 10, .ro, 0x0, []⟩,
     ⟨9, 9, .ro, 0x0, []⟩,
     ⟨8, 8, .ro, 0x0, []⟩,
     ⟨3, 3, .w1c, 0x0, []⟩,
     ⟨2, 2, .w1c, 0x0, []⟩,
     ⟨1, 1, .w1c, 0x0, []⟩,
     ⟨0, 0, .w1c, 0x0, []⟩]⟩,
   -- MXA_FLAGPOS (R105, Table 3.15)
   ⟨0x1010, 0x8, 1,
    [⟨63, 48, .ro, 0x0, []⟩,
     ⟨47, 32, .ro, 0x0, []⟩,
     ⟨31, 16, .ro, 0x0, []⟩,
     ⟨15, 0, .ro, 0x0, []⟩]⟩,
   -- MXA_FENCE (R106, Table 3.17)
   ⟨0x1018, 0x8, 1,
    [⟨63, 60, .ro, 0x0, []⟩,
     ⟨55, 0, .ro, 0x0, []⟩]⟩,
   -- TGE_STATUS (R147, Table 4.9)
   ⟨0x2000, 0x8, 1,
    [⟨58, 47, .ro, 0x0, []⟩,
     ⟨46, 30, .ro, 0x0, []⟩,
     ⟨29, 25, .ro, 0x0, []⟩,
     ⟨24, 19, .ro, 0x0, []⟩,
     ⟨18, 13, .ro, 0x0, []⟩,
     ⟨12, 9, .ro, 0x0, []⟩,
     ⟨0, 0, .ro, 0x0, []⟩]⟩,
   -- TGE_BSM_CFG (R147, Table 4.10)
   ⟨0x2008, 0x8, 1,
    [⟨5, 0, .rw, 0x10, [(33, 63)]⟩]⟩,
   -- TGE_LIMITS (R147, Table 4.11)
   ⟨0x2010, 0x8, 1,
    [⟨47, 32, .rw, 0x4000, []⟩,
     ⟨15, 0, .rw, 0x1000, []⟩]⟩,
   -- TGE_FAULT_INFO (R148, Table 4.12)
   ⟨0x2020, 0x8, 1,
    [⟨63, 56, .ro, 0x0, []⟩,
     ⟨55, 50, .ro, 0x0, []⟩,
     ⟨49, 45, .ro, 0x0, []⟩,
     ⟨44, 41, .ro, 0x0, []⟩,
     ⟨40, 35, .ro, 0x0, []⟩,
     ⟨34, 34, .w1c, 0x0, []⟩]⟩]

/-- Registers of the per-tile blocks, part 1. -/
def regsTilePart1 : List RegSpec :=
  [
   -- TGE_FAULT_PC and TGE_FAULT_PC2 (R148, Table 4.13)
   ⟨0x2028, 0x8, 2,
    [⟨47, 0, .ro, 0x0, []⟩]⟩,
   -- TGE_FAULT_ADDR (R148, Table 4.14)
   ⟨0x2038, 0x8, 1,
    [⟨47, 0, .ro, 0x0, []⟩]⟩,
   -- VXE_STATUS (R182, Table 5.14)
   ⟨0x3000, 0x8, 1,
    [⟨24, 20, .ro, 0x0, []⟩,
     ⟨19, 18, .ro, 0x1, []⟩,
     ⟨17, 8, .ro, 0x0, []⟩,
     ⟨7, 3, .ro, 0x0, []⟩,
     ⟨2, 2, .ro, 0x0, []⟩,
     ⟨0, 0, .ro, 0x0, []⟩]⟩,
   -- VXE_FLAGS (R182, Table 5.15)
   ⟨0x3008, 0x8, 1,
    [⟨63, 16, .ro, 0x0, []⟩,
     ⟨4, 4, .w1c, 0x0, []⟩,
     ⟨3, 3, .w1c, 0x0, []⟩,
     ⟨2, 2, .w1c, 0x0, []⟩,
     ⟨1, 1, .w1c, 0x0, []⟩,
     ⟨0, 0, .w1c, 0x0, []⟩]⟩,
   -- VXE_FAULT_INFO (R182, Table 5.16)
   ⟨0x3020, 0x8, 1,
    [⟨63, 56, .ro, 0x0, []⟩,
     ⟨40, 35, .ro, 0x0, []⟩,
     ⟨34, 34, .w1c, 0x0, []⟩,
     ⟨9, 0, .ro, 0x0, []⟩]⟩,
   -- VXE_FAULT_PC and VXE_FAULT_ADDR (R182, Table 5.17)
   ⟨0x3028, 0x8, 2,
    [⟨47, 0, .ro, 0x0, []⟩]⟩,
   -- TILE_XLT_FAULT (R207, Table 6.12)
   ⟨0x200, 0x8, 1,
    [⟨63, 60, .ro, 0x0, []⟩,
     ⟨59, 57, .ro, 0x0, []⟩,
     ⟨56, 55, .ro, 0x0, []⟩,
     ⟨54, 49, .ro, 0x0, []⟩,
     ⟨48, 48, .w1c, 0x0, []⟩]⟩,
   -- TILE_XLT_ADDR (R207, Table 6.13)
   ⟨0x208, 0x8, 1,
    [⟨47, 0, .ro, 0x0, []⟩]⟩,
   -- TILE_RA_CFG (R261, Table 7.16)
   ⟨0x400, 0x8, 1,
    [⟨5, 5, .rw, 0x1, []⟩,
     ⟨4, 0, .rw, 0x8, [(17, 31)]⟩]⟩,
   -- NC_CTRL (R261, Table 7.17)
   ⟨0x5000, 0x8, 1,
    [⟨0, 0, .rw, 0x1, []⟩]⟩,
   -- TMV_STATUS (R266, Table 7.21)
   ⟨0x4000, 0x8, 1,
    [⟨3, 0, .ro, 0x0, []⟩]⟩,
   -- TMV_FAULT_INFO (R266, Table 7.22)
   ⟨0x4020, 0x8, 1,
    [⟨63, 56, .ro, 0x0, []⟩,
     ⟨55, 48, .ro, 0x0, []⟩,
     ⟨40, 35, .ro, 0x0, []⟩,
     ⟨34, 34, .w1c, 0x0, []⟩]⟩]

/-- Registers of the per-tile blocks, part 2. -/
def regsTilePart2 : List RegSpec :=
  [
   -- TMV_FAULT_ADDR (R266, Table 7.22)
   ⟨0x4028, 0x8, 1,
    [⟨47, 0, .ro, 0x0, []⟩]⟩,
   -- TILE_TSQ_STATUS (R344, Table 9.15)
   ⟨0x500, 0x8, 1,
    [⟨63, 16, .ro, 0x0, []⟩,
     ⟨15, 12, .ro, 0x0, []⟩,
     ⟨11, 10, .ro, 0x0, []⟩,
     ⟨9, 9, .ro, 0x0, []⟩,
     ⟨8, 1, .ro, 0x0, []⟩,
     ⟨0, 0, .w1c, 0x0, []⟩]⟩,
   -- TILE_TSQ_STEP (R344, Table 9.16)
   ⟨0x508, 0x8, 1,
    [⟨63, 32, .ro, 0x0, []⟩,
     ⟨31, 0, .ro, 0x0, []⟩]⟩,
   -- TILE_TSQ_LATE (R344, Table 9.17)
   ⟨0x510, 0x8, 1,
    [⟨63, 32, .rc, 0x0, []⟩,
     ⟨31, 0, .rc, 0x0, []⟩]⟩,
   -- TILE_CAP (R513, Table 14.20)
   ⟨0x100, 0x8, 1,
    [⟨63, 56, .ro, 0x0, []⟩,
     ⟨55, 48, .ro, 0x0, []⟩,
     ⟨47, 44, .ro, 0x0, []⟩,
     ⟨43, 34, .ro, 0x0, []⟩,
     ⟨33, 33, .ro, 0x0, []⟩,
     ⟨32, 32, .ro, 0x0, []⟩,
     ⟨7, 0, .ro, 0x0, []⟩]⟩,
   -- TILE_ODIG_CFG (R599, Table 16.20)
   ⟨0x600, 0x8, 1,
    [⟨63, 63, .rw, 0x0, []⟩,
     ⟨62, 62, .rw, 0x0, []⟩,
     ⟨57, 48, .rw, 0x3ff, []⟩,
     ⟨47, 44, .rw, 0x0, [(9, 15)]⟩,
     ⟨39, 0, .rw, 0x0, []⟩]⟩,
   -- TILE_ODIG_LO and TILE_ODIG_HI (R599, Table 16.21)
   ⟨0x608, 0x8, 2,
    [⟨63, 0, .ro, 0x0, []⟩]⟩,
   -- TILE_CAP_CTL (R599, Table 16.22)
   ⟨0x618, 0x8, 1,
    [⟨63, 63, .rw, 0x0, []⟩,
     ⟨62, 62, .w1c, 0x0, []⟩,
     ⟨61, 61, .ro, 0x0, []⟩,
     ⟨15, 0, .rw, 0x0, []⟩]⟩,
   -- TILE_CAP_MATCH (R599, Table 16.23)
   ⟨0x620, 0x8, 1,
    [⟨63, 32, .rw, 0x0, []⟩,
     ⟨31, 0, .rw, 0x0, []⟩]⟩,
   -- TILE_CAP_GA (R599, Table 16.23)
   ⟨0x628, 0x8, 1,
    [⟨63, 56, .rw, 0x0, [(0, 0), (129, 255)]⟩,
     ⟨39, 0, .rw, 0x0, []⟩]⟩,
   -- MXA_CTRL (R107, Table -)
   ⟨0x1020, 0x8, 1,
    [⟨0, 0, .rw, 0x1, []⟩]⟩,
   -- MXA_SPEC counters (R108, Table 3.18)
   ⟨0x1100, 0x8, 6,
    [⟨63, 0, .ro, 0x0, []⟩]⟩]

/-- Registers of the per-tile blocks, part 3. -/
def regsTilePart3 : List RegSpec :=
  [
   -- TGE_CNT (R149, Table 4.15)
   ⟨0x2100, 0x8, 7,
    [⟨63, 0, .ro, 0x0, []⟩]⟩,
   -- TILE_STALL_e_c (R150, Table 4.16)
   ⟨0x800, 0x8, 80,
    [⟨63, 0, .ro, 0x0, []⟩]⟩,
   -- VXE_CNT (R183, Table 5.18)
   ⟨0x3100, 0x8, 7,
    [⟨63, 0, .ro, 0x0, []⟩]⟩,
   -- TILE_CNT (R208 and R260, Table 6.14 and 7.14)
   ⟨0x300, 0x8, 7,
    [⟨63, 0, .ro, 0x0, []⟩]⟩,
   -- NC_CNT (R260, Table 7.15)
   ⟨0x5100, 0x8, 5,
    [⟨63, 0, .ro, 0x0, []⟩]⟩,
   -- TMV_CNT (R266, Table 7.23)
   ⟨0x4100, 0x8, 4,
    [⟨63, 0, .ro, 0x0, []⟩]⟩]

/-- All registers of the per-tile blocks. -/
def regsTile : List RegSpec := regsTilePart0 ++ regsTilePart1 ++ regsTilePart2 ++ regsTilePart3

/-- Registers of the compute dies, part 0. -/
def regsCdPart0 : List RegSpec :=
  [
   -- HC_CTRL (R258, Table 7.7)
   ⟨0x100000, 0x8, 1,
    [⟨3, 3, .ro, 0x0, []⟩,
     ⟨2, 2, .wo, 0x0, []⟩,
     ⟨1, 1, .rw, 0x0, []⟩,
     ⟨0, 0, .rw, 0x1, []⟩]⟩,
   -- HC_PIN_CFG (R258, Table 7.8)
   ⟨0x100008, 0x8, 1,
    [⟨5, 5, .ro, 0x0, []⟩,
     ⟨4, 4, .wo, 0x0, []⟩,
     ⟨3, 0, .rw, 0x0, [(9, 15)]⟩]⟩,
   -- HC_PINn (R258, Table 7.9)
   ⟨0x100040, 0x8, 8,
    [⟨63, 63, .rw, 0x0, []⟩,
     ⟨62, 62, .rw, 0x0, []⟩,
     ⟨45, 32, .rw, 0x0, []⟩,
     ⟨13, 0, .rw, 0x0, []⟩]⟩,
   -- HC_RED_FLAGS (R258, Table 7.10)
   ⟨0x100010, 0x8, 1,
    [⟨63, 63, .w1c, 0x0, []⟩,
     ⟨62, 62, .w1c, 0x0, []⟩,
     ⟨61, 56, .ro, 0x0, []⟩,
     ⟨30, 30, .ro, 0x0, []⟩,
     ⟨29, 7, .ro, 0x0, []⟩]⟩,
   -- BAR_CFGn (R286, Table 8.9)
   ⟨0x120000, 0x20, 32,
    [⟨63, 63, .rw, 0x0, []⟩,
     ⟨62, 61, .rw, 0x0, []⟩,
     ⟨60, 53, .rw, 0x0, []⟩,
     ⟨52, 47, .rw, 0x0, []⟩,
     ⟨46, 41, .rw, 0x0, []⟩,
     ⟨11, 0, .rw, 0x0, []⟩]⟩,
   -- BAR_STATEn (R286, Table 8.10)
   ⟨0x120008, 0x20, 32,
    [⟨63, 48, .ro, 0x0, []⟩,
     ⟨35, 24, .ro, 0x0, []⟩,
     ⟨23, 12, .ro, 0x0, []⟩,
     ⟨11, 0, .ro, 0x0, []⟩]⟩,
   -- BAR_DEADLINEn (R286, Table 8.11)
   ⟨0x120010, 0x20, 32,
    [⟨63, 0, .ro, 0x0, []⟩]⟩,
   -- PWR_DIE_EST (R560, Table 15.13)
   ⟨0x130100, 0x8, 1,
    [⟨63, 61, .ro, 0x0, []⟩,
     ⟨31, 0, .ro, 0x0, []⟩]⟩,
   -- PWR_CAL (R560, Table 15.13)
   ⟨0x130108, 0x8, 1,
    [⟨63, 48, .rw, 0x4000, []⟩,
     ⟨31, 0, .rw, 0x0, []⟩]⟩,
   -- PWR_SAFE (R560, Table 15.13)
   ⟨0x130110, 0x8, 1,
    [⟨4, 0, .rw, 0x10, [(0, 0), (17, 31)]⟩]⟩,
   -- PWR_TILEt_V (R560, Table 15.14)
   ⟨0x130200, 0x10, 12,
    [⟨24, 16, .rw, 0x12c, [(0, 259), (361, 511)]⟩,
     ⟨15, 8, .ro, 0x0, []⟩,
     ⟨0, 0, .w1c, 0x0, []⟩]⟩,
   -- PWR_TILEt_CTL (R560, Table 15.14)
   ⟨0x130208, 0x10, 12,
    [⟨63, 61, .ro, 0x0, []⟩,
     ⟨54, 48, .rw, 0x40, [(0, 0), (65, 127)]⟩,
     ⟨47, 41, .ro, 0x40, []⟩,
     ⟨31, 0, .ro, 0x0, []⟩]⟩]

/-- Registers of the compute dies, part 1. -/
def regsCdPart1 : List RegSpec :=
  [
   -- HC_CNT_ (protection) (R219, Table 6.15)
   ⟨0x100f00, 0x8, 6,
    [⟨63, 0, .ro, 0x0, []⟩]⟩,
   -- HC_HIT_c and HC_MISS_c (R260, Table 7.12)
   ⟨0x100400, 0x8, 16,
    [⟨63, 0, .ro, 0x0, []⟩]⟩,
   -- HC_CNT_ (events) (R260, Table 7.13)
   ⟨0x100500, 0x8, 11,
    [⟨63, 0, .ro, 0x0, []⟩]⟩,
   -- BAR_CNT (R287, Table 8.12)
   ⟨0x120800, 0x8, 5,
    [⟨63, 0, .ro, 0x0, []⟩]⟩,
   -- PWR_CNT (die) (R562, Table 15.16)
   ⟨0x130420, 0x8, 3,
    [⟨63, 0, .ro, 0x0, []⟩]⟩]

/-- All registers of the compute dies. -/
def regsCd : List RegSpec := regsCdPart0 ++ regsCdPart1

/-- Registers of the die FD0, part 0. -/
def regsFd0Part0 : List RegSpec :=
  [
   -- SYNC_CSTk_A (R279, Table 8.5)
   ⟨0x114000, 0x10, 1024,
    [⟨63, 63, .rw, 0x0, []⟩,
     ⟨62, 62, .rw, 0x0, []⟩,
     ⟨61, 61, .rw, 0x0, []⟩,
     ⟨51, 3, .rw, 0x0, []⟩]⟩,
   -- SYNC_CSTk_B (R279, Table 8.6)
   ⟨0x114008, 0x10, 1024,
    [⟨63, 56, .rw, 0x0, []⟩,
     ⟨10, 0, .rw, 0x0, []⟩]⟩,
   -- SYNC_MBCc_CFG (R293, Table 8.13)
   ⟨0x111000, 0x20, 64,
    [⟨63, 63, .rw, 0x0, []⟩,
     ⟨62, 62, .rw, 0x0, []⟩,
     ⟨61, 54, .rw, 0x0, []⟩,
     ⟨53, 48, .rw, 0x0, []⟩,
     ⟨47, 0, .rw, 0x0, []⟩]⟩,
   -- SYNC_MBCc_TREE (R293, Table 8.14)
   ⟨0x111008, 0x20, 64,
    [⟨63, 48, .rw, 0x0, []⟩,
     ⟨19, 16, .rw, 0x0, [(8, 15)]⟩,
     ⟨15, 15, .rw, 0x0, []⟩,
     ⟨7, 0, .rw, 0x0, []⟩]⟩,
   -- SYNC_MBCc_STATE (R293, Table 8.15)
   ⟨0x111010, 0x20, 64,
    [⟨63, 56, .ro, 0x0, []⟩,
     ⟨47, 0, .ro, 0x0, []⟩]⟩,
   -- SYNC_MBCc_LATE (R293, Table 8.16)
   ⟨0x111018, 0x20, 64,
    [⟨63, 56, .ro, 0x0, []⟩,
     ⟨55, 48, .ro, 0x0, []⟩,
     ⟨47, 0, .ro, 0x0, []⟩]⟩,
   -- THM_COOLANT (R561, Table 15.15)
   ⟨0x140018, 0x8, 1,
    [⟨63, 52, .ro, 0x0, []⟩,
     ⟨51, 40, .ro, 0x0, []⟩]⟩]

/-- All registers of the die FD0. -/
def regsFd0 : List RegSpec := regsFd0Part0

/-- Registers of the blocks on all dies, part 0. -/
def regsAllPart0 : List RegSpec :=
  [
   -- SYNC_STATUS (R299, Table 8.20)
   ⟨0x110000, 0x8, 1,
    [⟨12, 0, .ro, 0x0, []⟩]⟩,
   -- THM_STATUS (R561, Table 15.15)
   ⟨0x140000, 0x8, 1,
    [⟨63, 52, .ro, 0x0, []⟩,
     ⟨51, 47, .ro, 0x0, []⟩,
     ⟨46, 45, .ro, 0x0, []⟩,
     ⟨44, 44, .w1c, 0x0, []⟩,
     ⟨43, 32, .rc, 0x0, []⟩]⟩,
   -- THM_CFG (R561, Table 15.15)
   ⟨0x140008, 0x8, 1,
    [⟨7, 0, .rw, 0x64, [(0, 84), (101, 255)]⟩]⟩,
   -- SYNC_CNT (R300, Table 8.21)
   ⟨0x110100, 0x8, 10,
    [⟨63, 0, .ro, 0x0, []⟩]⟩,
   -- THM_CNT (R562, Table 15.16)
   ⟨0x140100, 0x8, 2,
    [⟨63, 0, .ro, 0x0, []⟩]⟩,
   -- EVT_CNT (sources) (R601, Table 16.27)
   ⟨0x150100, 0x8, 2,
    [⟨63, 0, .ro, 0x0, []⟩]⟩]

/-- All registers of the blocks on all dies. -/
def regsAll : List RegSpec := regsAllPart0

/-- Registers of the fabric dies, part 0. -/
def regsFdPart0 : List RegSpec :=
  [
   -- FAB_FTC_FRAC (R343, Table 9.10)
   ⟨0x8008, 0x8, 1,
    [⟨15, 0, .ro, 0x0, []⟩]⟩,
   -- FAB_TIME_STATUS (R343, Table 9.11)
   ⟨0x8010, 0x8, 1,
    [⟨63, 62, .ro, 0x0, []⟩,
     ⟨61, 54, .ro, 0x0, []⟩,
     ⟨53, 52, .ro, 0x0, []⟩,
     ⟨51, 51, .ro, 0x0, []⟩,
     ⟨50, 50, .ro, 0x0, []⟩,
     ⟨49, 46, .ro, 0xf, []⟩,
     ⟨45, 40, .ro, 0x0, []⟩,
     ⟨39, 28, .ro, 0x0, []⟩,
     ⟨27, 16, .ro, 0x0, []⟩,
     ⟨15, 0, .ro, 0x0, []⟩]⟩,
   -- FAB_DOM_CFG (R343, Table 9.12)
   ⟨0x8020, 0x20, 2,
    [⟨63, 56, .rw, 0x0, []⟩,
     ⟨55, 54, .ro, 0x0, []⟩,
     ⟨53, 53, .rw, 0x0, []⟩,
     ⟨47, 32, .rw, 0x80, []⟩,
     ⟨31, 24, .rw, 0x4, [(0, 0), (65, 255)]⟩,
     ⟨23, 0, .rw, 0x0, []⟩]⟩,
   -- FAB_HOLD_STATUS (R343, Table 9.13)
   ⟨0x8030, 0x20, 2,
    [⟨63, 63, .ro, 0x0, []⟩,
     ⟨62, 62, .ro, 0x0, []⟩,
     ⟨61, 54, .ro, 0x0, []⟩,
     ⟨53, 47, .ro, 0x0, []⟩,
     ⟨46, 0, .ro, 0x0, []⟩]⟩,
   -- FAB_PORTq_CFG (R384, Table 10.16)
   ⟨0x0, 0x1000, 2,
    [⟨23, 8, .rw, 0x400, []⟩,
     ⟨7, 6, .rw, 0x0, [(3, 3)]⟩,
     ⟨5, 4, .rw, 0x0, []⟩,
     ⟨1, 1, .wo, 0x0, []⟩,
     ⟨0, 0, .rw, 0x1, []⟩]⟩,
   -- FAB_PORTq_STATUS (R384, Table 10.17)
   ⟨0x8, 0x1000, 2,
    [⟨63, 60, .ro, 0x0, []⟩,
     ⟨59, 59, .ro, 0x0, []⟩,
     ⟨58, 52, .ro, 0x0, []⟩,
     ⟨51, 45, .ro, 0x0, []⟩,
     ⟨44, 37, .ro, 0x0, []⟩,
     ⟨36, 25, .ro, 0x0, []⟩,
     ⟨24, 22, .ro, 0x0, []⟩]⟩,
   -- FAB_PORTq_LANES_RX (R384, Table 10.18)
   ⟨0x10, 0x1000, 2,
    [⟨63, 0, .ro, 0x0, []⟩]⟩,
   -- FAB_PORTq_LANES_TX (R384, Table 10.18)
   ⟨0x18, 0x1000, 2,
    [⟨63, 0, .ro, 0x0, []⟩]⟩,
   -- FAB_ROUTE (R384, Table 10.19)
   ⟨0x2000, 0x8, 1,
    [⟨63, 62, .rw, 0x0, []⟩,
     ⟨61, 60, .rw, 0x0, [(3, 3)]⟩,
     ⟨59, 55, .rw, 0x1, [(0, 0), (17, 31)]⟩,
     ⟨54, 50, .rw, 0x1, [(0, 0), (17, 31)]⟩,
     ⟨49, 45, .rw, 0x1, [(0, 0), (17, 31)]⟩,
     ⟨44, 33, .ro, 0x0, []⟩]⟩,
   -- FAB_EXPORTw_A (R384, Table 10.20)
   ⟨0x3000, 0x10, 16,
    [⟨63, 63, .rw, 0x0, []⟩,
     ⟨62, 62, .rw, 0x0, []⟩,
     ⟨15, 0, .rw, 0x0, []⟩]⟩,
   -- FAB_EXPORTw_B (R384, Table 10.20)
   ⟨0x3008, 0x10, 16,
    [⟨47, 24, .rw, 0x0, []⟩,
     ⟨23, 0, .rw, 0x0, []⟩]⟩,
   -- RED_STATUS (R386, Table 10.23)
   ⟨0x10000, 0x8, 1,
    [⟨63, 55, .ro, 0x0, []⟩,
     ⟨54, 46, .ro, 0x0, []⟩,
     ⟨45, 30, .ro, 0x0, []⟩]⟩]

/-- Registers of the fabric dies, part 1. -/
def regsFdPart1 : List RegSpec :=
  [
   -- RED_FLAGS (R386, Table 10.24)
   ⟨0x10008, 0x8, 1,
    [⟨63, 63, .w1c, 0x0, []⟩,
     ⟨62, 62, .w1c, 0x0, []⟩,
     ⟨61, 61, .w1c, 0x0, []⟩,
     ⟨60, 60, .w1c, 0x0, []⟩,
     ⟨59, 59, .w1c, 0x0, []⟩,
     ⟨47, 32, .ro, 0x0, []⟩,
     ⟨31, 0, .ro, 0x0, []⟩]⟩,
   -- RED_MC_GO (R386, Table 10.25)
   ⟨0x10010, 0x8, 1,
    [⟨63, 56, .wo, 0x0, []⟩,
     ⟨55, 40, .wo, 0x0, []⟩,
     ⟨39, 20, .wo, 0x0, []⟩,
     ⟨19, 0, .wo, 0x0, []⟩]⟩,
   -- RED_BKTb_W0 (R386, Table 10.26)
   ⟨0x11000, 0x40, 256,
    [⟨63, 63, .rw, 0x0, []⟩,
     ⟨62, 61, .rw, 0x0, [(3, 3)]⟩,
     ⟨60, 60, .rw, 0x0, []⟩,
     ⟨59, 59, .rw, 0x0, []⟩,
     ⟨58, 58, .rw, 0x0, []⟩,
     ⟨55, 48, .rw, 0x0, []⟩,
     ⟨47, 32, .rw, 0x0, []⟩,
     ⟨31, 24, .rw, 0x0, []⟩,
     ⟨23, 18, .rw, 0x0, []⟩,
     ⟨15, 8, .rw, 0x0, []⟩,
     ⟨7, 4, .rw, 0x0, []⟩]⟩,
   -- RED_BKTb_W1 (R386, Table 10.27)
   ⟨0x11008, 0x40, 256,
    [⟨63, 32, .rw, 0x0, []⟩,
     ⟨31, 0, .rw, 0x0, []⟩]⟩,
   -- RED_BKTb_W2 (R386, Table 10.28)
   ⟨0x11010, 0x40, 256,
    [⟨63, 32, .rw, 0x0, []⟩,
     ⟨31, 16, .rw, 0x0, []⟩,
     ⟨13, 0, .rw, 0x0, []⟩]⟩,
   -- RED_BKTb_W3 (R386, Table 10.29)
   ⟨0x11018, 0x40, 256,
    [⟨63, 48, .rw, 0x0, []⟩,
     ⟨47, 40, .rw, 0x0, []⟩,
     ⟨39, 0, .rw, 0x0, []⟩]⟩,
   -- RED_BKTb_W4 (R386, Table 10.30)
   ⟨0x11020, 0x40, 256,
    [⟨63, 56, .rw, 0x0, []⟩,
     ⟨55, 48, .rw, 0x0, []⟩,
     ⟨39, 0, .rw, 0x0, []⟩]⟩,
   -- RED_BKTb_W5 (R386, Table 10.31)
   ⟨0x11028, 0x40, 256,
    [⟨63, 56, .rw, 0x0, []⟩,
     ⟨39, 0, .rw, 0x0, []⟩]⟩,
   -- RED_BKTb_W6 (R386, Table 10.31)
   ⟨0x11030, 0x40, 256,
    [⟨39, 0, .rw, 0x0, []⟩]⟩,
   -- RED_BKTb_STATE (R386, Table 10.32)
   ⟨0x16000, 0x8, 256,
    [⟨63, 61, .ro, 0x0, []⟩,
     ⟨60, 52, .ro, 0x0, []⟩,
     ⟨31, 0, .ro, 0x0, []⟩]⟩,
   -- RED_MCm_W0 (R386, Table 10.33)
   ⟨0x18000, 0x20, 64,
    [⟨63, 63, .rw, 0x0, []⟩,
     ⟨62, 62, .rw, 0x0, []⟩,
     ⟨61, 61, .rw, 0x0, []⟩,
     ⟨55, 48, .rw, 0x0, []⟩,
     ⟨47, 32, .rw, 0x0, []⟩,
     ⟨31, 28, .rw, 0x0, [(8, 15)]⟩,
     ⟨27, 20, .rw, 0x0, []⟩,
     ⟨13, 0, .rw, 0x0, []⟩]⟩,
   -- RED_MCm_W1 (R386, Table 10.33)
   ⟨0x18008, 0x20, 64,
    [⟨63, 48, .rw, 0x0, []⟩,
     ⟨39, 0, .rw, 0x0, []⟩]⟩]

/-- Registers of the fabric dies, part 2. -/
def regsFdPart2 : List RegSpec :=
  [
   -- RED_MCm_W2 (R386, Table 10.33)
   ⟨0x18010, 0x20, 64,
    [⟨39, 0, .rw, 0x0, []⟩]⟩,
   -- RED_MCm_W3 (R386, Table 10.33)
   ⟨0x18018, 0x20, 64,
    [⟨63, 56, .rw, 0x0, []⟩,
     ⟨39, 0, .rw, 0x0, []⟩]⟩,
   -- UE_LDl_W0 (R399, Table 11.6)
   ⟨0x21000, 0x80, 128,
    [⟨63, 63, .rw, 0x0, []⟩,
     ⟨62, 62, .rw, 0x0, []⟩,
     ⟨61, 61, .rw, 0x0, []⟩,
     ⟨60, 60, .ro, 0x0, []⟩,
     ⟨59, 56, .rw, 0x0, []⟩,
     ⟨55, 48, .rw, 0x0, []⟩,
     ⟨47, 32, .rw, 0x0, []⟩,
     ⟨31, 0, .rw, 0x0, []⟩]⟩,
   -- UE_LDl_W1 (R399, Table 11.6)
   ⟨0x21008, 0x80, 128,
    [⟨63, 32, .rw, 0x0, []⟩,
     ⟨31, 0, .rw, 0x0, []⟩]⟩,
   -- UE_LDl_W2 (R399, Table 11.6)
   ⟨0x21010, 0x80, 128,
    [⟨63, 32, .rw, 0x0, []⟩,
     ⟨31, 16, .rw, 0x0, []⟩,
     ⟨15, 0, .rw, 0xffff, [(0, 0)]⟩]⟩,
   -- UE_LDl_W3 (R399, Table 11.6)
   ⟨0x21018, 0x80, 128,
    [⟨63, 56, .rw, 0x0, []⟩,
     ⟨55, 48, .rw, 0x0, []⟩,
     ⟨47, 40, .rw, 0x0, []⟩,
     ⟨39, 34, .rw, 0x0, []⟩,
     ⟨33, 28, .rw, 0x0, []⟩,
     ⟨27, 20, .rw, 0x0, []⟩,
     ⟨19, 14, .rw, 0x0, []⟩,
     ⟨13, 0, .rw, 0x0, []⟩]⟩,
   -- UE_LDl_W4 (R399, Table 11.7)
   ⟨0x21020, 0x80, 128,
    [⟨63, 32, .rw, 0x0, []⟩,
     ⟨31, 0, .rw, 0x0, []⟩]⟩,
   -- UE_LDl_W5 (R399, Table 11.7)
   ⟨0x21028, 0x80, 128,
    [⟨63, 32, .rw, 0x0, []⟩,
     ⟨31, 0, .rw, 0x0, []⟩]⟩,
   -- UE_LDl_W6 (R399, Table 11.7)
   ⟨0x21030, 0x80, 128,
    [⟨63, 32, .rw, 0x0, []⟩,
     ⟨31, 0, .rw, 0x0, []⟩]⟩,
   -- UE_LDl_W7 (R399, Table 11.7)
   ⟨0x21038, 0x80, 128,
    [⟨63, 32, .rw, 0x0, []⟩,
     ⟨31, 0, .rw, 0x0, []⟩]⟩,
   -- UE_LDl_W8 (R399, Table 11.7)
   ⟨0x21040, 0x80, 128,
    [⟨63, 48, .rw, 0x0, []⟩,
     ⟨39, 0, .rw, 0x0, []⟩]⟩,
   -- UE_LDl_W9 (R399, Table 11.8)
   ⟨0x21048, 0x80, 128,
    [⟨63, 48, .rw, 0x0, []⟩,
     ⟨47, 40, .rw, 0x0, []⟩,
     ⟨39, 24, .rw, 0x0, []⟩,
     ⟨23, 16, .rw, 0x0, []⟩]⟩]

/-- Registers of the fabric dies, part 3. -/
def regsFdPart3 : List RegSpec :=
  [
   -- UE_LDl_W10 (R399, Table 11.8)
   ⟨0x21050, 0x80, 128,
    [⟨39, 0, .rw, 0x0, []⟩]⟩,
   -- UE_LDl_W11 (R399, Table 11.8)
   ⟨0x21058, 0x80, 128,
    [⟨39, 0, .rw, 0x0, []⟩]⟩,
   -- UE_LDl_W12 (R399, Table 11.8)
   ⟨0x21060, 0x80, 128,
    [⟨63, 48, .rw, 0x0, []⟩,
     ⟨47, 42, .rw, 0x0, []⟩,
     ⟨31, 0, .rw, 0x0, []⟩]⟩,
   -- UE_LDl_W13 (R399, Table 11.8)
   ⟨0x21068, 0x80, 128,
    [⟨63, 58, .rw, 0x0, []⟩,
     ⟨39, 0, .rw, 0x0, []⟩]⟩,
   -- UE_LDl_W14 (R399, Table 11.9)
   ⟨0x21070, 0x80, 128,
    [⟨63, 0, .rw, 0x0, []⟩]⟩,
   -- UE_LDl_W15 (R399, Table 11.9)
   ⟨0x21078, 0x80, 128,
    [⟨63, 0, .rw, 0x0, []⟩]⟩,
   -- UE_STATUS (R422, Table 11.17)
   ⟨0x20000, 0x8, 1,
    [⟨63, 56, .ro, 0x0, []⟩,
     ⟨55, 48, .ro, 0x0, []⟩,
     ⟨47, 32, .ro, 0x0, []⟩,
     ⟨31, 23, .ro, 0x0, []⟩]⟩,
   -- UE_FLAGS (R422, Table 11.18)
   ⟨0x20008, 0x8, 1,
    [⟨63, 63, .w1c, 0x0, []⟩,
     ⟨62, 62, .w1c, 0x0, []⟩,
     ⟨61, 61, .w1c, 0x0, []⟩,
     ⟨60, 60, .w1c, 0x0, []⟩,
     ⟨59, 59, .w1c, 0x0, []⟩,
     ⟨58, 58, .w1c, 0x0, []⟩,
     ⟨31, 0, .ro, 0x0, []⟩]⟩,
   -- UE_DIG_CFG (R422, Table 11.19)
   ⟨0x20010, 0x8, 1,
    [⟨63, 53, .rw, 0x8, [(1025, 2047)]⟩,
     ⟨52, 41, .rw, 0x0, []⟩,
     ⟨40, 33, .rw, 0x0, []⟩,
     ⟨32, 21, .rw, 0x0, []⟩]⟩,
   -- UE_DIG_GA (R422, Table 11.19)
   ⟨0x20018, 0x8, 1,
    [⟨63, 48, .rw, 0x0, []⟩,
     ⟨39, 0, .rw, 0x0, []⟩]⟩,
   -- UE_FAULT_INFO (R423, Table 11.20)
   ⟨0x20030, 0x8, 1,
    [⟨63, 56, .ro, 0x0, []⟩,
     ⟨55, 52, .ro, 0x0, []⟩,
     ⟨40, 35, .ro, 0x0, []⟩,
     ⟨34, 34, .w1c, 0x0, []⟩,
     ⟨31, 0, .ro, 0x0, []⟩]⟩,
   -- UE_FAULT_PC and UE_FAULT_ADDR (R423, Table 11.21)
   ⟨0x20038, 0x8, 2,
    [⟨47, 0, .ro, 0x0, []⟩]⟩]

/-- Registers of the fabric dies, part 4. -/
def regsFdPart4 : List RegSpec :=
  [
   -- UE_LDl_STATE (R423, Table 11.22)
   ⟨0x25000, 0x8, 128,
    [⟨63, 61, .ro, 0x0, []⟩,
     ⟨60, 55, .ro, 0x0, []⟩,
     ⟨54, 39, .ro, 0x0, []⟩,
     ⟨38, 36, .ro, 0x0, []⟩,
     ⟨31, 0, .ro, 0x0, []⟩]⟩,
   -- slot tables, four entries of Table 9.2 to a word (R316, R343)
   ⟨0xC000, 0x8, 1024,
    [⟨63, 62, .rw, 0x0, [(3, 3)]⟩,
     ⟨61, 48, .rw, 0x0, []⟩,
     ⟨47, 46, .rw, 0x0, [(3, 3)]⟩,
     ⟨45, 32, .rw, 0x0, []⟩,
     ⟨31, 30, .rw, 0x0, [(3, 3)]⟩,
     ⟨29, 16, .rw, 0x0, []⟩,
     ⟨15, 14, .rw, 0x0, [(3, 3)]⟩,
     ⟨13, 0, .rw, 0x0, []⟩]⟩,
   -- FAB_FTC (R343, Table 9.9)
   ⟨0x8000, 0x8, 1,
    [⟨63, 0, .ro, 0x0, []⟩]⟩,
   -- FAB_SHIFT (R343, Table 9.9)
   ⟨0x8028, 0x20, 2,
    [⟨63, 0, .ro, 0x0, []⟩]⟩,
   -- FAB_CNT (time) (R343, Table 9.9)
   ⟨0x8100, 0x8, 6,
    [⟨63, 0, .ro, 0x0, []⟩]⟩,
   -- FAB_PORTq_CNT, q = 0 (R385, Table 10.21)
   ⟨0x100, 0x8, 12,
    [⟨63, 0, .ro, 0x0, []⟩]⟩,
   -- FAB_PORTq_CNT, q = 1 (R385, Table 10.21)
   ⟨0x1100, 0x8, 12,
    [⟨63, 0, .ro, 0x0, []⟩]⟩,
   -- RED_CNT (R387, Table 10.34)
   ⟨0x10100, 0x8, 9,
    [⟨63, 0, .ro, 0x0, []⟩]⟩,
   -- UE_DKEY_LO and UE_DKEY_HI (R423, Table 11.15)
   ⟨0x20020, 0x8, 2,
    [⟨63, 0, .wo, 0x0, []⟩]⟩,
   -- UE_CNT (R424, Table 11.23)
   ⟨0x20100, 0x8, 9,
    [⟨63, 0, .ro, 0x0, []⟩]⟩]

/-- All registers of the fabric dies. -/
def regsFd : List RegSpec := regsFdPart0 ++ regsFdPart1 ++ regsFdPart2 ++ regsFdPart3 ++ regsFdPart4

/-- Registers of the dies FD0 and FD1, part 0. -/
def regsFd01Part0 : List RegSpec :=
  [
   -- CCL_PORTp_CFG (R450, Table 12.12)
   ⟨0x30000, 0x8, 1,
    [⟨23, 8, .rw, 0x400, []⟩,
     ⟨7, 6, .rw, 0x0, [(3, 3)]⟩,
     ⟨1, 1, .wo, 0x0, []⟩,
     ⟨0, 0, .rw, 0x1, []⟩]⟩,
   -- CCL_PORTp_STATUS (R450, Table 12.13)
   ⟨0x30008, 0x8, 1,
    [⟨63, 60, .ro, 0x0, []⟩,
     ⟨59, 59, .ro, 0x0, []⟩,
     ⟨58, 57, .ro, 0x0, []⟩,
     ⟨56, 49, .ro, 0x0, []⟩,
     ⟨48, 33, .ro, 0x0, []⟩]⟩,
   -- CCL_APERTURE (R450, Table 12.14)
   ⟨0x30010, 0x8, 1,
    [⟨11, 0, .rw, 0x0, []⟩]⟩,
   -- CCL_IMPw_A (R450, Table 12.14)
   ⟨0x30100, 0x10, 16,
    [⟨63, 63, .rw, 0x0, []⟩,
     ⟨62, 62, .rw, 0x1, []⟩,
     ⟨61, 61, .rw, 0x0, []⟩,
     ⟨57, 52, .rw, 0x0, []⟩,
     ⟨51, 12, .rw, 0x0, []⟩]⟩,
   -- CCL_IMPw_B (R450, Table 12.14)
   ⟨0x30108, 0x10, 16,
    [⟨39, 0, .rw, 0x0, []⟩]⟩,
   -- CCL_MBm_SQ (R450, Table 12.15)
   ⟨0x30200, 0x10, 8,
    [⟨63, 63, .rw, 0x0, []⟩,
     ⟨62, 62, .rw, 0x0, []⟩,
     ⟨51, 12, .rw, 0x0, []⟩,
     ⟨11, 8, .rw, 0x0, [(0, 3), (13, 15)]⟩]⟩,
   -- CCL_MBm_CQ (R450, Table 12.15)
   ⟨0x30208, 0x10, 8,
    [⟨63, 59, .rw, 0x1, []⟩,
     ⟨58, 52, .rw, 0x0, []⟩,
     ⟨51, 12, .rw, 0x0, []⟩,
     ⟨11, 1, .rw, 0x0, []⟩]⟩,
   -- BOOT_STATUS (R478, Table 13.13)
   ⟨0x70000, 0x8, 1,
    [⟨63, 56, .ro, 0x0, []⟩,
     ⟨55, 52, .ro, 0x0, []⟩,
     ⟨51, 51, .ro, 0x0, []⟩,
     ⟨50, 50, .ro, 0x0, []⟩,
     ⟨49, 49, .ro, 0x0, []⟩,
     ⟨48, 48, .ro, 0x0, []⟩,
     ⟨47, 47, .ro, 0x0, []⟩,
     ⟨31, 0, .ro, 0x0, []⟩]⟩,
   -- BOOT_MINVER (R478, Table 13.14)
   ⟨0x70008, 0x8, 1,
    [⟨63, 32, .ro, 0x0, []⟩,
     ⟨31, 0, .ro, 0x0, []⟩]⟩,
   -- SEC_STATUS (R478, Table 13.15)
   ⟨0x60000, 0x8, 1,
    [⟨63, 63, .ro, 0x0, []⟩,
     ⟨62, 62, .ro, 0x0, []⟩,
     ⟨61, 61, .ro, 0x0, []⟩,
     ⟨59, 56, .ro, 0x0, []⟩,
     ⟨55, 52, .ro, 0x0, []⟩,
     ⟨15, 0, .ro, 0x0, []⟩]⟩,
   -- SEC_SERIAL (R478, Table 13.16)
   ⟨0x60008, 0x8, 1,
    [⟨63, 0, .ro, 0x0, []⟩]⟩,
   -- MBX_STATUS (R511, Table 14.16)
   ⟨0x50000, 0x8, 1,
    [⟨63, 60, .ro, 0x0, []⟩,
     ⟨59, 59, .ro, 0x0, []⟩,
     ⟨58, 58, .ro, 0x0, []⟩,
     ⟨57, 49, .ro, 0x0, []⟩,
     ⟨48, 47, .ro, 0x0, []⟩,
     ⟨46, 43, .ro, 0x0, []⟩]⟩]

/-- Registers of the dies FD0 and FD1, part 1. -/
def regsFd01Part1 : List RegSpec :=
  [
   -- MBX_SHED (R511, Table 14.17)
   ⟨0x50008, 0x8, 1,
    [⟨63, 63, .ro, 0x0, []⟩,
     ⟨62, 62, .ro, 0x0, []⟩,
     ⟨61, 61, .ro, 0x0, []⟩,
     ⟨60, 60, .ro, 0x0, []⟩,
     ⟨59, 59, .ro, 0x0, []⟩,
     ⟨31, 0, .ro, 0x0, []⟩]⟩,
   -- MBX_EFT_DOWN (R511, Table 14.18)
   ⟨0x50010, 0x8, 1,
    [⟨47, 0, .ro, 0x0, []⟩]⟩,
   -- PWR_IN (R560, Table 15.8)
   ⟨0x130000, 0x8, 1,
    [⟨63, 48, .ro, 0x0, []⟩,
     ⟨47, 32, .ro, 0x0, []⟩,
     ⟨31, 16, .ro, 0x0, []⟩,
     ⟨15, 0, .rc, 0x0, []⟩]⟩,
   -- PWR_CAP (R560, Table 15.9)
   ⟨0x130008, 0x8, 1,
    [⟨15, 0, .rw, 0x36b0, []⟩]⟩,
   -- PWR_EMERG (R560, Table 15.10)
   ⟨0x130010, 0x8, 1,
    [⟨63, 62, .ro, 0x0, []⟩,
     ⟨61, 61, .ro, 0x0, []⟩,
     ⟨60, 60, .ro, 0x0, []⟩,
     ⟨59, 59, .ro, 0x0, []⟩,
     ⟨58, 58, .ro, 0x0, []⟩]⟩,
   -- PWR_HWLIM (R560, Table 15.11)
   ⟨0x130018, 0x8, 1,
    [⟨63, 63, .w1c, 0x0, []⟩,
     ⟨62, 62, .w1c, 0x0, []⟩,
     ⟨61, 61, .w1c, 0x0, []⟩,
     ⟨60, 60, .ro, 0x0, []⟩,
     ⟨47, 0, .ro, 0x0, []⟩]⟩,
   -- PWR_TOL (R560, Table 15.12)
   ⟨0x130020, 0x8, 1,
    [⟨63, 32, .ro, 0x2, []⟩,
     ⟨31, 31, .ro, 0x0, []⟩,
     ⟨5, 3, .ro, 0x0, []⟩,
     ⟨2, 0, .ro, 0x1, []⟩]⟩,
   -- THM_DIEOFF (R561, Table 15.15)
   ⟨0x140010, 0x8, 1,
    [⟨51, 48, .ro, 0x0, []⟩,
     ⟨47, 0, .ro, 0x0, []⟩]⟩,
   -- EVT_CFG (R600, Table 16.25)
   ⟨0x150000, 0x8, 1,
    [⟨15, 0, .rw, 0x40, [(0, 0)]⟩]⟩,
   -- EVT_LOG (R600, Table 16.26)
   ⟨0x150008, 0x8, 1,
    [⟨63, 63, .ro, 0x0, []⟩,
     ⟨47, 0, .ro, 0x0, []⟩]⟩,
   -- CCL_CNT (R451, Table 12.16)
   ⟨0x30300, 0x8, 7,
    [⟨63, 0, .ro, 0x0, []⟩]⟩,
   -- BOOT_MDIGESTn (R478, Table 13.12)
   ⟨0x70040, 0x8, 8,
    [⟨63, 0, .ro, 0x0, []⟩]⟩]

/-- Registers of the dies FD0 and FD1, part 2. -/
def regsFd01Part2 : List RegSpec :=
  [
   -- MBX_CNT (R512, Table 14.19)
   ⟨0x50100, 0x8, 12,
    [⟨63, 0, .ro, 0x0, []⟩]⟩,
   -- PWR_CNT (module) (R562, Table 15.16)
   ⟨0x130400, 0x8, 4,
    [⟨63, 0, .ro, 0x0, []⟩]⟩,
   -- EVT_CNT (engines) (R601, Table 16.27)
   ⟨0x150110, 0x8, 3,
    [⟨63, 0, .ro, 0x0, []⟩]⟩]

/-- All registers of the dies FD0 and FD1. -/
def regsFd01 : List RegSpec := regsFd01Part0 ++ regsFd01Part1 ++ regsFd01Part2

/-- The kinds of die that a register can be present on. -/
inductive DieKind where
  | compute | fd0 | fd1 | fd23
  deriving DecidableEq, Repr

/-- The kind of a die number, `none` for the reserved ones (R184). -/
def dieKind (die : Nat) : Option DieKind :=
  if die < 48 then some .compute
  else if die = 48 then some .fd0
  else if die = 49 then some .fd1
  else if die < 52 then some .fd23
  else none

/-- The register of a list at an offset. -/
def findReg : List RegSpec → Nat → Option RegSpec
  | [], _ => none
  | r :: rest, o =>
    if r.off ≤ o ∧ (o - r.off) % r.stride = 0 ∧ (o - r.off) / r.stride < r.count then some r
    else findReg rest o

/-- The register at a region-4 offset of a die; per-tile blocks repeat every 0x1_0000 (R189). -/
def regAt (kind : DieKind) (o : Nat) : Option RegSpec :=
  match kind with
  | .compute =>
    if o < 0xC0000 then findReg regsTile (o % 0x10000) else findReg (regsCd ++ regsAll) o
  | .fd0 => findReg (regsFd ++ regsFd01 ++ regsFd0 ++ regsAll) o
  | .fd1 => findReg (regsFd ++ regsFd01 ++ regsAll) o
  | .fd23 => findReg (regsFd ++ regsAll) o

/-- Whether an offset lies inside a block present on a die (Table 6.4, R190). -/
def blockPresent (kind : DieKind) (o : Nat) : Bool :=
  let shared (o : Nat) : Bool := decide ((0x110000 ≤ o ∧ o < 0x120000) ∨
    (0x130000 ≤ o ∧ o < 0x160000))
  match kind with
  | .compute => decide ((o < 0xC0000 ∧ o % 0x10000 < 0x6000) ∨ (0x100000 ≤ o ∧ o < 0x130000)) ||
      shared o
  | .fd0 => decide (o < 0x80000) || shared o
  | .fd1 => decide (o < 0x80000) || shared o
  | .fd23 => decide (o < 0x30000) || shared o

/-- Bits [hi:lo] of a word. -/
def bits (w : BitVec 64) (hi lo : Nat) : Nat := (w.toNat >>> lo) % 2 ^ (hi + 1 - lo)

/-- The word with bits [hi:lo] set to v, cut to the field's width. -/
def putBits (w : BitVec 64) (hi lo v : Nat) : BitVec 64 :=
  let n := 2 ^ (hi + 1 - lo)
  BitVec.ofNat 64 (w.toNat % 2 ^ lo + (v % n) * 2 ^ lo + (w.toNat >>> (hi + 1)) * 2 ^ (hi + 1))

/-- The reset value that a register's fields give. -/
def fieldsReset : List RegField → BitVec 64
  | [] => 0
  | f :: rest => putBits (fieldsReset rest) f.hi f.lo f.reset

/-- Whether a value is a reserved encoding of a field. -/
def reservedIn : List (Nat × Nat) → Nat → Bool
  | [], _ => false
  | (a, b) :: rest, v => decide (a ≤ v ∧ v ≤ b) || reservedIn rest v

/-- A software write (R6 to R8): RW fields take the value unless it is a reserved encoding, W1C
fields clear the bits written as 1, and the others keep theirs. -/
def fieldsWrite : List RegField → BitVec 64 → BitVec 64 → BitVec 64
  | [], old, _ => old
  | f :: rest, old, v =>
    let old' := fieldsWrite rest old v
    match f.acc with
    | .rw => if reservedIn f.bad (bits v f.hi f.lo) then old'
             else putBits old' f.hi f.lo (bits v f.hi f.lo)
    | .w1c => putBits old' f.hi f.lo (bits old f.hi f.lo &&& (2 ^ (f.hi + 1 - f.lo) - 1 -
        bits v f.hi f.lo))
    | _ => old'

/-- What a software read returns: WO fields and bits of no field read as zero (R6, R7). -/
def fieldsRead : List RegField → BitVec 64 → BitVec 64
  | [], _ => 0
  | f :: rest, w =>
    match f.acc with
    | .wo => fieldsRead rest w
    | _ => putBits (fieldsRead rest w) f.hi f.lo (bits w f.hi f.lo)

/-- What a read leaves: RC fields return to their reset value (R6). -/
def fieldsReadClear : List RegField → BitVec 64 → BitVec 64
  | [], w => w
  | f :: rest, w =>
    match f.acc with
    | .rc => putBits (fieldsReadClear rest w) f.hi f.lo f.reset
    | _ => fieldsReadClear rest w

/-- Reset value of the register at a global address of region 4; bits of no register read 0. -/
def regReset (ga : Nat) : BitVec 64 :=
  match dieKind (ga / 2 ^ 34) with
  | none => 0
  | some k =>
    match regAt k (ga % 2 ^ 30) with
    | none => 0
    | some r => fieldsReset r.fields

end Sys2Proof.Machine
end

