-- ==== Sys2Proof/Machine/SMap.lean ====
section
/-!
DEFINITION. Sparse maps as plain data: a list of keys and values with keys strictly rising and
no entry equal to the default, so that equal maps are equal lists.
-/

namespace Sys2Proof.Machine

/-- A sparse map from numbers; what an unlisted key reads as is given at each use. -/
abbrev SMap (α : Type) := List (Nat × α)

/-- The value at key k, or d where none is listed. -/
def mapGet {α : Type} (d : α) : SMap α → Nat → α
  | [], _ => d
  | (j, v) :: rest, k => if j = k then v else mapGet d rest k

/-- The map without key k. -/
def mapErase {α : Type} : SMap α → Nat → SMap α
  | [], _ => []
  | (j, w) :: rest, k => if j = k then mapErase rest k else (j, w) :: mapErase rest k

/-- The map with v at key k, in its place in the order. -/
def mapPut {α : Type} : SMap α → Nat → α → SMap α
  | [], k, v => [(k, v)]
  | (j, w) :: rest, k, v =>
    if k < j then (k, v) :: (j, w) :: rest
    else if k = j then (k, v) :: rest
    else (j, w) :: mapPut rest k v

/-- The map with v at key k; writing the default removes the entry. -/
def mapSet {α : Type} [DecidableEq α] (d : α) (m : SMap α) (k : Nat) (v : α) : SMap α :=
  if v = d then mapErase m k else mapPut m k v

/-- Every key of a list is at least b, keys rise strictly and no value is the default. -/
def mapWfFrom {α : Type} [DecidableEq α] (d : α) : Nat → SMap α → Bool
  | _, [] => true
  | b, (j, v) :: rest => decide (b ≤ j) && decide (v ≠ d) && mapWfFrom d (j + 1) rest

/-- The canonical form. -/
def mapWf {α : Type} [DecidableEq α] (d : α) (m : SMap α) : Bool := mapWfFrom d 0 m

/-- Set of numbers: a map to Bool with default false. -/
abbrev NSet := SMap Bool

/-- Membership. -/
def setHas (m : NSet) (k : Nat) : Bool := mapGet false m k

/-- The set with k in it, or without it. -/
def setPut (m : NSet) (k : Nat) (b : Bool) : NSet := mapSet false m k b

end Sys2Proof.Machine
end

