-- ==== Sys2Proof/Machine/StateDie.lean ====
section
/-!
DEFINITION. The state of one compute die beyond its tiles and registers: home cache (chapter 7),
companion directory and snoops (R435 to R439), heals (R221), patrol scrub (R213).
-/

namespace Sys2Proof.Machine

/-- Priority of a home-cache line (R227). -/
inductive Prio where
  | normal | keep | pinned
  deriving DecidableEq, Repr

/-- State of a present line (R227); a reduction entry keeps its format, its first contributor
with its layer, and its partial sum (R238, R240, R243). -/
inductive LineSt where
  | clean
  | dirty
  | red (fmt : Nat) (ctx : CtxId) (layer : Nat) (sum : BitVec 1024)
  deriving DecidableEq, Repr

/-- A line of a set; `line` is REGION and OFFSET[29:7] of its GA. A set's lines are held most
recent first. -/
structure HcLine where
  way  : Nat
  line : Nat
  st   : LineSt
  prio : Prio
  deriving DecidableEq, Repr

/-- Who requests a line of a home cache (R232): a tile, a fabric die, a controller, the companion
or another module. -/
inductive Agent where
  | tile (t : TileId)
  | fabric (fd : FdId)
  | controller
  | companion
  | remote
  deriving DecidableEq, Repr

/-- A stream entry (R232): agent, region, last line, direction, count, FTC of the last match. -/
structure StreamEnt where
  agent : Agent
  region : Nat
  last  : Nat
  up    : Option Bool
  count : Nat
  ftc   : Nat
  deriving DecidableEq, Repr

/-- A fill in progress (R233): the line, the priority its requests call for (`none`: no
allocation), and how many requests it serves. -/
structure Fill where
  line   : Nat
  prio   : Option Prio
  joined : Nat
  deriving DecidableEq, Repr

/-- A directory entry (R435): the companion holds the line shared, or owned through a port. -/
structure DirEnt where
  line  : Nat
  owned : Bool
  port  : Fin 2
  deriving DecidableEq, Repr

/-- A snoop that awaits its answer (R436): line, port, invalidate or share, whether a crossing
write-back or drop was taken (R438), tag and its generation. -/
structure Snoop where
  line    : Nat
  port    : Fin 2
  inv     : Bool
  crossed : Bool
  tag     : Nat
  deriving DecidableEq, Repr

/-- An error in storage that nothing has found yet: the word's GA, whether it can be corrected,
and whether it lies in the cached copy. -/
structure StoredErr where
  ga      : Nat
  correct : Bool
  cached  : Bool
  deriving DecidableEq, Repr

/-- A compute die. `dead` is the dead-line table, oldest first; `grants` the directory, oldest
grant first. -/
structure DieSt where
  sets    : SMap (List HcLine)
  streams : List StreamEnt
  fills   : List Fill
  dead    : List Nat
  dir     : List DirEnt
  snoops  : List Snoop
  heals   : List Nat
  errs    : List StoredErr
  ceSec   : Option Nat
  flushing : Bool
  pinLoad : Bool
  tripped : Bool
  deriving DecidableEq, Repr

/-- A compute die at reset. -/
def DieSt.reset : DieSt :=
  ⟨[], [], [], [], [], [], [], [], none, false, false, false⟩

end Sys2Proof.Machine
end

