-- ==== Sys2Proof/Machine/StateEvt.lean ====
section
/-!
DEFINITION. Event reporting (chapter 16): records, the log, per-source counts, collectors,
companion rings and field-test packages.
-/

namespace Sys2Proof.Machine

/-- Event classes (Table 16.1). -/
inductive EvClass where
  | corrected | deferred | contained | fatal
  deriving DecidableEq, Repr

/-- CLASS encoding. -/
def EvClass.code : EvClass → Nat
  | .corrected => 1
  | .deferred => 2
  | .contained => 3
  | .fatal => 4

/-- An event record (Table 16.2); DETAIL holds bytes 40 to 59. -/
structure EvtRec where
  ftc      : BitVec 64
  source   : BitVec 32
  seq      : BitVec 32
  cls      : EvClass
  loss     : Bool
  summary  : Bool
  code     : BitVec 16
  ctx      : BitVec 8
  state    : BitVec 8
  tile     : BitVec 16
  location : BitVec 64
  step     : BitVec 32
  layer    : BitVec 32
  detail   : BitVec 160
  tag      : BitVec 32
  deriving DecidableEq, Repr

/-- CORRECTED records of a source in the present second (R568): second, records delivered,
records held back and the code of the first one held. -/
structure RateSt where
  second : Nat
  sent   : Nat
  held   : Nat
  first  : BitVec 16
  deriving DecidableEq, Repr

/-- A collector (R571): subscribed classes, address, port, DSEQ of the next datagram, LOGSEQ of
the next record to send. -/
structure Collector where
  classes : BitVec 8
  addr    : BitVec 128
  port    : BitVec 16
  dseq    : BitVec 32
  next    : Nat
  deriving DecidableEq, Repr

/-- A companion event ring (R572): slots 2^k, base, head word address, vector, records written,
head last read, records held inside, records dropped, records not yet announced and the FTC of the oldest. -/
structure EvtRing where
  ctx     : Nat
  classes : BitVec 8
  k       : Nat
  vector  : BitVec 11
  base    : BitVec 52
  headAt  : BitVec 52
  tail    : Nat
  head    : Nat
  queue   : List EvtRec
  dropped : Nat
  unann   : Nat
  oldest  : Nat
  deriving DecidableEq, Repr

/-- A field-test package slot (R589): reserved length, bytes stored, whether accepted. -/
structure TestPkg where
  total    : Nat
  data     : SMap Byte
  accepted : Bool
  deriving DecidableEq, Repr

/-- The event system. `log` holds the newest 131,072 records, newest first; `logged` counts all
records logged, so that the newest has LOGSEQ `logged` − 1; `served` says that a collector has been subscribed
through MBXM (R571). -/
structure EvtSt where
  seqs     : SMap (BitVec 32)
  rates    : SMap RateSt
  log      : List EvtRec
  logged   : Nat
  colls    : SMap (Option Collector)
  defColl  : Option Collector
  served   : Bool
  rings    : SMap (Option EvtRing)
  lost     : List (Fin 2)
  pkgs     : SMap (Option TestPkg)
  deriving DecidableEq, Repr

/-- The event system at reset. -/
def EvtSt.reset : EvtSt := ⟨[], [], [], 0, [], none, false, [], [], []⟩

end Sys2Proof.Machine
end

