-- ==== Sys2Proof/Machine/StateJob.lean ====
section
/-!
DEFINITION. The state of the two domain slots (R313): the job, its repeat units and their outcomes
(R329 to R332), holds (R334 to R340), and the capability basis.
-/

namespace Sys2Proof.Machine

/-- A repeat unit of the table (Table 14.30, KIND 0x0009). -/
structure RepUnit where
  id    : Nat
  mctx  : Fin 64
  bar   : Nat
  start : Nat
  tiles : BitVec 576
  deriving DecidableEq, Repr

/-- Widening in force for a layer for the rest of the step (R54, R55): how often the window rose by
16, and whether outputs are widened for ROVF and for EOVF. -/
structure LayerWiden where
  layer : Nat
  a     : Nat
  r     : Bool
  e     : Bool
  deriving DecidableEq, Repr

/-- Outcomes of a collection (Table 9.5). -/
inductive Outcome where
  | commit
  | repeated
  | openHold (cause : Nat)
  deriving DecidableEq, Repr

/-- A decision that takes effect at the unit's commit point (R330, R331): unit, outcome, flags, FTC
of K. -/
structure Decision where
  unit    : Nat
  outcome : Outcome
  flags   : UnitFlags
  k       : Nat
  deriving DecidableEq, Repr

/-- One cause of a hold (R334, R336), by its row of Table 9.6: its B, an FTC, or for a step boundary a
schedule time; its length in frames, 0 when open-ended; the FTC from which it lets the hold end,
`none` while an open-ended one's end condition has not been met or B has not come (R583). -/
structure HoldReq where
  bit    : Nat
  atStep : Bool
  b      : Nat
  frames : Nat
  ends   : Option Nat
  deriving DecidableEq, Repr

/-- The hold of a domain beyond FAB_HOLD_STATUS (R334 to R337): whether it has begun, its B, and its
causes. With causes and not begun, it is pending. -/
structure HoldSt where
  active : Bool
  b      : Nat
  reqs   : List HoldReq
  deriving DecidableEq, Repr

/-- No hold. -/
def HoldSt.none : HoldSt := ⟨false, 0, []⟩

/-- A tile's part of the capability basis (Table 14.30, KIND 0x0002). -/
structure PlanEnt where
  clock  : Nat
  width  : Nat
  extent : Nat
  deriving DecidableEq, Repr

/-- How a domain comes to run dynamically: a fallback to the end of its step (R339), or the repeat of
units (R332, R584). -/
inductive DynCause where
  | none
  | fallback
  | repeated (units : List Nat)
  deriving DecidableEq, Repr

/-- How a step of a tile's stream began (R325): STEP, the PC of its first word, STEP_BASE. -/
structure StepAt where
  step : BitVec 32
  pc   : BitVec 48
  base : Nat
  deriving DecidableEq, Repr

/-- A part of a job directory (Tables 14.29 and 14.30): KIND, TARGET, DEST, AUX and its bytes. -/
structure JobPart where
  kind   : Nat
  target : Nat
  dest   : Nat
  aux    : Nat
  bytes  : List Byte
  deriving DecidableEq, Repr

/-- A step of a directory's copies (R580, R586): bytes from this module or a peer to a place here, or the
comparison of a peer's STEP of a layer with the local one. -/
inductive CopyStep where
  | move (peer : Option Nat) (src dest len : Nat)
  | check (peer fd layer : Nat)
  deriving DecidableEq, Repr

/-- A job directory that has been accepted (R518 to R520): the payload's fields, SHA-512 of the directory, flags,
the parts, the copies still to make, where the copies of checkpoints go as (GA, bytes), and the bytes that copies
have replaced, the latest first (R501). -/
structure JobPlan where
  ctx     : CtxId
  domId   : Nat
  key     : BitVec 16
  seed    : BitVec 128
  dkey    : BitVec 128
  digest  : BitVec 512
  reload  : Bool
  restart : Bool
  parts   : List JobPart
  todo    : List CopyStep
  dests   : List (Nat × Nat)
  undo    : List (Nat × List Byte)
  deriving DecidableEq, Repr

/-- A domain slot: whether it is loaded and started; the job's key, seed and context; FTC of its start
and STEP0; each tile's first word, and how its latest steps began, the newest first; repeat units; steps whose units have
all committed, units committed in the present step, the decision awaited,
repeats made, widenings in force, layers with SPECIAL; the hold; dynamic mode and the FTC at which
static mode resumes; the capability basis; hot fences that wait (grain and identifiers); replica
settings that wait (R522); the schedule time at which a domain that drains ends; whether a slice hold is due,
an evaluation window is open; pin registers and PIN_WAYS that the job set (R237). -/
structure DomSt where
  loaded    : Bool
  started   : Bool
  key       : BitVec 16
  seed      : BitVec 128
  ctx       : CtxId
  start     : Nat
  step0     : BitVec 32
  firsts    : SMap (Option Word)
  stepWord  : SMap (List StepAt)
  units     : List RepUnit
  stepNo    : Nat
  done      : List Nat
  decided   : Option Decision
  repeats   : Nat
  widens    : List LayerWiden
  specials  : List Nat
  hold      : HoldSt
  dyn       : DynCause
  static    : Option Nat
  plan      : SMap PlanEnt
  fences    : List (Nat × Nat × Nat × Nat)
  replica   : Option (List Byte)
  draining  : Option Nat
  slices    : Bool
  window    : Bool
  pins      : List (Nat × Nat)
  pinWays   : SMap Nat
  deriving DecidableEq, Repr

/-- An empty slot. -/
def DomSt.reset : DomSt :=
  ⟨false, false, 0, 0, 0, 0, 0, [], [], [], 0, [], none, 0, [], [], .none, .none, none, [], [], none,
    none, false, false, [], []⟩

end Sys2Proof.Machine
end

