-- ==== Sys2Proof/Machine/StateFw.lean ====
section
/-!
DEFINITION. The state of flash, boot, firmware and the mailbox sessions (chapters 13 and 14).
-/

namespace Sys2Proof.Machine

/-- The bank selector record (Table 13.2), without its CRC: a copy whose CRC fails is absent. -/
structure Selector where
  seq    : Nat
  active : Nat
  trial  : Bool
  tries  : Nat
  deriving DecidableEq, Repr

/-- A fence of the fence list (R577): grain, identifiers, convicting package. -/
structure FenceRec where
  grain : Nat
  a     : Nat
  b     : Nat
  c     : Nat
  pkg   : BitVec 64
  deriving DecidableEq, Repr

/-- A calibration slot that verifies (R467, R577): write sequence, recorded fmax of the tiles whose value
is below FMAX_SHIP, field repairs, the fence list. -/
structure CalRec where
  seq     : Nat
  fmax    : SMap Nat
  repairs : List (BitVec 64)
  fences  : List FenceRec
  deriving DecidableEq, Repr

/-- A flash device (Table 13.1): the two copies of the selector, the three copies of the minimum version,
the two calibration slots, the two banks (key bank × 120 MiB + offset), and which banks have been erased since the
module shipped: an erased byte reads 0xFF. -/
structure FlashDev where
  sel    : List (Option Selector)
  minver : List (Option Nat)
  cal    : List (Option CalRec)
  banks  : SMap Byte
  erased : NSet
  deriving DecidableEq, Repr

/-- A device as shipped (DESIGN CHOICE, log entry 3): no selector written, so that bank A is in force (R456); minimum
version 1 (R460); one calibration slot with every tile at FMAX_SHIP. -/
def FlashDev.shipped : FlashDev :=
  ⟨[none, none], [some 1, some 1, some 1], [some ⟨1, [], [], []⟩, none], [], []⟩

/-- An enrolled owner key (Table 13.9). -/
structure Owner where
  slot  : Nat
  perms : Nat
  pub   : List Byte
  deriving DecidableEq, Repr

/-- A manifest that has been accepted, with what its signed records say (R457, R465, R466, R468): its
source, security version, RAISE_MIN, digest, capability certificate, owners, the digest of its
update-core library and its length. -/
structure Images where
  dev       : Nat
  bank      : Nat
  secVer    : Nat
  raiseMin  : Bool
  digest    : BitVec 512
  pcapMax   : Nat
  contexts  : Nat
  ports     : Nat
  ccl       : Nat
  domainMax : Nat
  fmax      : List Nat
  owners    : List Owner
  repairs   : List (BitVec 64)
  library   : BitVec 512
  deriving DecidableEq, Repr

/-- A mailbox session (R487, R496). -/
structure Session where
  live  : Bool
  major : Nat
  gen   : Nat
  seq   : Nat
  deriving DecidableEq, Repr

/-- No session yet. -/
def Session.reset : Session := ⟨false, 0, 0, 0⟩

/-- A job that a domain slot holds, beyond the slot: SHA-512 of its directory, the library it runs with,
its layer descriptors as (fabric die, index), and its last STEP_LEN-independent parameters (micro-batch
length buckets, continuation segments). -/
structure JobInfo where
  digest  : BitVec 512
  library : BitVec 512
  layers  : List (Nat × Nat)
  params  : Nat × Nat
  deriving DecidableEq, Repr

/-- No job. -/
def JobInfo.reset : JobInfo := ⟨0, 0, [], (0, 0)⟩

/-- A stage session (R506): the mailbox that opened it and the bank it writes. -/
structure Stage where
  mb   : Fin 9
  bank : Nat
  deriving DecidableEq, Repr

/-- A prepared shed (R507, R508): the images, AUTO, whether it has been deferred, the command that awaits
its completion, and the FTC since which the level has stayed below E2. -/
structure Shed where
  images : Images
  auto   : Bool
  late   : Bool
  cmd    : Option MbxCmd
  since  : Option Nat
  deriving DecidableEq, Repr

/-- What a mailbox command that has taken effect waits for before it completes: a hold to begin, a domain
to end, a hot fence's hold, the copies of a re-load, the comparison of backing copies, a shed's switch. -/
inductive Later where
  | held (d : Fin 2)
  | ended (d : Fin 2)
  | fenced (d : Fin 2)
  | copies (d : Fin 2)
  | backing (ctx : CtxId) (va : Nat)
  | shed
  deriving DecidableEq, Repr

/-- Firmware: flash; the images in force; whether the deputy is armed; sessions (8 is MBXM); MBXM's
session value, last counter, last command and its response; grants (context, base GA, bytes); latency
tolerances (µs, loss permitted) of contexts; the context that last mapped each 64 KiB of device memory
and that last held each tile, plus one; jobs; stage session; shed; commands that complete later;
controllers lost and not back, and the FTCs of each one's losses (die controllers by die, fabric
controllers from 48); active
replicas; the last agreed step; the comparison interval that waits for a step boundary (DIGEST_POLICY); tiles that
the next job load fences (R558); directories whose copies are under way, by domain slot (R580). -/
structure FwSt where
  flash    : SMap FlashDev
  images   : Option Images
  sessions : SMap Session
  mValue   : BitVec 64
  mCounter : BitVec 64
  mLast    : Option (MbxCmd × List Byte)
  grants   : List (CtxId × Nat × Nat)
  tols     : SMap (Option (Nat × Bool))
  pageOf   : SMap Nat
  tileOf   : SMap Nat
  jobs     : SMap JobInfo
  stage    : Option Stage
  shed     : Option Shed
  later    : List (MbxCmd × Later)
  lost     : List Ctl
  losses   : SMap (List Nat)
  nrepl    : Nat
  agreed   : Option (BitVec 32)
  policy   : Option Nat
  weak     : NSet
  plans    : SMap (Option JobPlan)
  deriving DecidableEq, Repr

/-- Firmware before the first boot. -/
def FwSt.reset : FwSt :=
  ⟨[], none, [], 0, 0, none, [], [], [], [], [], none, none, [], [], [], 1, none, none, [], []⟩

end Sys2Proof.Machine
end

