-- ==== Sys2Proof/Machine/StateMod.lean ====
section
/-!
DEFINITION. The state of the module as a whole: contexts and page mappings (chapter 6), fences
(R576, R577), and what later chapters add.
-/

namespace Sys2Proof.Machine

/-- A context (Table 6.7, R195): deterministic or not, and the event key of R476. -/
structure CtxSt where
  det : Bool
  key : BitVec 256
  deriving DecidableEq, Repr

/-- A mapped page of a context (Table 6.8): page base VA, 2 MiB or 64 KiB, page GA, attributes. -/
structure Mapping where
  ctx    : CtxId
  va     : Nat
  big    : Bool
  ga     : Nat
  r      : Bool
  w      : Bool
  x      : Bool
  sro    : Bool
  pf     : Bool
  dar    : Bool
  backed : Bool
  nce    : Bool
  deriving DecidableEq, Repr

/-- Where the backing copy of a page lies (R220): companion memory, or a GA range on a module. -/
inductive Backing where
  | companion (addr : BitVec 52)
  | peer (module : BitVec 12) (ga : BitVec 40)
  deriving DecidableEq, Repr

/-- The translation structures (R195 to R199). `ctxs` holds the contexts with V = 1; `backings`
the backing copy of each backed page, by the page's GA; `told` the poisoned pages (GA) that a context
has had its event of (R224). -/
structure XlSt where
  ctxs     : SMap (Option CtxSt)
  maps     : List Mapping
  backings : SMap (Option Backing)
  told     : List (CtxId × Nat)
  deriving DecidableEq, Repr

/-- A fence in force (R576, R577): grain, identifiers in the order of Table 16.8, convicting
package, and whether it lasts only while the job runs (R96). -/
structure FenceEnt where
  grain : Nat
  a     : Nat
  b     : Nat
  c     : Nat
  pkg   : BitVec 64
  job   : Bool
  deriving DecidableEq, Repr

/-- A message or a change that leaves the module (DESIGN CHOICE, log entry 5). A management port answers a frame from its
MAC address (R619); an in-band interrupt carries STATE (R623); a scan shifts cells out on TDO (R624). -/
inductive OutMsg where
  | cclWrite (p : Fin 2) (addr : BitVec 52) (data : List Byte)
  | cclStore (p : Fin 2) (addr : BitVec 52) (data : List Byte) (poison : Bool) (tag : Nat)
  | cclRead (p : Fin 2) (addr : BitVec 52) (len : Nat) (tag : Nat)
  | cclSnoop (p : Fin 2) (inv : Bool) (addr : BitVec 52) (tag : Nat)
  | cclAtomic (p : Fin 2) (addr : BitVec 52) (n : BitVec 64)
  | cclResponse (p : Fin 2) (data : Bool) (h : CclHdr) (bytes : List Byte)
  | cclInterrupt (p : Fin 2) (source : BitVec 4) (index : BitVec 10) (vector : BitVec 11)
  | control (l : LinkId) (kind : Nat) (lgen : BitVec 8) (m : BitVec 112)
  | flit (l : LinkId) (h : FlitHdr) (payload : BitVec 1952)
  | packet (p : PortId) (h : PktHdr) (data : List Byte)
  | notice (p : PortId) (n : Notice)
  | barReport (p : PortId) (c : Fin 64) (gen : BitVec 8) (deadline : Option (BitVec 64)) (flags : UnitFlags)
  | barRelease (p : PortId) (c : Fin 64) (gen : BitVec 8)
  | holdNotice (dom gen : BitVec 8) (b : BitVec 64) (frames : BitVec 32) (causes : BitVec 7)
  | holdRequest (dom : BitVec 8) (cause : HoldCause) (frames : BitVec 32) (atStep : Bool)
  | digest (replica slot : Nat) (lanes : BitVec 128)
  | datagram (p : Fin 2) (addr : BitVec 128) (port : BitVec 16) (bytes : List Byte)
  | answer (p : Fin 2) (mac : BitVec 48) (f : MgtFrame)
  | inBandInterrupt (state : Nat)
  | pwrOk (v : Bool)
  | scan (v : BitVec 64)
  | regValue (ga : BitVec 40) (v : BitVec 64)
  deriving DecidableEq, Repr

end Sys2Proof.Machine
end

