-- ==== Sys2Proof/Machine/StateLink.lean ====
section
/-!
DEFINITION. The state of the links (R350 to R361, R425 to R430), the routers (R362 to R367), the
requests sent to other modules and to the companion, and the reduction and multicast units (R371 to
R382).
-/

namespace Sys2Proof.Machine

/-- A flit to send: header, payload, and whether it is static. -/
structure Flit where
  hdr    : FlitHdr
  pay    : BitVec 1952
  fixed_ : Bool
  deriving DecidableEq, Repr

/-- A link beyond its registers: next SEQ expected, FTC of a NAK sent while it is awaited, flits
accepted since the last ACK; next SEQ to give, flits not acknowledged (oldest first), the SEQ last sent
again and how often, whether the partner's first ACK after a retrain is awaited (R356); flits that wait
to be sent; credits of the six VCs and of the static buffer; failed trainings; bad receive lanes;
lanes good after deskew, once ALIGN has ended it; the partner's declared lanes, once heard; whether a cable is seated; the
width that loaded jobs planned for. -/
structure LinkSt where
  expect  : Nat
  nakAt   : Option Nat
  since   : Nat
  next    : Nat
  retry   : List Flit
  againSq : Nat
  againN  : Nat
  resync  : Bool
  txq     : List Flit
  credits : List Nat
  fails   : Nat
  bad     : BitVec 64
  good    : Option (BitVec 64)
  partner : Option (BitVec 64)
  present : Bool
  planned : Nat
  deriving DecidableEq, Repr

/-- Credits at reset: the reservations of R361. -/
def creditsReset : List Nat := [32, 32, 32, 32, 32, 32, 256]

/-- A link at reset. -/
def LinkSt.reset : LinkSt :=
  ⟨0, none, 0, 0, [], 0, 0, false, [], creditsReset, 0, 0, none, none, false, 0⟩

/-- Who awaits the answer to a request that left the module: the heal of a line; a request of a tile's
transfer, by its number; a copy of a directory (R580) into a place, with the job whose load it belongs to; the comparison of a backing
copy from a place in it on (R220), with the pages from a VA that it is for; a fetch of a mailbox's slot, command or head word; or nobody. -/
inductive ReqWho where
  | heal (die line : Nat)
  | tmv (t : TileId) (tag gen : BitVec 8) (id : Nat)
  | copy (d : Fin 2)
  | backing (ctx : CtxId) (va count : Nat) (copy : Backing) (pos : Nat)
  | slot (mb : Fin 8) (index : Nat)
  | command (mb : Fin 8) (index : Nat) (rspAddr : BitVec 52) (rspLen : Nat)
  | head (mb : Fin 8)
  | posted
  deriving DecidableEq, Repr

/-- A request that awaits its answer, with the generation of its tag and the bytes it asks for. -/
structure OutReq where
  tag : Nat
  gen : Nat
  len : Nat
  who : ReqWho
  deriving DecidableEq, Repr

/-- An element group of a bucket at a reduction unit (R371): inputs that have contributed, exact sums,
elements that are special, and the flags POISON, EOVF, STEP_SKEW of the inputs. -/
structure BktGroup where
  got    : Nat
  sums   : List Int
  spec   : List Bool
  poison : Bool
  eovf   : Bool
  skew   : Bool
  sp     : Bool
  deriving DecidableEq, Repr

/-- A group that nothing has reached. -/
def BktGroup.reset : BktGroup := ⟨0, [], [], false, false, false, false⟩

/-- A bucket in progress: NCONTRIB by input, element groups, output flits completed, result flits taken
from the parent, and the flags its results carried (POISON, EOVF, SPECIAL), whether output has been
skewed, and whether the local input has been read. -/
structure BktSt where
  hdrs   : List (Nat × Nat)
  groups : SMap BktGroup
  outs   : Nat
  down   : NSet
  poison : Bool
  eovf   : Bool
  sp     : Bool
  deriving DecidableEq, Repr

/-- A bucket at rest. -/
def BktSt.reset : BktSt := ⟨[], [], 0, [], false, false, false⟩

/-- The fabric: links, stream tables (key fabric die × 16384 + stream), flits accepted for this module by
port, the way that the packet now passing an input took (key port × 8 + VC), requests sent and the
generation and next of their tags, buckets (key fabric die × 256 + b) with the domain slot they belong
to, multicasts performed and not yet signalled (key fabric die × 64 + m), and notices on their way to a
cluster. -/
structure FabSt where
  links   : SMap LinkSt
  streams : SMap Nat
  rx      : List (Nat × Flit)
  way     : SMap Nat
  reqs    : List OutReq
  tagGens : SMap Nat
  nextTag : Nat
  creqs   : List OutReq
  ctagGen : SMap Nat
  cnext   : Nat
  bkts    : SMap BktSt
  bktDom  : SMap Nat
  mcDone  : SMap Nat
  notices : List (FdId × Notice)
  deriving DecidableEq, Repr

/-- The fabric at reset. -/
def FabSt.reset : FabSt := ⟨[], [], [], [], [], [], 0, [], [], 0, [], [], [], []⟩

end Sys2Proof.Machine
end

