-- ==== Sys2Proof/Machine/StateMbx.lean ====
section
/-!
DEFINITION. The state of the mailbox rings beyond their registers (R444 to R449).
-/

namespace Sys2Proof.Machine

/-- A completion not yet written, since the ring is full (R447): its bytes but for PHASE. -/
structure HeldDone where
  bytes : List Byte
  deriving DecidableEq, Repr

/-- A mailbox: its bound context; slots consumed and SQ_TAIL as recorded; completions written and
CQ_HEAD as recorded; completions not announced and the FTC of the oldest; whether a slot is being
fetched; commands fetched and not yet begun; completions that wait for room. -/
structure MboxSt where
  ctx     : Option CtxId
  sqHead  : Nat
  sqTail  : Nat
  cqTail  : Nat
  cqHead  : Nat
  unann   : Nat
  oldest  : Nat
  fetch   : Bool
  arrived : List (List Byte)
  held    : List HeldDone
  deriving DecidableEq, Repr

/-- A mailbox at reset. -/
def MboxSt.reset : MboxSt := ⟨none, 0, 0, 0, 0, 0, 0, false, [], []⟩

end Sys2Proof.Machine
end

