-- ==== Sys2Proof/Machine/StatePwr.lean ====
section
/-!
DEFINITION. The state of supply, power control and the service connector beyond their registers
(chapters 15 and 17).
-/

namespace Sys2Proof.Machine

/-- The hot-swap stage (R528): off, stopped after a failed charge, or on; after a supply shutdown it is down
until the input has returned. -/
inductive Supply where
  | off | stopped | on | down
  deriving DecidableEq, Repr

/-- Supply and power: the hot-swap stage; the sense contacts of BB0 and BB1; the level of MOD_RST_N, and while
it is high what the boot meets (DESIGN CHOICE, log entry 21); whether E1's condition holds; whether the dies are clamped because the system controller is lost; FTC at
which a flit was last forwarded; whether the module is in PS5, or every compute die in PS4. -/
structure PwrSt where
  stage   : Supply
  clips   : Bool × Bool
  rst     : Bool
  world   : Option BootWorld
  e1      : Bool
  vacant  : Bool
  fwdAt   : Nat
  ps      : Nat
  deriving DecidableEq, Repr

/-- Supply and power at reset (DESIGN CHOICE, log entry 4): no input, clips seated, MOD_RST_N low. -/
def PwrSt.reset : PwrSt := ⟨.off, (true, true), false, none, false, false, 0, 0⟩

/-- What DHCP has given a management port (R618). -/
structure DhcpSt where
  ip4 : Option (BitVec 32 × BitVec 8 × BitVec 32)
  ip6 : Option (BitVec 128 × BitVec 8)
  deriving DecidableEq, Repr

/-- The service connector (R615, R618 to R625): the latched MSTR_SEL; the dynamic address and whether
in-band interrupts are enabled; the management address records as written; what DHCP gave; whether the
links are up; the recovery (RECOV_STATUS bytes, image bytes, whether an image runs); the boundary cells,
and the instruction in force. -/
structure SvcSt where
  mstrSel : Bool
  dyn     : Option (BitVec 7)
  ibi     : Bool
  addrs   : SMap (List Byte)
  dhcp    : SMap DhcpSt
  links   : NSet
  recov   : Nat × Nat
  image   : SMap Byte
  rescue  : Bool
  cells   : BitVec 64
  tap     : Nat
  deriving DecidableEq, Repr

/-- The service connector at reset. -/
def SvcSt.reset : SvcSt := ⟨false, none, false, [], [], [], (0, 0), [], false, 0, 1⟩

end Sys2Proof.Machine
end

