-- ==== Sys2Proof/Machine/StateSync.lean ====
section
/-!
DEFINITION. The state of the synchronisation hardware beyond its registers and words (chapter 8):
queued waits, the phases of die barrier counters and module contexts, messages on their way.
-/

namespace Sys2Proof.Machine

/-- Who waits for a result: lanes of a group, with the register td, or a tile's sequencer (R268). -/
inductive Waiter where
  | lanes (t : TileId) (g : Nat) (ls : List Nat) (td : BitVec 8)
  | seq (t : TileId)
  deriving DecidableEq, Repr

/-- A wait on a sync word (R272, R274): the word's GA, GEN, N, deadline (`none`: none), waiter. -/
structure SyncWait where
  ga       : Nat
  gen      : Nat
  n        : Nat
  deadline : Option Nat
  who      : Waiter
  deriving DecidableEq, Repr

/-- A die's sync home: queued waits in arrival order, and waits that found no queue entry and are
repeated as SY.TRY (R274). -/
structure SyncHome where
  queue : List SyncWait
  retry : List SyncWait
  deriving DecidableEq, Repr

/-- A sync home at reset. -/
def SyncHome.reset : SyncHome := ⟨[], []⟩

/-- An arrival held at a counter because it lies beyond NEXT (R288). -/
structure HeldArrival where
  tile     : TileId
  deadline : Nat
  who      : Waiter
  flags    : Option UnitFlags
  deriving DecidableEq, Repr

/-- One barrier counter beyond BAR_STATE and BAR_DEADLINE (R282, R288, R634): whether a phase is
open and whether an untimed arrival has joined it, the deadlines of the open phase and of NEXT, tiles
found late so far with the deadline of each, whether it has reported upward, who waits with the status each will get, arrivals
held, and the flags that arrivals brought to the open phase and to NEXT (R329). -/
structure BarSt where
  isOpen   : Bool
  untimed  : Bool
  deadline : Nat
  nextD    : Nat
  found    : List (Nat × Nat)
  reported : Bool
  waiting  : List (Waiter × Nat)
  held     : List HeldArrival
  flags    : UnitFlags
  nextF    : UnitFlags
  deriving DecidableEq, Repr

/-- No flags. -/
def noFlags : UnitFlags := ⟨[], false, false, false⟩

/-- A barrier counter at reset. -/
def BarSt.reset : BarSt := ⟨false, false, 0, 0, [], false, [], [], noFlags, noFlags⟩

/-- A module barrier context beyond its registers (R291, R292): whether a phase is open, whether a
report without deadline makes it act untimed (R634), the deadline reported, the deadline of the last
check, whether it has reported upward, the flags collected. -/
structure MbcSt where
  isOpen   : Bool
  untimed  : Bool
  deadline : Nat
  lastD    : Nat
  reported : Bool
  flags    : UnitFlags
  deriving DecidableEq, Repr

/-- A module barrier context at reset. -/
def MbcSt.reset : MbcSt := ⟨false, false, 0, 0, false, noFlags⟩

/-- A message between a die and FD0 (R293): a report with its deadline and flags, or a release. -/
inductive BarMsg where
  | report (d : CdId) (c : Fin 64) (deadline : Option Nat) (flags : UnitFlags)
  | release (d : CdId) (c : Fin 64)
  deriving DecidableEq, Repr

/-- The synchronisation hardware: homes by die, counters by die × 32 + n, module contexts, and
messages on their way in order. -/
structure SyncSt where
  homes : SMap SyncHome
  bars  : SMap BarSt
  mbcs  : SMap MbcSt
  msgs  : List BarMsg
  deriving DecidableEq, Repr

/-- The synchronisation hardware at reset. -/
def SyncSt.reset : SyncSt := ⟨[], [], [], []⟩

end Sys2Proof.Machine
end

