-- ==== Sys2Proof/Machine/Numeric.lean ====
section
/-!
DEFINITION. The arithmetic of chapter 2: binary16 and binary32 (R25, R26), the LACC-64 window
(R27 to R33), slices (R35, R36), readout (R37 to R39), ESF sums (R41 to R44), residues (R46,
R47), the generator CBG-128 (R58 to R60), and the correctly rounded element functions.
-/

namespace Sys2Proof.Machine

/-- A floating-point format of Table 2.2: fraction bits and exponent bits. -/
structure FFmt where
  frac  : Nat
  ebits : Nat
  deriving DecidableEq, Repr

/-- binary16. -/
def fmt16 : FFmt := ⟨10, 5⟩

/-- binary32. -/
def fmt32 : FFmt := ⟨23, 8⟩

/-- Exponent bias (Table 2.2). -/
def FFmt.bias (f : FFmt) : Nat := 2 ^ (f.ebits - 1) - 1

/-- Exponent of the smallest normal binade: −14 or −126. -/
def FFmt.emin (f : FFmt) : Int := 1 - (f.bias : Int)

/-- Width in bits. -/
def FFmt.width (f : FFmt) : Nat := 1 + f.ebits + f.frac

/-- Bits of +∞. -/
def FFmt.infBits (f : FFmt) : Nat := (2 ^ f.ebits - 1) * 2 ^ f.frac

/-- Bits of the largest finite value. -/
def FFmt.maxBits (f : FFmt) : Nat := f.infBits - 1

/-- Bits of the canonical NaN (R26). -/
def FFmt.nanBits (f : FFmt) : Nat := f.infBits + 2 ^ (f.frac - 1)

/-- The sign bit, set or not. -/
def FFmt.signBit (f : FFmt) (neg : Bool) : Nat := if neg then 2 ^ (f.width - 1) else 0

/-- A decoded floating-point value: `fin neg m x` is ±m × 2^x and keeps the sign of a zero. -/
inductive FVal where
  | nan
  | inf (neg : Bool)
  | fin (neg : Bool) (m : Nat) (x : Int)
  deriving DecidableEq, Repr

/-- The value that bits stand for (R25). -/
def FFmt.decode (f : FFmt) (b : Nat) : FVal :=
  let neg := b.testBit (f.width - 1)
  let e := (b >>> f.frac) % 2 ^ f.ebits
  let m := b % 2 ^ f.frac
  if e = 2 ^ f.ebits - 1 then (if m = 0 then .inf neg else .nan)
  else if e = 0 then .fin neg m (f.emin - f.frac)
  else .fin neg (m + 2 ^ f.frac) ((e : Int) - f.bias - f.frac)

/-- Rounding of a conversion: to nearest even, or stochastic with the 16-bit value r (R39). -/
inductive Rounding where
  | rne
  | sr (r : Nat)
  deriving DecidableEq, Repr

/-- Magnitude m × 2^x in units of 2^q, rounded to nearest, ties to even. -/
def roundRne (m : Nat) (x q : Int) : Nat :=
  if q ≤ x then m * 2 ^ (x - q).toNat
  else
    let k := (q - x).toNat
    let t := m / 2 ^ k
    let r := m % 2 ^ k
    let half := 2 ^ (k - 1)
    if half < r ∨ (r = half ∧ t % 2 = 1) then t + 1 else t

/-- Magnitude m × 2^x in units of 2^q, cut towards zero. -/
def roundDown (m : Nat) (x q : Int) : Nat :=
  if q ≤ x then m * 2 ^ (x - q).toNat else m / 2 ^ (q - x).toNat

/-- Magnitude in units of 2^q under a rounding (R39). -/
def roundMag (rm : Rounding) (m : Nat) (x q : Int) : Nat :=
  match rm with
  | .rne => roundRne m x q
  | .sr r => (roundDown m x (q - 16) + r) / 2 ^ 16

/-- Weight of the target's least significant bit for a non-zero magnitude (R39). -/
def FFmt.lsbWeight (f : FFmt) (m : Nat) (x : Int) : Int :=
  max (x + (Nat.log2 m : Int)) f.emin - f.frac

/-- Bits of the magnitude n × 2^q, where q is that magnitude's weight before rounding; `none`
when it exceeds the largest finite value. -/
def FFmt.packMag (f : FFmt) (n : Nat) (q : Int) : Option Nat :=
  if n = 0 then some 0
  else
    let e := q + (Nat.log2 n : Int)
    if e < f.emin then some n
    else
      let be := (e + f.bias).toNat
      if 2 ^ f.ebits - 1 ≤ be then none
      else
        let sig := if Nat.log2 n ≤ f.frac then n * 2 ^ (f.frac - Nat.log2 n)
                   else n / 2 ^ (Nat.log2 n - f.frac)
        some (be * 2 ^ f.frac + (sig - 2 ^ f.frac))

/-- Rounded magnitude bits of m × 2^x, `none` when out of range. -/
def FFmt.roundBits (f : FFmt) (rm : Rounding) (m : Nat) (x : Int) : Option Nat :=
  if m = 0 then some 0
  else
    let q := f.lsbWeight m x
    f.packMag (roundMag rm m x q) q

/-- An element-wise result (R25, R26): out of range gives an infinity, as IEEE 754 states. -/
def FFmt.encode (f : FFmt) (v : FVal) : Nat :=
  match v with
  | .nan => f.nanBits
  | .inf neg => f.signBit neg + f.infBits
  | .fin neg m x => f.signBit neg + (f.roundBits .rne m x).getD f.infBits

/-- Readout of a finite value (R37 to R39): bits, and whether ROVF is raised. -/
def FFmt.readoutFin (f : FFmt) (rm : Rounding) (neg : Bool) (m : Nat) (x : Int) : Nat × Bool :=
  match f.roundBits rm m x with
  | some b => (f.signBit neg + b, false)
  | none => (f.signBit neg + f.maxBits, true)

/-- Readout of any value into a floating-point format: bits and ROVF. -/
def FFmt.readout (f : FFmt) (rm : Rounding) (v : FVal) : Nat × Bool :=
  match v with
  | .nan => (f.nanBits, false)
  | .inf neg => (f.signBit neg + f.infBits, false)
  | .fin neg m x => f.readoutFin rm neg m x

/-- Two's complement of a signed integer in w bits. -/
def toTwos (w : Nat) (v : Int) : Nat := (v % (2 ^ w : Int)).toNat

/-- The signed integer that w bits hold. -/
def ofTwos (w : Nat) (b : Nat) : Int :=
  if b.testBit (w - 1) then (b : Int) - 2 ^ w else b

/-- The special code of an ESF format of w bits (R42). -/
def esfSpecial (w : Nat) : Nat := 2 ^ (w - 1)

/-- Conversion of a finite value into ESF of w bits with anchor and headroom (Table 2.5): bits
and EOVF. -/
def esfFin (w : Nat) (anchor : Int) (headroom : Nat) (rm : Rounding) (neg : Bool) (m : Nat)
    (x : Int) : Nat × Bool :=
  let n := roundMag rm m x anchor
  let bound := 2 ^ (w - 1 - headroom) - 1
  let ovf := decide (bound < n)
  let n' := if ovf then bound else n
  (toTwos w (if neg then -(n' : Int) else n'), ovf)

/-- Conversion of any value into ESF: bits, EOVF, and whether the special code was written. -/
def esfReadout (w : Nat) (anchor : Int) (headroom : Nat) (rm : Rounding) (v : FVal) :
    Nat × Bool × Bool :=
  match v with
  | .fin neg m x => let r := esfFin w anchor headroom rm neg m x; (r.1, r.2, false)
  | _ => (esfSpecial w, false, true)

/-- The value an ESF element stands for (R41, R42). -/
def esfValue (w : Nat) (anchor : Int) (b : Nat) : FVal :=
  if b = esfSpecial w then .nan
  else let v := ofTwos w b; .fin (decide (v < 0)) v.natAbs anchor

/-- Exact sum of two finite values n₁ × 2^x₁ and n₂ × 2^x₂ with signed n, at the lower weight. -/
def dyAdd (n₁ : Int) (x₁ : Int) (n₂ : Int) (x₂ : Int) : Int × Int :=
  let x := min x₁ x₂
  (n₁ * 2 ^ (x₁ - x).toNat + n₂ * 2 ^ (x₂ - x).toNat, x)

/-- A signed magnitude as an integer. -/
def sgn (neg : Bool) (m : Nat) : Int := if neg then -(m : Int) else m

/-- Exact sum, with the sign of a zero as IEEE 754 gives it in round to nearest. -/
def FVal.add (a b : FVal) : FVal :=
  match a, b with
  | .nan, _ => .nan
  | _, .nan => .nan
  | .inf p, .inf q => if p = q then .inf p else .nan
  | .inf p, _ => .inf p
  | _, .inf q => .inf q
  | .fin p m x, .fin q n y =>
    let r := dyAdd (sgn p m) x (sgn q n) y
    if r.1 = 0 then .fin (p && q) 0 r.2 else .fin (decide (r.1 < 0)) r.1.natAbs r.2

/-- Negation. -/
def FVal.neg (a : FVal) : FVal :=
  match a with
  | .nan => .nan
  | .inf p => .inf (!p)
  | .fin p m x => .fin (!p) m x

/-- Absolute value. -/
def FVal.abs (a : FVal) : FVal :=
  match a with
  | .nan => .nan
  | .inf _ => .inf false
  | .fin _ m x => .fin false m x

/-- Exact product. -/
def FVal.mul (a b : FVal) : FVal :=
  match a, b with
  | .nan, _ => .nan
  | _, .nan => .nan
  | .inf p, .inf q => .inf (p != q)
  | .inf p, .fin q n _ => if n = 0 then .nan else .inf (p != q)
  | .fin p m _, .inf q => if m = 0 then .nan else .inf (p != q)
  | .fin p m x, .fin q n y => .fin (p != q) (m * n) (x + y)

/-- Extra bits kept where an exact quotient or root does not end; a last bit marks a remainder,
so that one rounding to binary16 or binary32 is the correct one. -/
def guardBits : Nat := 320

/-- Quotient, exact or with a marked remainder. -/
def FVal.div (a b : FVal) : FVal :=
  match a, b with
  | .nan, _ => .nan
  | _, .nan => .nan
  | .inf _, .inf _ => .nan
  | .inf p, .fin q _ _ => .inf (p != q)
  | .fin p _ _, .inf q => .fin (p != q) 0 0
  | .fin p m x, .fin q n y =>
    if n = 0 then (if m = 0 then .nan else .inf (p != q))
    else
      let a := m * 2 ^ guardBits
      let t := a / n
      let rem := if a % n = 0 then 0 else 1
      .fin (p != q) (2 * t + rem) (x - y - guardBits - 1)

/-- Integer square root by bisection from the highest bit: `k` bits of result remain. -/
def isqrtAux (n : Nat) : Nat → Nat → Nat
  | 0, r => r
  | k + 1, r =>
    let c := r + 2 ^ k
    isqrtAux n k (if c * c ≤ n then c else r)

/-- Integer square root. -/
def isqrt (n : Nat) : Nat := isqrtAux n (Nat.log2 n / 2 + 1) 0

/-- Square root, exact or with a marked remainder; −0 gives −0, another negative a NaN. -/
def FVal.sqrt (a : FVal) : FVal :=
  match a with
  | .nan => .nan
  | .inf p => if p then .nan else .inf false
  | .fin p m x =>
    if m = 0 then .fin p 0 x
    else if p then .nan
    else
      let odd := decide (x % 2 ≠ 0)
      let m' := (if odd then 2 * m else m) * 2 ^ (2 * guardBits)
      let x' := (if odd then x - 1 else x) / 2 - guardBits
      let r := isqrt m'
      .fin false (2 * r + (if r * r = m' then 0 else 1)) (x' - 1)

/-- Total order key of R50's minimum and maximum: −0 below +0. -/
def FVal.lt (a b : FVal) : Bool :=
  match a, b with
  | .nan, _ => false
  | _, .nan => false
  | .inf p, .inf q => p && !q
  | .inf p, .fin _ _ _ => p
  | .fin _ _ _, .inf q => !q
  | .fin p m x, .fin q n y =>
    let r := dyAdd (sgn p m) x (-(sgn q n)) y
    if r.1 = 0 then p && !q else decide (r.1 < 0)

/-- Numeric comparison, in which −0 equals +0; false with a NaN. -/
def FVal.numLt (a b : FVal) : Bool :=
  match a, b with
  | .fin p m x, .fin q n y => decide ((dyAdd (sgn p m) x (-(sgn q n)) y).1 < 0)
  | _, _ => FVal.lt a b

/-- Numeric equality; false with a NaN. -/
def FVal.numEq (a b : FVal) : Bool :=
  match a, b with
  | .inf p, .inf q => p == q
  | .fin p m x, .fin q n y => decide ((dyAdd (sgn p m) x (-(sgn q n)) y).1 = 0)
  | _, _ => false

/-- Whether the value is a NaN. -/
def FVal.isNan (a : FVal) : Bool := match a with | .nan => true | _ => false

/-- Whether the value is a zero of either sign. -/
def FVal.isZero (a : FVal) : Bool := match a with | .fin _ 0 _ => true | _ => false

/-- Maximum (or minimum) of R50: NaN dominates, −0 lies below +0. -/
def FVal.pick (maxi : Bool) (a b : FVal) : FVal :=
  if a.isNan || b.isNan then .nan
  else if FVal.lt a b then (if maxi then b else a) else (if maxi then a else b)

/-! ### Element functions, correctly rounded

Values are computed in fixed point with 512 fraction bits. Apart from the arguments that the
definitions single out, the exact results are transcendental, so a value computed this closely
and marked inexact rounds as the exact result does. -/

/-- Fraction bits of the fixed-point values. -/
def fxBits : Nat := 512

/-- One in fixed point. -/
def fxOne : Int := 2 ^ fxBits

/-- Fixed-point product. -/
def fxMul (a b : Int) : Int := (a * b) / fxOne

/-- Fixed-point value of a finite number. -/
def fxOf (neg : Bool) (m : Nat) (x : Int) : Int :=
  sgn neg (roundDown m (x + fxBits) 0)

/-- Σ over the remaining terms of y^(2k+1)/(2k+1): `t` is the present power, `d` its divisor. -/
def atanhSum (y2 : Int) : Nat → Int → Int → Int
  | 0, _, _ => 0
  | k + 1, t, d => t / d + atanhSum y2 k (fxMul t y2) (d + 2)

/-- ln 2 = 2 · atanh(1/3). -/
def fxLn2 : Int :=
  let z := fxOne / 3
  2 * atanhSum (fxMul z z) 170 z 1

/-- Σ over the remaining terms of r^k/k!. -/
def expSum (r : Int) : Nat → Int → Int → Int
  | 0, _, _ => 0
  | n + 1, t, k => t + expSum r n (fxMul t r / k) (k + 1)

/-- e^v for a fixed-point v: mantissa in fixed point and the power of two that multiplies it. -/
def fxExp (v : Int) : Int × Int :=
  let k := v / fxLn2
  let r := v - k * fxLn2
  (expSum r 120 fxOne 1, k)

/-- ln(m × 2^x), m > 0, in fixed point. -/
def fxLog (m : Nat) (x : Int) : Int :=
  let l := Nat.log2 m
  let y : Int := (m : Int) * 2 ^ (fxBits + 1) / 2 ^ (l + 1)  -- m / 2^l in [1, 2)
  let big := decide (fxOne * 3 / 2 < y)
  let y' := if big then y / 2 else y
  let e : Int := x + l + (if big then 1 else 0)
  let z := (y' - fxOne) * fxOne / (y' + fxOne)
  2 * atanhSum (fxMul z z) 170 z 1 + e * fxLn2

/-- A positive or negative inexact fixed-point value times 2^e. -/
def fxInexact (v e : Int) : FVal :=
  .fin (decide (v < 0)) (2 * v.natAbs + 1) (e - fxBits - 1)

/-- Exponential. -/
def FVal.exp (a : FVal) : FVal :=
  match a with
  | .nan => .nan
  | .inf p => if p then .fin false 0 0 else .inf false
  | .fin p m x =>
    if m = 0 then .fin false 1 0
    else if 10 < x + (Nat.log2 m : Int) then (if p then .fin false 1 (-2000) else .fin false 1 2000)
    else let r := fxExp (fxOf p m x); fxInexact r.1 r.2

/-- Natural logarithm: zero gives −∞, a negative number a NaN. -/
def FVal.log (a : FVal) : FVal :=
  match a with
  | .nan => .nan
  | .inf p => if p then .nan else .inf false
  | .fin p m x =>
    if m = 0 then .inf true
    else if p then .nan
    else if FVal.numEq a (.fin false 1 0) then .fin false 0 0
    else fxInexact (fxLog m x) 0

/-- 1 / (1 + e^−v) in fixed point for v ≥ 0, and e^−v / (1 + e^−v). -/
def fxLogistic (v : Int) (upper : Bool) : Int :=
  let r := fxExp (-v)
  let ev := if r.2 < 0 then r.1 / 2 ^ (-r.2).toNat else r.1 * 2 ^ r.2.toNat
  if upper then fxOne * fxOne / (fxOne + ev) else ev * fxOne / (fxOne + ev)

/-- Logistic function. -/
def FVal.sigmoid (a : FVal) : FVal :=
  match a with
  | .nan => .nan
  | .inf p => if p then .fin false 0 0 else .fin false 1 0
  | .fin p m x =>
    if m = 0 then .fin false 1 (-1)
    else if 7 < x + (Nat.log2 m : Int) then
      (if p then .fin false 1 (-2000) else .fin false (2 ^ 400 - 1) (-400))
    else fxInexact (fxLogistic (fxOf false m x) (!p)) 0

/-- Hyperbolic tangent; a zero keeps its sign. -/
def FVal.tanh (a : FVal) : FVal :=
  match a with
  | .nan => .nan
  | .inf p => .fin p 1 0
  | .fin p m x =>
    if m = 0 then .fin p 0 x
    else if 6 < x + (Nat.log2 m : Int) then .fin p (2 ^ 400 - 1) (-400)
    else if x + (Nat.log2 m : Int) < -40 then
      -- x − x³/3 lies just below x in magnitude
      .fin p (m * 2 ^ 100 - 1) (x - 100)
    else
      let r := fxExp (-2 * fxOf false m x)
      let ev := if r.2 < 0 then r.1 / 2 ^ (-r.2).toNat else r.1 * 2 ^ r.2.toNat
      fxInexact (sgn p (((fxOne - ev) * fxOne / (fxOne + ev)).natAbs)) 0

/-- Reciprocal. -/
def FVal.rcp (a : FVal) : FVal := FVal.div (.fin false 1 0) a

/-- Reciprocal square root: the reciprocal of a root kept to 320 bits beyond the operand; a zero
gives the infinity of its sign. -/
def FVal.rsqrt (a : FVal) : FVal :=
  match a with
  | .fin p m x =>
    if m = 0 then .inf p
    else if p then .nan
    else
      -- 1/√(m·2^x) = √(2^(2k)/m) · 2^(−x/2 − k), with x made even
      let odd := decide (x % 2 ≠ 0)
      let m' := if odd then 2 * m else m
      let x' := (if odd then x - 1 else x) / 2
      let n := 2 ^ (2 * guardBits) / m'
      let r := isqrt n
      .fin false (2 * r + (if r * r * m' = 2 ^ (2 * guardBits) then 0 else 1)) (-x' - guardBits - 1)
  | .inf p => if p then .nan else .fin false 0 0
  | .nan => .nan

/-! ### Window and slices -/

/-- An accumulator cell: V and the sticky bits of R29 and R32. -/
structure Cell where
  v    : BitVec 64
  nan  : Bool
  pinf : Bool
  ninf : Bool
  wovf : Bool
  deriving DecidableEq, Repr

/-- A cleared cell. -/
def Cell.clear : Cell := ⟨0, false, false, false, false⟩

/-- Whether a special bit is set (R33). -/
def Cell.special (c : Cell) : Bool := c.nan || c.pinf || c.ninf

/-- One rounded product onto the grid 2^A, limited at 2^(63−H) (R28, R29): p and WOVF. -/
def windowProduct (anchor : Int) (headroom : Nat) (neg : Bool) (m : Nat) (x : Int) : Int × Bool :=
  let p := roundRne m x anchor
  let lim := 2 ^ (63 - headroom)
  if lim ≤ p then (sgn neg (lim - 1), true) else (sgn neg p, false)

/-- A cell after one product (R28 to R32). -/
def Cell.addProduct (anchor : Int) (headroom : Nat) (c : Cell) (v : FVal) : Cell :=
  match v with
  | .nan => { c with nan := true }
  | .inf neg => if neg then { c with ninf := true } else { c with pinf := true }
  | .fin neg m x =>
    let r := windowProduct anchor headroom neg m x
    { c with v := c.v + BitVec.ofInt 64 r.1, wovf := c.wovf || r.2 }

/-- The value a cell reads out as (R33, R37). -/
def Cell.value (anchor : Int) (c : Cell) : FVal :=
  if c.nan || (c.pinf && c.ninf) then .nan
  else if c.pinf then .inf false
  else if c.ninf then .inf true
  else .fin (decide (c.v.toInt < 0)) c.v.toInt.natAbs anchor

/-- Slices of a binary32 operand, hi, mid, lo (R35); other values are one slice. -/
def slices32 (b : Nat) : List FVal :=
  match fmt32.decode b with
  | .fin neg m x =>
    [.fin neg (m >>> 13) (x + 13), .fin neg ((m >>> 2) % 2048) (x + 2),
     .fin neg ((m % 4) * 512) (x - 9)]
  | v => [v]

/-- Slice products of two finite operands, as pairs of slice numbers in pass order (Table 2.4). -/
def passPairs (fmt : Nat) : List (Nat × Nat) :=
  match fmt with
  | 0 => [(0, 0)]
  | 1 => [(0, 0), (0, 1), (1, 0)]
  | 2 => [(0, 0), (0, 1), (1, 0), (1, 1), (0, 2), (2, 0)]
  | 3 => [(0, 0), (0, 1)]
  | 4 => [(0, 0), (0, 1), (0, 2)]
  | 5 => [(0, 0), (1, 0)]
  | _ => [(0, 0), (1, 0), (2, 0)]

/-- Whether the stored and the streamed operand of a FMT are binary32 (Table 3.5). -/
def fmtWide (fmt : Nat) : Bool × Bool :=
  match fmt with
  | 0 => (false, false)
  | 1 => (true, true)
  | 2 => (true, true)
  | 3 => (false, true)
  | 4 => (false, true)
  | _ => (true, false)

/-- The value of an operand of the array. -/
def operandValue (wide : Bool) (b : Nat) : FVal := if wide then fmt32.decode b else fmt16.decode b

/-- The slices of an operand: three for binary32, one for binary16 (R35). -/
def operandSlices (wide : Bool) (b : Nat) : List FVal := if wide then slices32 b else [fmt16.decode b]

/-- The products of one operand pair in a FMT of Table 3.5, in pass order (R36). A pair with a NaN
or an infinity has one product (R32). -/
def sliceProducts (fmt : Nat) (a b : Nat) : List FVal :=
  let w := fmtWide fmt
  match operandValue w.1 a, operandValue w.2 b with
  | .fin _ _ _, .fin _ _ _ =>
    let l := operandSlices w.1 a
    let r := operandSlices w.2 b
    (passPairs fmt).map fun i => FVal.mul (l.getD i.1 .nan) (r.getD i.2 .nan)
  | x, y => [FVal.mul x y]

/-! ### ESF sums, residues -/

/-- Exact ESF sum, the special code absorbing (R44), without a saturation. -/
def esfAdd (w : Nat) (a b : Nat) : Nat :=
  if a = esfSpecial w ∨ b = esfSpecial w then esfSpecial w
  else toTwos w (ofTwos w a + ofTwos w b)

/-- ESF sum that saturates each addition at ±(2^(w−1) − 1) (R44): bits and EOVF. -/
def esfAddSat (w : Nat) (a b : Nat) : Nat × Bool :=
  if a = esfSpecial w ∨ b = esfSpecial w then (esfSpecial w, false)
  else
    let v := ofTwos w a + ofTwos w b
    let m : Int := 2 ^ (w - 1) - 1
    if m < v then (toTwos w m, true)
    else if v < -m then (toTwos w (-m), true)
    else (toTwos w v, false)

/-- Exponent of ulp(w) of a binary16 value: max(e, −14) − 10, and −24 for a zero (R46). -/
def ulp16Exp (b : Nat) : Int :=
  match fmt16.decode b with
  | .fin _ m x => if m = 0 then -24 else max (x + (Nat.log2 m : Int)) (-14) - 10
  | _ => -24

/-- Value of a binary16 weight with its residue (R46). -/
def residueValue (w : Nat) (rho : Int) : FVal :=
  match fmt16.decode w with
  | .fin p m x => FVal.add (.fin p m x) (.fin (decide (rho < 0)) rho.natAbs (ulp16Exp w - 8))
  | v => v

/-- Residue of the exact value v against the stored weight w′ (R47): RNE(256 (v − w′)/ulp(w′)),
clamped; 0 when w′ is not finite or saturated. -/
def residueOf (v : FVal) (w' : Nat) (rovf : Bool) : Int :=
  match fmt16.decode w', v with
  | .fin p m x, .fin q n y =>
    if rovf then 0
    else
      let d := dyAdd (sgn q n) y (-(sgn p m)) x
      let r : Int := sgn (decide (d.1 < 0)) (roundRne d.1.natAbs d.2 (ulp16Exp w' - 8))
      max (-128) (min 127 r)
  | _, _ => 0

/-! ### CBG-128 -/

/-- Round constants (R60). -/
def cbgRc : List (BitVec 64) :=
  [0x5A17C3E90B64D28F, 0xE2B84F0691DA357C, 0x7D09A6B3E5481C2F, 0xC4F2318E6A9B07D5,
   0x1B6E8D5C27F0A943, 0x96A3F0127CB84E6D, 0x3F58B2D6A10E97C4, 0xA8C1673E5D2B0F91,
   0x4E97D0A2F36C851B, 0xD03B5E79C8A416F2]

/-- One round of R60 with key word k and constant rc, on (x1, x0). -/
def cbgRound (k rc : BitVec 64) (x : BitVec 64 × BitVec 64) : BitVec 64 × BitVec 64 :=
  let u := (x.2 ^^^ k ^^^ rc) * 0x0000100000100001
  let u := u ^^^ (u >>> 32)
  (x.2, x.1 ^^^ ((u <<< 12) ||| (u >>> 52)))

/-- The rounds of R60, the key words taken in turn. -/
def cbgRounds : List (BitVec 64) → BitVec 64 → BitVec 64 → BitVec 64 × BitVec 64 →
    BitVec 64 × BitVec 64
  | [], _, _, x => x
  | rc :: rest, k, k', x => cbgRounds rest k' k (cbgRound k rc x)

/-- CBG-128 (R60): 128 bits of output for a key (job seed) and a counter. -/
def cbg128 (key ctr : BitVec 128) : BitVec 128 :=
  let x := cbgRounds cbgRc (key.extractLsb' 0 64) (key.extractLsb' 64 64)
    (ctr.extractLsb' 64 64, ctr.extractLsb' 0 64)
  x.1 ++ x.2

/-- Whether a purpose code is reserved (Table 2.9). -/
def cbgPurposeReserved (p : BitVec 16) : Bool := decide (5 ≤ p.toNat ∧ p.toNat ≤ 0x7FFF)

/-- The counter of Table 2.8. -/
def cbgCounter (tensor step : BitVec 32) (element : BitVec 48) (purpose : BitVec 16) :
    BitVec 128 :=
  tensor ++ step ++ element ++ purpose

/-- The 16-bit value of element i under purposes 0x0001 and 0x0002 (Table 2.9). -/
def cbg16 (key : BitVec 128) (tensor step : BitVec 32) (purpose : BitVec 16) (i : Nat) : BitVec 16 :=
  (cbg128 key (cbgCounter tensor step (BitVec.ofNat 48 (i / 8)) purpose)).extractLsb' (16 * (i % 8)) 16

/-- The rounding of a conversion: RNE, or SR with the value of R40. -/
def roundingOf (sr : Bool) (key : BitVec 128) (tensor step : BitVec 32) (i : Nat) : Rounding :=
  if sr then .sr (cbg16 key tensor step 2 i).toNat else .rne

end Sys2Proof.Machine
end

