-- ==== Sys2Proof/Machine/StateTile.lean ====
section
/-!
DEFINITION. The state of one tile: its matrix array (chapter 3), thread-group engine (chapter 4),
vector engine (chapter 5), translation cache (R202), near cache (R254), run-ahead unit (R252),
tile mover (R262) and sequencer (chapter 9).
-/

namespace Sys2Proof.Machine

/-! ### Matrix array -/

/-- Tag of a stored-operand buffer (R68). -/
structure BufTag where
  shape   : Nat
  base    : Nat
  pstride : Nat
  rstride : Nat
  order   : Bool
  wide    : Bool
  rows    : Nat
  cols    : Nat
  deriving DecidableEq, Repr

/-- A loaded buffer: its tag and, for each product, the rows of the chunk it holds. -/
structure StoredBuf where
  tag   : BufTag
  prods : List (List (List Nat))
  deriving DecidableEq, Repr

/-- The open accumulation run (R69). -/
structure OpenRun where
  mmt      : Bool
  shape    : Nat
  anchor   : Int
  headroom : Nat
  m        : Nat
  n        : Nat
  count    : Nat
  deriving DecidableEq, Repr

/-- One row of the statistics buffer: running maximum, running sum, last rescale factor, as
binary32 bits (Table 3.11 and R87). -/
structure StatRow where
  m : Nat
  l : Nat
  c : Nat
  deriving DecidableEq, Repr

/-- An attention sequence under way (R92): whether an ATV is due, whether it is the first since
INIT, and the last KPOS. -/
structure AttSeq where
  atvDue   : Bool
  firstAtv : Bool
  kpos     : Nat
  deriving DecidableEq, Repr

/-- A fence that waits for the open run to close (R94): a physical column, or the whole array, with the
convicting package. -/
inductive ArrayFence where
  | column (c : Fin 128) (pkg : BitVec 64)
  | whole (pkg : BitVec 64)
  deriving DecidableEq, Repr

/-- The matrix array beyond its registers. Accumulators are held by product and logical output
position, key (product × 128 + row) × 128 + column. -/
structure MxaSt where
  cells     : SMap Cell
  active    : Option StoredBuf
  shadow    : Option StoredBuf
  shadowNew : Bool
  run       : Option OpenRun
  stats     : SMap StatRow
  att       : Option AttSeq
  pending   : List ArrayFence
  deriving DecidableEq, Repr

/-- The array at reset. -/
def MxaSt.reset : MxaSt := ⟨[], none, none, false, none, [], none, []⟩

/-! ### Thread groups -/

/-- The kernel descriptor (Table 4.2). -/
structure KernelDesc where
  entry   : BitVec 48
  blocks  : Nat
  threads : Nat
  regs    : Nat
  shared  : Nat
  param   : BitVec 48
  deriving DecidableEq, Repr

/-- What a reconvergence-stack entry is doing: a path or reconvergence point, lanes parked on
locks with each lane's word as (lane, virtual address, global address) (R132), or lanes that wait at a block barrier (R140). -/
inductive EntSt where
  | path
  | parked (words : List (Nat × Nat × Nat)) (woken : BitVec 32)
  | waiting (id : Fin 16) (at_ : BitVec 48)
  deriving DecidableEq, Repr

/-- One reconvergence-stack entry. -/
structure StackEnt where
  pc   : BitVec 48
  mask : BitVec 32
  rpc  : Option (BitVec 48)
  st   : EntSt
  deriving DecidableEq, Repr

/-- What one lane does in a request: a load into registers, a store, or an atomic. -/
inductive LaneDo where
  | load (reg : BitVec 8) (sx : Bool)
  | store (data : List Byte)
  | atom (op : AtomOp) (operand compare : BitVec 64) (ret : Option (BitVec 8))
  deriving DecidableEq, Repr

/-- One lane's access: lane, global address, size in bytes. -/
structure LaneAcc where
  lane : Fin 32
  va   : BitVec 48
  ga   : Nat
  size : Nat
  act  : LaneDo
  deriving DecidableEq, Repr

/-- A request that waits for a request slot (R123): group slot, context, line, hint, quota bank
and the lane accesses it carries. -/
structure TileReq where
  group : Nat
  ctx   : CtxId
  nce   : Bool
  dar   : Bool
  line  : Nat
  hint  : Nat
  bank  : Nat
  accs  : List LaneAcc
  deriving DecidableEq, Repr

/-- The spin detector's open window (R143): branch target, branch address, signature of the
iteration under way and of the last one. -/
structure SpinWin where
  target : BitVec 48
  branch : BitVec 48
  sig    : BitVec 32
  last   : Option (BitVec 32)
  deriving DecidableEq, Repr

/-- A resident group (R118). `back` holds register values on their way (key lane × 256 +
register), `banks` the quota banks of the request slots it holds. -/
structure TgGroup where
  block  : Nat
  num    : Nat
  age    : Nat
  active : Bool
  stack  : List StackEnt
  gone   : BitVec 32
  regs   : SMap (BitVec 32)
  locks  : SMap Nat
  back   : List (Nat × BitVec 32)
  banks  : List Nat
  sync   : List Nat
  win    : Option SpinWin
  deriving DecidableEq, Repr

/-- A resident block: index, first group's slot list, and its block-shared offset in 4 KiB. -/
structure TgBlock where
  index : Nat
  base  : Nat
  deriving DecidableEq, Repr

/-- A launch under way (R113). -/
structure TgLaunchSt where
  desc : KernelDesc
  ctx  : CtxId
  next : Nat
  deriving DecidableEq, Repr

/-- The thread-group engine. `groups` and `blocks` are keyed by slot. -/
structure TgeSt where
  launch : Option TgLaunchSt
  groups : SMap (Option TgGroup)
  blocks : SMap (Option TgBlock)
  ages   : Nat
  queue  : List TileReq
  deriving DecidableEq, Repr

/-- The thread-group engine at reset. -/
def TgeSt.reset : TgeSt := ⟨none, [], [], 0, []⟩

/-! ### Vector engine -/

/-- The state of a vector engine or an update core (R154, R389). VLEW is held as its code; `ep` is the
loaded element program and `epAt` where it was loaded from. -/
structure VxSt where
  v       : SMap (BitVec 4096)
  p       : SMap (BitVec 512)
  sreg    : SMap Word
  vl      : Nat
  vlew    : Nat
  running : Bool
  pc      : BitVec 48
  ctx     : CtxId
  ep      : Option (List Nat)
  epAt    : Nat
  deriving DecidableEq, Repr

/-- The vector engine at reset (R154, Table 5.14): registers zero, VL 0, VLEW 16 bits. -/
def VxSt.reset : VxSt := ⟨[], [], [], 0, 1, false, 0, 0, none, 0⟩

/-! ### Translation cache, near cache, run-ahead, mover -/

/-- An entry of the translation cache (R202), held most recent first. -/
structure TlbEnt where
  ctx  : CtxId
  big  : Bool
  page : Nat
  deriving DecidableEq, Repr

/-- What a near-cache line holds: a line of the module by its GA, or a line of an import window
with the bytes that the companion returned (R442). -/
inductive NcKey where
  | ga (line : Nat)
  | window (w : Fin 16) (line : Nat)
  deriving DecidableEq, Repr

/-- A near-cache line. Its set's lines are held most recent first. -/
structure NcLine where
  key  : NcKey
  way  : Nat
  keep : Bool
  data : BitVec 1024
  deriving DecidableEq, Repr

/-- A stream of the run-ahead unit (R252): engine index, context, last line read (VA / 128),
direction, lines seen in a row, and the line last fetched ahead. -/
structure RaStream where
  engine  : Nat
  ctx     : CtxId
  last    : Nat
  up      : Bool
  seen    : Nat
  fetched : Nat
  stopped : Bool
  deriving DecidableEq, Repr

/-- A transfer descriptor (Table 7.18). -/
structure XferDesc where
  op     : Nat
  esize  : Nat
  fmt    : Nat
  flags  : Nat
  hints  : Nat
  win    : Nat
  module : Nat
  src    : Nat
  dst    : Nat
  l0     : Nat
  n1     : Nat
  n2     : Nat
  srcS1  : Int
  srcS2  : Int
  dstS1  : Int
  dstS2  : Int
  idx    : Nat
  sigVa  : Nat
  sigGen : Nat
  tagGen : Nat
  deriving DecidableEq, Repr

/-- A part of a transfer not yet performed: its source and destination as the descriptor gives them, its
bytes, and whether it opens a move of R263. -/
structure XferPart where
  src   : Nat
  dst   : Nat
  n     : Nat
  first : Bool
  deriving DecidableEq, Repr

/-- A request of a transfer whose answer is awaited: its number, quota bank, the destination range as the
descriptor gives it, the places (GA, bytes) that its data go to, where they begin in the data, the
near-cache line of an import window that the data fill, and the address that a fault names. -/
structure XferOut where
  id     : Nat
  bank   : Nat
  dst    : Nat
  n      : Nat
  places : List (Nat × Nat)
  skip   : Nat
  win    : Option (Fin 16 × Nat)
  fault  : Nat
  deriving DecidableEq, Repr

/-- A transfer in progress (R262): parts not yet performed, requests whose answer is awaited, and the
number of the next one. -/
structure Xfer where
  tag    : BitVec 8
  gen    : BitVec 8
  ctx    : CtxId
  descVa : BitVec 48
  desc   : XferDesc
  left   : List XferPart
  out    : List XferOut
  nextId : Nat
  deriving DecidableEq, Repr

/-- The tile mover: transfers in progress. -/
structure TmvSt where
  xfers : List Xfer
  deriving DecidableEq, Repr

/-- The tile mover at reset. -/
def TmvSt.reset : TmvSt := ⟨[]⟩

/-! ### Sequencer -/

/-- Flags gathered of one layer in the unit under way (R329). -/
structure GatherFlags where
  layer   : Nat
  wovf    : Bool
  rovf    : Bool
  eovf    : Bool
  special : Bool
  noWider : Bool
  deriving DecidableEq, Repr

/-- Where a repeat of a unit returns to (R332): the unit, the word after its TSQ.UNIT, STEP and
STEP_BASE. -/
structure UnitMark where
  unit : Nat
  pc   : BitVec 48
  step : BitVec 32
  base : Nat
  deriving DecidableEq, Repr

/-- What a sequencer word waits for: a schedule time, engines, a sync word, a release, or in a
fallback the end of the step (R339). -/
inductive SeqWait where
  | none
  | hold (target : Nat)
  | join (mask : Nat)
  | sync (ga : Nat)
  | barrier
  | stepEnd
  deriving DecidableEq, Repr

/-- A tile sequencer (R321) beyond its registers: whether a stream runs, its context and domain
slot, PC, STEP and STEP_BASE in frames, the present layer and unit, the marks of units begun (latest
first), flags gathered, whether FAULT and a TIMEOUT arose in the unit, the array word index since
TSQ.LAYER, whether a launch of either engine is in progress, the present wait, the widenings in
force for the present layer (how often the window rises by 16, and whether binary16 and ESF-32
outputs are widened, R332), the last mark, the elements in the output digest, the place in its log of the
next entry, and of the next one to be compared with a primary's (R594). -/
structure SeqSt where
  running   : Bool
  ctx       : CtxId
  dom       : Fin 2
  pc        : BitVec 48
  step      : BitVec 32
  stepBase  : Nat
  layer     : Nat
  unit      : Option Nat
  marks     : List UnitMark
  flags     : List GatherFlags
  fault     : Bool
  late      : Bool
  arrayIdx  : Nat
  tgBusy    : Bool
  vxBusy    : Bool
  wait      : SeqWait
  wideA     : Nat
  wideR     : Bool
  wideE     : Bool
  mark      : Nat
  odigElems : Nat
  odigPos   : Nat
  odigSeen  : Nat
  deriving DecidableEq, Repr

/-- The sequencer at reset. -/
def SeqSt.reset : SeqSt :=
  ⟨false, 0, 0, 0, 0, 0, 0, none, [], [], false, false, 0, false, false, .none, 0, false, false, 0, 0, 0, 0⟩

/-! ### The tile -/

/-- One tile. `slots` lists the quota banks of request slots held by the mover. -/
structure TileSt where
  mxa   : MxaSt
  tge   : TgeSt
  vx    : VxSt
  tmv   : TmvSt
  seq   : SeqSt
  tlb   : List TlbEnt
  nc    : SMap (List NcLine)
  ra    : List RaStream
  slots : List Nat
  deriving DecidableEq, Repr

/-- A tile at reset. -/
def TileSt.reset : TileSt :=
  ⟨MxaSt.reset, TgeSt.reset, VxSt.reset, TmvSt.reset, SeqSt.reset, [], [], [], []⟩

end Sys2Proof.Machine
end

