-- ==== Sys2Proof/Machine/StateTime.lean ====
section
/-!
DEFINITION. The state of the fabric time unit beyond its registers (R301 to R308, R353, R383, R616).
-/

namespace Sys2Proof.Machine

/-- What a port last exchanged (R353): its own last stamp sent, the arrival stamp of the partner's
latest TIME message, its FTC, the one-way delay and offset computed (units of 1/256 ft), and what
the partner stated. -/
structure PortTime where
  sent   : Nat
  echo   : Nat
  heard  : Nat
  delay  : Int
  offset : Int
  hops   : Nat
  lock   : Nat
  root   : Nat
  gen    : Nat
  role   : Nat
  deriving DecidableEq, Repr

/-- A port that has exchanged nothing. -/
def PortTime.reset : PortTime := ⟨0, 0, 0, 0, 0, 0, 0, 0, 0, 0⟩

/-- The time unit: ports; FTC_PPS that waits for an edge; the reference value (R303); whether the
first lock has come; FTC of the last PPS edge, of the last exchange from the parent and of the last
exchange stamped by the master; FTC since which there has been no parent; FTC at which REFCLK was
lost; whether ports may leave DETECT (R616). -/
structure TimeSt where
  ports     : SMap PortTime
  ppsNext   : Option Nat
  reference : Nat
  locked    : Bool
  ppsAt     : Nat
  parentAt  : Nat
  masterAt  : Nat
  orphan    : Option Nat
  refLost   : Option Nat
  refBoot   : Bool
  deriving DecidableEq, Repr

/-- The time unit at reset. -/
def TimeSt.reset : TimeSt := ⟨[], none, 0, false, 0, 0, 0, none, none, false⟩

end Sys2Proof.Machine
end

