-- ==== Sys2Proof/Machine/StateUe.lean ====
section
/-!
DEFINITION. The state of the update-engine clusters beyond their registers (R388 to R413).
-/

namespace Sys2Proof.Machine

/-- What a run of a layer leaves for its commit (R412, R416): the exponent sc, the next digest's lanes,
the ratio and the two norms, as binary32 bits. -/
structure UeNext where
  scale : Int
  lo    : BitVec 64
  hi    : BitVec 64
  ratio : Nat
  nd    : Nat
  nw    : Nat
  deriving DecidableEq, Repr

/-- A layer beyond its descriptor and STATE register: notices held for the present STEP; the cores of
its group while it runs; the cores that have issued UE.DONE, and those that wait at UE.GBAR with their
IMM; flags of the run (WOVF of a statistic and of a norm sum, ROVF, SPECIAL); the step's widenings of
A_S and A_N; the results, once computed. -/
structure UeLayer where
  held    : List Notice
  cores   : List Nat
  done    : List Nat
  gbar    : List (Nat × Nat)
  wovfS   : Bool
  wovfN   : Bool
  rovf    : Bool
  special : Bool
  wideS   : Nat
  wideN   : Nat
  result  : Option UeNext
  deriving DecidableEq, Repr

/-- A layer at rest. -/
def UeLayer.reset : UeLayer := ⟨[], [], [], [], false, false, false, false, 0, 0, none⟩

/-- A cluster: its 16 cores; their local memories (key core × 2^18 + offset); shared memory; layers by
descriptor; the units told begun and not yet ended. -/
structure UeSt where
  cores  : SMap VxSt
  loc    : SMap Byte
  shared : SMap Byte
  layers : SMap UeLayer
  begun  : List Nat
  deriving DecidableEq, Repr

/-- A cluster at reset. -/
def UeSt.reset : UeSt := ⟨[], [], [], [], []⟩

end Sys2Proof.Machine
end

