-- ==== Sys2Proof/Machine/State.lean ====
section
/-!
DEFINITION. The state of the block, its reset value, and the reasons a step can stop.
-/

namespace Sys2Proof.Machine

/-- Reasons to stop with a fault. The module reports every fault as an event record and goes on
(R563), so no meaning raises one: safe. -/
inductive Fault where
  /-- Raised by no meaning: safe. -/
  | none
  deriving DecidableEq, Repr

/-- Reasons to refuse a command. -/
inductive Refusal where
  /-- The command has no meaning in the model yet: raised by the arms of exec only; safe. -/
  | notModelled (mnemonic : String)
  deriving DecidableEq, Repr

/-- The whole state. Keys: `mem`, `poison`, `sync` and `regs` by global address; `tiles` by global
tile id; `dies` by compute die. -/
structure State where
  mem       : SMap Byte
  poison    : NSet
  sync      : SMap Word
  regs      : SMap Word
  tiles     : SMap TileSt
  dies      : SMap DieSt
  xl        : XlSt
  fences    : List FenceEnt
  doms      : SMap DomSt
  sy        : SyncSt
  noted     : List (CtxId × LayerFlags)
  faults    : List (CtxId × Bool)
  fab       : FabSt
  ue        : SMap UeSt
  fw        : FwSt
  pwr       : PwrSt
  svc       : SvcSt
  time      : TimeSt
  evt       : EvtSt
  mboxes    : SMap MboxSt
  capVersion : Nat
  ftc       : Nat
  powered   : Bool
  running   : Bool
  modState  : Nat
  waits     : List Instr
  out       : List OutMsg
  freeCount : Nat
  pending   : List Instr
  deriving DecidableEq, Repr

/-- The machine after reset: no 54 V and MOD_RST_N low (R482); every register at the reset value of its
table, every memory and queue empty (log entries 1 to 4). -/
def State.reset : State :=
  { mem := [], poison := [], sync := [], regs := [], tiles := [], dies := [], xl := ⟨[], [], [], []⟩,
    fences := [], doms := [], sy := SyncSt.reset, noted := [], faults := [], fab := FabSt.reset, ue := [],
    fw := FwSt.reset, pwr := PwrSt.reset, svc := SvcSt.reset, time := TimeSt.reset, evt := EvtSt.reset,
    mboxes := [], capVersion := 0, ftc := 0, powered := false, running := false, modState := 0, waits := [],
    out := [], freeCount := 0, pending := [] }

end Sys2Proof.Machine
end

