-- ==== Sys2Proof/Machine/Ops.lean ====
section
/-!
DEFINITION. The shared operations on the state: tiles, dies, registers with their fields, fences,
waiting commands, outputs, bytes.
-/

namespace Sys2Proof.Machine

/-! ### Bytes -/

/-- The n bytes of a number, least significant first (R4). -/
def leBytes : Nat → Nat → List Byte
  | 0, _ => []
  | n + 1, v => BitVec.ofNat 8 v :: leBytes n (v / 256)

/-- The number that bytes stand for, least significant first (R4). -/
def leNat : List Byte → Nat
  | [] => 0
  | b :: rest => b.toNat + 256 * leNat rest

/-- Bits [hi:lo] of an instruction word. -/
def wbits {n : Nat} (w : BitVec n) (hi lo : Nat) : Nat := (w.toNat >>> lo) % 2 ^ (hi + 1 - lo)

/-- n bytes from offset o of a list; bytes past its end are 0. -/
def slice (l : List Byte) (o n : Nat) : List Byte :=
  let x := (l.drop o).take n
  x ++ List.replicate (n - x.length) 0

/-- The number in n bytes at offset o. -/
def field (l : List Byte) (o n : Nat) : Nat := leNat (slice l o n)

/-- A number read as a signed 32-bit value. -/
def signed32 (v : Nat) : Int := ofTwos 32 (v % 2 ^ 32)

/-! ### Tiles and dies -/

/-- The state of a tile. -/
def State.tile (s : State) (t : TileId) : TileSt := mapGet TileSt.reset s.tiles t.val

/-- The state with a tile replaced. -/
def State.setTile (s : State) (t : TileId) (x : TileSt) : State :=
  { s with tiles := mapSet TileSt.reset s.tiles t.val x }

/-- The state of a compute die. -/
def State.die (s : State) (d : Nat) : DieSt := mapGet DieSt.reset s.dies d

/-- The state with a compute die replaced. -/
def State.setDie (s : State) (d : Nat) (x : DieSt) : State :=
  { s with dies := mapSet DieSt.reset s.dies d x }

/-- A domain slot. -/
def State.dom (s : State) (d : Fin 2) : DomSt := mapGet DomSt.reset s.doms d.val

/-- The state with a domain slot replaced. -/
def State.setDom (s : State) (d : Fin 2) (x : DomSt) : State :=
  { s with doms := mapSet DomSt.reset s.doms d.val x }

/-- The compute die of a tile and the tile's index on it (chapter 0, "Names"). -/
def tileDie (t : TileId) : Nat := t.val / 12

/-- T, the tile's index on its die. -/
def tileIdx (t : TileId) : Nat := t.val % 12

/-- The tile with a global id, cut to the range. -/
def tileOf (n : Nat) : TileId := Fin.ofNat 576 n

/-- A command that must wait: kept for its sender to give again (DESIGN CHOICE, log entry 8). -/
def State.wait (s : State) (c : Instr) : State := { s with waits := s.waits ++ [c] }

/-- A message to the outside. -/
def State.send (s : State) (m : OutMsg) : State := { s with out := s.out ++ [m] }

/-- A free value, and the state with the counter advanced (DESIGN CHOICE, log entry 6). -/
def State.free (s : State) : BitVec 64 × State :=
  (Config.freeWord s.freeCount, { s with freeCount := s.freeCount + 1 })

/-- Flags that a unit outside the tiles raised for a context's work, kept for the collection
(R53, R329). -/
def State.note (s : State) (ctx : CtxId) (f : LayerFlags) : State :=
  if s.noted.contains (ctx, f) then s else { s with noted := s.noted ++ [(ctx, f)] }

/-- FAULT, or FAULT with cause STEP_SKEW, that a unit outside the tiles brings to the collection of a
context's unit (R374, R377). -/
def State.noteFault (s : State) (ctx : CtxId) (skew : Bool) : State :=
  if s.faults.contains (ctx, skew) then s else { s with faults := s.faults ++ [(ctx, skew)] }

/-- The module enters a state; every change raises an in-band interrupt once these are enabled (R623). -/
def State.toState (s : State) (v : Nat) : State :=
  if s.modState = v then s
  else
    let s : State := { s with modState := v }
    if s.svc.ibi then s.send (.inBandInterrupt v) else s

/-! ### Registers -/

/-- Global address of region 4 of a die (R184). -/
def regGa (die off : Nat) : Nat := die * 2 ^ 34 + 4 * 2 ^ 30 + off

/-- Global address of a per-tile register, by its offset in the tile's blocks (Table 6.4). -/
def tileReg (t : TileId) (off : Nat) : Nat := regGa (tileDie t) (tileIdx t * 0x10000 + off)

/-- A register's stored value. -/
def State.reg (s : State) (a : Nat) : Word := mapGet (regReset a) s.regs a

/-- The state with a register's value replaced. -/
def State.setReg (s : State) (a : Nat) (v : Word) : State :=
  { s with regs := mapSet (regReset a) s.regs a v }

/-- Bits [hi:lo] of a register. -/
def State.regField (s : State) (a hi lo : Nat) : Nat := bits (s.reg a) hi lo

/-- A register with bits [hi:lo] set by the hardware. -/
def State.setField (s : State) (a hi lo v : Nat) : State := s.setReg a (putBits (s.reg a) hi lo v)

/-- A 64-bit counter advanced by n. -/
def State.bump (s : State) (a n : Nat) : State :=
  if n = 0 then s else s.setReg a (s.reg a + BitVec.ofNat 64 n)

/-- A CCL_ counter advanced: the two dies hold the same values (R450). -/
def State.cclBump (s : State) (off n : Nat) : State :=
  (s.bump (regGa 48 (0x30000 + off)) n).bump (regGa 49 (0x30000 + off)) n

/-- A change of the capability map (R514). -/
def State.capBump (s : State) : State := { s with capVersion := s.capVersion + 1 }

/-! ### Fences -/

/-- Whether a compute die is fenced (grain 3). -/
def State.dieFenced (s : State) (d : Nat) : Bool :=
  s.fences.any fun f => decide (f.grain = 3 ∧ f.a = d)

/-- Whether a tile is fenced on its own (grain 2). -/
def State.tileFenced (s : State) (t : Nat) : Bool :=
  s.fences.any fun f => decide (f.grain = 2 ∧ f.a = t)

/-- Fenced physical columns of a tile's array, ascending (grain 0, R106). -/
def State.fencedCols (s : State) (t : TileId) : List Nat :=
  (List.range 128).filter fun c =>
    s.fences.any fun f => decide (f.grain = 0 ∧ f.a = tileDie t ∧ f.b = tileIdx t ∧ f.c = c)

/-- Whether a tile's whole array is fenced: on its own, or for a ninth column (grain 1, R93). -/
def State.arrayFenced (s : State) (t : TileId) : Bool :=
  (s.fences.any fun f => decide (f.grain = 1 ∧ f.a = tileDie t ∧ f.b = tileIdx t)) ||
  decide (8 < (s.fencedCols t).length)

/-- Array width W (R64, R93): 0 when fenced. -/
def State.width (s : State) (t : TileId) : Nat :=
  if s.arrayFenced t then 0 else 128 - (s.fencedCols t).length

/-- Whether the module runs: powered and out of reset. -/
def State.on (s : State) : Bool := s.powered && s.running

/-- Whether a tile can act: module running, its die and itself not fenced, its die not tripped. -/
def State.tileOn (s : State) (t : TileId) : Bool :=
  s.on && !(s.dieFenced (tileDie t)) && !(s.tileFenced t.val) && !(s.die (tileDie t)).tripped

end Sys2Proof.Machine
end

