-- ==== Sys2Proof/Machine/Events.lean ====
section
/-!
DEFINITION. Raising an event (R563 to R572): the record, its sequence number, the limit on
CORRECTED records, the log and the companion rings.
-/

namespace Sys2Proof.Machine

/-- EVT_CFG of FD0 (Table 16.25). -/
def regEvtCfg : Nat := regGa 48 0x150000

/-- Source id of Table 16.3. -/
def sourceId (module : BitVec 12) (die kind inst : Nat) : BitVec 32 :=
  module ++ BitVec.ofNat 6 die ++ BitVec.ofNat 6 kind ++ BitVec.ofNat 8 inst

/-- Module index, X + 16 Y + 256 Z of the straps (R21), as FAB_ROUTE.SELF holds it. -/
def State.selfIndex (s : State) : BitVec 12 := BitVec.ofNat 12 (s.regField (regGa 48 0x2000) 44 33)

/-- Bytes of a record (Table 16.2), with FLAGS bit 7 and TAG as given. -/
def EvtRec.bytes (r : EvtRec) (phase : Bool) (tag : BitVec 32) : List Byte :=
  leBytes 8 r.ftc.toNat ++ leBytes 4 r.source.toNat ++ leBytes 4 r.seq.toNat ++
  leBytes 1 r.cls.code ++
  leBytes 1 ((if r.loss then 1 else 0) + (if r.summary then 2 else 0) + (if phase then 128 else 0)) ++
  leBytes 2 r.code.toNat ++ leBytes 1 r.ctx.toNat ++ leBytes 1 r.state.toNat ++
  leBytes 2 r.tile.toNat ++ leBytes 8 r.location.toNat ++ leBytes 4 r.step.toNat ++
  leBytes 4 r.layer.toNat ++ leBytes 20 r.detail.toNat ++ leBytes 4 tag.toNat

/-- What a unit reports: everything of a record but what its source and the module add. -/
structure EvtReq where
  cls      : EvClass
  code     : Nat
  die      : Nat
  kind     : Nat
  inst     : Nat
  ctx      : Nat
  tile     : Option TileId
  location : Nat
  step     : Nat
  layer    : Nat
  detail   : Nat
  deriving DecidableEq, Repr

/-- Length of a second in ft (R568). -/
def secondFt : Nat := 450000000

/-- Filter tag of a record (R569): 0 for context 0, otherwise over the record with TAG and PHASE
zero, under the context's event key. -/
def State.evtTag (s : State) (r : EvtRec) : BitVec 32 :=
  if r.ctx = 0 then 0
  else Config.hmacTag ((mapGet none s.xl.ctxs r.ctx.toNat).elim 0 (·.key)) (r.bytes false 0)

/-- The record that a source raises now, with a sequence number. -/
def State.mkRec (s : State) (q : EvtReq) (summary : Bool) : EvtRec :=
  let src := sourceId s.selfIndex q.die q.kind q.inst
  let r : EvtRec :=
    { ftc := BitVec.ofNat 64 s.ftc, source := src, seq := mapGet 0 s.evt.seqs src.toNat,
      cls := q.cls, loss := false, summary := summary, code := BitVec.ofNat 16 q.code,
      ctx := BitVec.ofNat 8 q.ctx, state := BitVec.ofNat 8 s.modState,
      tile := q.tile.elim 0xFFFF (fun t => BitVec.ofNat 16 t.val),
      location := BitVec.ofNat 64 q.location, step := BitVec.ofNat 32 q.step,
      layer := BitVec.ofNat 32 q.layer, detail := BitVec.ofNat 160 q.detail, tag := 0 }
  { r with tag := s.evtTag r }

/-- Whether a class is subscribed. -/
def classOn (classes : BitVec 8) (c : EvClass) : Bool := classes.getLsbD (c.code - 1)

/-- Port of a mailbox's rings (CCL_MB*m*_SQ.PORT). -/
def State.mbPort (s : State) (m : Nat) : Fin 2 :=
  Fin.ofNat 2 (s.regField (regGa 48 (0x30200 + 16 * m)) 62 62)

/-- Successor of a generation (R295). -/
def nextGen (g : Nat) : Nat := if 255 ≤ g then 1 else g + 1

/-- The first tag of 65,536, from one on, that no request in a list holds. -/
def freeTag (l : List OutReq) (from_ : Nat) : Nat :=
  let tags := (List.range (l.length + 1)).map fun k => (from_ + k) % 65536
  (tags.find? fun t => !(l.any fun r => decide (r.tag = t))).getD from_

/-- A tag taken for a request to the companion (R430), with its next generation. -/
def State.newCcl (s : State) (who : ReqWho) (len : Nat) : Nat × State :=
  let tag := freeTag s.fab.creqs s.fab.cnext
  let gen := nextGen (mapGet 0 s.fab.ctagGen tag)
  (tag, { s with fab := { s.fab with
    creqs := s.fab.creqs ++ [(⟨tag, gen, len, who⟩ : OutReq)], ctagGen := mapSet 0 s.fab.ctagGen tag gen,
    cnext := (tag + 1) % 65536 } })

/-- Bytes of companion memory asked for (R440). -/
def State.cclAsk (s : State) (p : Fin 2) (who : ReqWho) (addr : BitVec 52) (len : Nat) : State :=
  let z := s.newCcl who len
  z.2.send (.cclRead p addr len z.1)

/-- One record written into a ring's next slot, with its lap parity (R572). -/
def State.ringWrite (s : State) (m : Nat) (g : EvtRing) (r : EvtRec) : State :=
  let n := 2 ^ g.k
  let phase := decide ((g.tail / n) % 2 = 0)
  let s := s.send (.cclWrite (s.mbPort m) (g.base + BitVec.ofNat 52 (64 * (g.tail % n)))
    (r.bytes phase r.tag))
  { s with evt := { s.evt with
      rings := mapSet none s.evt.rings m (some
        { g with tail := g.tail + 1, unann := g.unann + 1, oldest := if g.unann = 0 then s.ftc else g.oldest }) } }

/-- IMOD_N of a mailbox's completion ring, completions for one interrupt (R448). -/
def State.imodN (s : State) (m : Nat) : Nat := s.regField (regGa 48 (0x30208 + 16 * m)) 63 59

/-- IMOD_T of a mailbox's completion ring, µs (R448). -/
def State.imodT (s : State) (m : Nat) : Nat := s.regField (regGa 48 (0x30208 + 16 * m)) 58 52

/-- The interrupt of a ring's records not announced (R448, R572). -/
def State.ringInterrupt (s : State) (m : Nat) (g : EvtRing) : State :=
  let s := s.send (.cclInterrupt (s.mbPort m) 3 (BitVec.ofNat 10 g.ctx) g.vector)
  let s := s.cclBump 0x330 1
  { s with evt := { s.evt with rings := mapSet none s.evt.rings m (some { g with unann := 0 }) } }

/-- The interrupt of a ring once IMOD_N records are unannounced (R448, R572). -/
def State.ringAnnounce (s : State) (m : Nat) : State :=
  match mapGet none s.evt.rings m with
  | none => s
  | some g => if s.imodN m ≠ 0 ∧ s.imodN m ≤ g.unann then s.ringInterrupt m g else s

/-- The interrupt of a ring IMOD_T µs after the oldest record not announced (R448, R572). -/
def State.ringTimer (s : State) (m : Nat) : State :=
  match mapGet none s.evt.rings m with
  | none => s
  | some g =>
    if g.unann ≠ 0 ∧ s.imodT m ≠ 0 ∧ g.oldest + 450 * s.imodT m ≤ s.ftc then s.ringInterrupt m g else s

/-- The head word of a full ring read (R572), unless a read of it is under way. -/
def State.ringAsk (s : State) (m : Nat) (g : EvtRing) : State :=
  if s.fab.creqs.any fun r => decide (r.who = .head (Fin.ofNat 8 m)) then s
  else s.cclAsk (s.mbPort m) (.head (Fin.ofNat 8 m)) g.headAt 8

/-- A record offered to the ring of one mailbox: written, held inside when the ring is full, or
dropped when 256 are held (R572). -/
def State.ringOffer (s : State) (r : EvtRec) (m : Nat) : State :=
  match mapGet none s.evt.rings m with
  | none => s
  | some g =>
    if !(classOn g.classes r.cls) then s
    else if m ≠ 0 ∧ g.ctx ≠ r.ctx.toNat then s
    else if g.tail - g.head < 2 ^ g.k ∧ g.queue = [] ∧ g.dropped = 0 then
      (s.ringWrite m g r).ringAnnounce m
    else if g.queue.length < 256 then
      ({ s with evt := { s.evt with
          rings := mapSet none s.evt.rings m (some { g with queue := g.queue ++ [r] }) } } : State).ringAsk m g
    else
      let s := s.ringAsk m g
      let s := { s with evt := { s.evt with
          rings := mapSet none s.evt.rings m (some { g with dropped := g.dropped + 1 }) } }
      s.bump (regGa (if s.evt.lost.contains 0 then 49 else 48) 0x150118) 1

/-- A loss record (R636), with its context, the records lost and its LOCATION. -/
def State.lossRec (s : State) (ctx n location : Nat) : EvtRec :=
  let eng := if s.evt.lost.contains 0 then 49 else 48
  let r : EvtRec :=
    { ftc := BitVec.ofNat 64 s.ftc, source := sourceId s.selfIndex eng 13 0, seq := 0, cls := .corrected, loss := true,
      summary := false, code := 0xF001, ctx := BitVec.ofNat 8 ctx, state := BitVec.ofNat 8 s.modState, tile := 0xFFFF,
      location := BitVec.ofNat 64 location, step := 0, layer := 0, detail := BitVec.ofNat 160 n, tag := 0 }
  { r with tag := s.evtTag r }

/-- Held records written as far as the ring has room. -/
def State.ringDrain : Nat → State → Nat → State
  | 0, s, _ => s
  | fuel + 1, s, m =>
    match mapGet none s.evt.rings m with
    | none => s
    | some g =>
      match g.queue with
      | [] => s
      | r :: rest =>
        if g.tail - g.head < 2 ^ g.k then
          State.ringDrain fuel ((s.ringWrite m { g with queue := rest } r).ringAnnounce m) m
        else s

/-- The head word of a ring read (R572): space returned takes first a loss record for what was dropped, then
the records held inside. -/
def State.ringSpace (s : State) (m : Nat) (head : Nat) : State :=
  match mapGet none s.evt.rings m with
  | none => s
  | some g =>
    let n := 2 ^ g.k
    let g := { g with head := min g.tail (g.head + (head + n - g.head % n) % n) }
    let s := { s with evt := { s.evt with rings := mapSet none s.evt.rings m (some g) } }
    if n ≤ g.tail - g.head then s
    else
      let s := if g.dropped = 0 then s
        else (s.ringWrite m { g with dropped := 0 } (s.lossRec (if m = 0 then 0 else g.ctx) g.dropped 0)).ringAnnounce m
      State.ringDrain g.queue.length s m

/-- Records that the log keeps (R570). -/
def logDepth : Nat := 131072

/-- A record enters both engines' logs with the next LOGSEQ and is offered to the rings. -/
def State.logRec (s : State) (r : EvtRec) : State :=
  let src := r.source.toNat
  let s := { s with evt := { s.evt with
      seqs := mapSet 0 s.evt.seqs src (mapGet 0 s.evt.seqs src + 1),
      log := (r :: s.evt.log).take logDepth, logged := s.evt.logged + 1 } }
  let s := s.bump (regGa ((r.source.toNat / 2 ^ 14) % 64) 0x150100) 1
  if s.evt.lost.length = 2 then s
  else (List.range 8).foldl (fun s m => s.ringOffer r m) s

/-- The rate summary of a source's last second, where records were held back (R568, R635). -/
def State.sendSummary (s : State) (q : EvtReq) : State :=
  let src := (sourceId s.selfIndex q.die q.kind q.inst).toNat
  let st := mapGet (⟨0, 0, 0, 0⟩ : RateSt) s.evt.rates src
  if st.held = 0 then s
  else
    let q' : EvtReq := { q with cls := .corrected, code := 0xF002, ctx := 0, tile := none,
                                location := 0, step := 0, layer := 0,
                                detail := st.first.toNat + st.held * 2 ^ 16 }
    let s := s.logRec (s.mkRec q' true)
    { s with evt := { s.evt with rates := mapSet ⟨0, 0, 0, 0⟩ s.evt.rates src { st with held := 0 } } }

/-- An event raised by a unit. A CORRECTED record beyond EVT_CFG.RATE in its second is counted and
not delivered (R568); FATAL_MODULE enters FAULTED (R564); a CONTAINED record of a tile that works
on a repeat unit brings FAULT into the unit's collection (R564). -/
def State.raise (s : State) (q : EvtReq) : State :=
  let src := (sourceId s.selfIndex q.die q.kind q.inst).toNat
  match q.cls with
  | .corrected =>
    let sec := s.ftc / secondFt
    let st := mapGet (⟨0, 0, 0, 0⟩ : RateSt) s.evt.rates src
    let s := if st.second = sec then s else s.sendSummary q
    let st := if st.second = sec then st else ⟨sec, 0, 0, 0⟩
    let s' (st : RateSt) (s : State) : State :=
      { s with evt := { s.evt with rates := mapSet ⟨0, 0, 0, 0⟩ s.evt.rates src st } }
    if st.sent < s.regField regEvtCfg 15 0 then
      (s' { st with sent := st.sent + 1 } s).logRec (s.mkRec q false)
    else
      (s' { st with held := st.held + 1,
                    first := if st.held = 0 then BitVec.ofNat 16 q.code else st.first } s).bump
        (regGa q.die 0x150108) 1
  | .deferred => s.logRec (s.mkRec q false)
  | .fatal => (s.logRec (s.mkRec q false)).toState 9
  | .contained =>
    let s := s.logRec (s.mkRec q false)
    match q.tile with
    | none => s
    | some t =>
      let x := s.tile t
      if q.kind = 1 ∧ x.seq.unit.isSome then
        s.setTile t { x with seq := { x.seq with fault := true } }
      else s

/-- A CONTAINED event of a tile against a context (kind 0x01 of Table 16.4), with the step and
layer under way. -/
def State.raiseTile (s : State) (t : TileId) (code : Nat) (ctx : CtxId) (location detail : Nat) :
    State :=
  let q := (s.tile t).seq
  s.raise { cls := .contained, code := code, die := tileDie t, kind := 1, inst := tileIdx t,
            ctx := ctx.val, tile := some t, location := location, step := q.step.toNat,
            layer := q.layer, detail := detail }

/-- Record 0x8001 or 0x8003 of a fence (R576, R635), its die or fabric controller the source: the grain,
its identifiers in the order of Table 16.8, and the map version. For grains 0 to 2 TILE holds the tile. -/
def State.raiseFence (s : State) (code grain a b c : Nat) : State :=
  let die := match grain with | 0 | 1 | 3 => a | 2 => a / 12 | _ => 48 + a / 2
  let tile := match grain with
    | 0 | 1 => some (tileOf (a * 12 + b))
    | 2 => some (tileOf a)
    | _ => none
  s.raise { cls := .corrected, code := code, die := die, kind := if grain ≤ 3 then 10 else 9, inst := 0,
            ctx := 0, tile := tile, location := 0, step := 0, layer := 0,
            detail := grain + a * 2 ^ 8 + b * 2 ^ 24 + c * 2 ^ 40 + s.capVersion * 2 ^ 56 }

end Sys2Proof.Machine
end

