-- ==== Sys2Proof/Machine/Fences.lean ====
section
/-!
DEFINITION. The fence list (R576, R577) and the calibration record that keeps it (R467).
-/

namespace Sys2Proof.Machine

/-- A flash device. -/
def State.flashDev (s : State) (d : Nat) : FlashDev := mapGet FlashDev.shipped s.fw.flash d

/-- The state with a flash device replaced. -/
def State.setFlash (s : State) (d : Nat) (x : FlashDev) : State :=
  { s with fw := { s.fw with flash := mapSet FlashDev.shipped s.fw.flash d x } }

/-- The calibration slot in force of a device: the valid one with the higher sequence (R467). -/
def FlashDev.calSlot (x : FlashDev) : Option (Nat × CalRec) :=
  match x.cal.getD 0 none, x.cal.getD 1 none with
  | some a, some b => if a.seq < b.seq then some (1, b) else some (0, a)
  | some a, none => some (0, a)
  | none, some b => some (1, b)
  | none, none => none

/-- A calibration record as it holds when no slot verifies (R467): every fmax 180. -/
def calLost : CalRec := ⟨0, (List.range 576).map fun t => (t, 180), [], []⟩

/-- The record that the flash holds, FL0's first. -/
def State.flashCal (s : State) : Option CalRec :=
  match (s.flashDev 0).calSlot with
  | some e => some e.2
  | none => (s.flashDev 1).calSlot.map (·.2)

/-- The record in force: one that has verified (SEC_STATUS.CAL_OK). -/
def State.calRec (s : State) : CalRec :=
  if s.regField (regGa 48 0x60000) 61 61 = 1 then s.flashCal.getD calLost else calLost

/-- The calibration record changed: on both devices firmware writes the slot that is not in force, signed by
the device key, which it needs for that (R467, R471). -/
def State.calWrite (s : State) (f : CalRec → CalRec) : State :=
  if s.regField (regGa 48 0x60000) 63 63 = 0 then s
  else
    let r := f s.calRec
    let s := ([0, 1] : List Nat).foldl (fun s d =>
      let x := s.flashDev d
      let k := match x.calSlot with
        | some e => 1 - e.1
        | none => 0
      s.setFlash d { x with cal := x.cal.set k (some { r with seq := s.calRec.seq + 1 }) }) s
    (s.setField (regGa 48 0x60000) 61 61 1).setField (regGa 49 0x60000) 61 61 1

/-- Whether a unit is fenced itself, at the grain named. -/
def State.hasFence (s : State) (grain a b c : Nat) : Bool :=
  s.fences.any fun f => decide (f.grain = grain ∧ f.a = a ∧ f.b = b ∧ f.c = c)

/-- A fence entered (R576, R577): recorded for later boots up to 256 entries, but for one that lasts only
while the job runs and one of a tripped die; the map's version advances; record 0x8001. -/
def State.enterFence (s : State) (f : FenceEnt) : State :=
  if s.hasFence f.grain f.a f.b f.c then s
  else
    let s : State := { s with fences := s.fences ++ [f] }
    let s := if f.job ∨ 3 < f.grain ∨ (f.grain = 3 ∧ (s.die f.a).tripped) ∨ 256 ≤ s.calRec.fences.length then s
      else s.calWrite fun r => { r with fences := r.fences ++ [⟨f.grain, f.a, f.b, f.c, f.pkg⟩] }
    s.capBump.raiseFence 0x8001 f.grain f.a f.b f.c

/-- A fence lifted (R582), with record 0x8003. -/
def State.liftFence (s : State) (f : FenceEnt) : State :=
  let same (a : FenceEnt) : Bool := decide (a.grain = f.grain ∧ a.a = f.a ∧ a.b = f.b ∧ a.c = f.c)
  let s : State := { s with fences := s.fences.filter fun a => !(same a) }
  let keep (r : FenceRec) : Bool := !(decide (r.grain = f.grain ∧ r.a = f.a ∧ r.b = f.b ∧ r.c = f.c))
  let s := if s.calRec.fences.all keep then s
    else s.calWrite fun r => { r with fences := r.fences.filter keep }
  s.capBump.raiseFence 0x8003 f.grain f.a f.b f.c

end Sys2Proof.Machine
end

