-- ==== Sys2Proof/Machine/Views.lean ====
section
/-!
DEFINITION. Read-only registers whose value follows from the rest of the state: what a read of them sees.
-/

namespace Sys2Proof.Machine

/-! ### Tiles -/

/-- Recorded fmax of a tile in units of 10 MHz (R467): at most the shipped one, at least 180. -/
def State.fmaxOf (s : State) (t : TileId) : Nat :=
  let ship := (s.fw.images.map fun im => im.fmax.getD t.val 180).getD 180
  max 180 (min ship ((s.calRec.fmax.find? fun e => decide (e.1 = t.val)).elim ship (·.2)))

/-- Planned clock of the loaded job that gives the tile work (R513). -/
def State.plannedOf (s : State) (t : TileId) : Nat :=
  ([0, 1] : List (Fin 2)).foldl (fun m d =>
    if (s.dom d).loaded then max m (mapGet (⟨0, 0, 0⟩ : PlanEnt) (s.dom d).plan t.val).clock else m) 0

/-- Whether a tile is fenced, on its own or with its die. -/
def State.tileOut (s : State) (t : TileId) : Bool := s.tileFenced t.val || s.dieFenced (tileDie t)

/-- TILE_CAP (Table 14.20), zero until it has been written at boot. -/
def State.viewCap (s : State) (t : TileId) : Word :=
  if s.fw.images.isNone then 0
  else
    let out := s.tileOut t
    BitVec.ofNat 64 ((if out then 0 else s.fmaxOf t) * 2 ^ 56 + s.plannedOf t * 2 ^ 48 +
      min 8 (s.fencedCols t).length * 2 ^ 44 + t.val * 2 ^ 34 + (if out then 2 ^ 33 else 0) +
      (if s.arrayFenced t then 2 ^ 32 else 0) + s.width t)

/-- TILE_TSQ_STATUS (Table 9.15): MODE as its domain's (R313), WAITING at a TSQ.HOLD or a hold. -/
def State.viewTsq (s : State) (t : TileId) (w : Word) : Word :=
  let q := (s.tile t).seq
  let a := regGa 48 (0x8020 + 0x20 * q.dom.val)
  let mode := if q.running || (mapGet none (s.dom q.dom).firsts t.val).isSome then s.regField a 55 54 else 0
  let waiting := match q.wait with
    | .hold _ => true
    | _ => q.running && decide (mode = 2)
  putBits (putBits (putBits (putBits w 63 16 q.pc.toNat) 15 12
    ((if q.wideA = 0 then 0 else 1) + (if q.wideR then 2 else 0) + (if q.wideE then 4 else 0))) 11 10 mode) 9 9
    (if waiting then 1 else 0)

/-- MXA_STATUS (Table 3.13); an instruction is one step, so BUSY reads 0. -/
def State.viewMxa (s : State) (t : TileId) (w : Word) : Word :=
  let r := (s.tile t).mxa.run
  let w := putBits w 48 24 ((r.map (·.count)).getD 0)
  let w := putBits w 23 16 ((r.map fun x => toTwos 8 x.anchor).getD 0)
  let w := putBits (putBits w 15 11 ((r.map (·.headroom)).getD 0)) 10 10 (if r.isSome then 1 else 0)
  putBits (putBits w 9 9 (if s.arrayFenced t then 1 else 0)) 7 0 (s.width t)

/-- MXA_FENCE (Table 3.17). -/
def State.viewFence (s : State) (t : TileId) : Word :=
  let cs := (s.fencedCols t).take 8
  BitVec.ofNat 64 (cs.length * 2 ^ 60 + ((List.range 8).zip cs).foldl (fun n e => n + e.2 * 2 ^ (7 * e.1)) 0)

/-- TGE_STATUS (Table 4.9). -/
def State.viewTge (s : State) (t : TileId) : Word :=
  let x := (s.tile t).tge
  let gs := x.groups.filterMap (·.2)
  let n := (x.blocks.filterMap (·.2)).length
  let act := (gs.filter (·.active)).length
  let d := x.launch.map (·.desc)
  let kib := (d.map fun d => (d.shared + 4095) / 4096 * 4).getD 0
  let regs := (d.map fun d => (d.regs + 7) / 8 * 8).getD 0
  BitVec.ofNat 64 (n * kib * 2 ^ 47 + gs.length * 32 * regs * 2 ^ 30 + n * 2 ^ 25 + gs.length * 2 ^ 19 +
    (gs.length - act) * 2 ^ 13 + act * 2 ^ 9 + (if x.launch.isSome then 1 else 0))

/-- VXE_STATUS (Table 5.14); a load is one step, so OUTSTANDING reads 0. -/
def State.viewVxe (s : State) (t : TileId) : Word :=
  let x := (s.tile t).vx
  BitVec.ofNat 64 (x.vlew * 2 ^ 18 + x.vl * 2 ^ 8 + ((x.ep.map fun e => min 31 e.length).getD 0) * 2 ^ 3 +
    (if x.ep.isSome then 4 else 0) + (if x.running then 1 else 0))

/-! ### Throttle -/

/-- Whether a compute die is clamped to its safe floor (R538). -/
def State.clamped (s : State) (d : CdId) : Bool :=
  decide (s.regField (regGa 48 0x130018) 60 60 = 1) || s.pwr.vacant || s.fw.lost.contains (.die d) ||
  decide (s.regField (regGa d.val 0x140000) 46 45 = 2)

/-- Effective throttle of a tile (R537). -/
def State.effThrottle (s : State) (d : CdId) (i : Nat) : Nat :=
  let n := s.regField (regGa d.val (0x130208 + 0x10 * i)) 54 48
  if s.clamped d then min n (s.regField (regGa d.val 0x130110) 4 0) else n

/-! ### Power states -/

/-- The least of the module tolerance and those that contexts have set (R553), in µs. -/
def State.tolOf (s : State) (cs : List CtxId) : Nat :=
  cs.foldl (fun m c => (mapGet none s.fw.tols c.val).elim m fun x => min m x.1) (s.regField (regGa 48 0x130020) 63 32)

/-- Contexts that map memory on a die. -/
def State.mappers (s : State) (d : Nat) : List CtxId :=
  (s.xl.maps.filter fun m => decide (m.ga / 2 ^ 34 = d)).map (·.ctx)

/-- Contexts whose loaded job has a tile of those for which `p` holds, or of a started domain only. -/
def State.jobUsers (s : State) (p : Nat → Bool) (started : Bool) : List CtxId :=
  ([0, 1] : List (Fin 2)).filterMap fun d =>
    let x := s.dom d
    if (if started then x.started else x.loaded) && x.firsts.any fun e => p e.1 then some x.ctx else none

/-- Deepest of PS0 to PS2 that R553 permits a tile. -/
def State.tilePs (s : State) (t : TileId) : Nat :=
  let mine (k : Nat) : Bool := decide (k = t.val)
  let tol := s.tolOf (s.jobUsers mine false ++ s.mappers (tileDie t))
  if 60 ≤ tol ∧ s.jobUsers mine true = [] then 2 else if 2 ≤ tol then 1 else 0

/-- Deepest of PS0 to PS3 that R553 permits a compute die or its tiles. -/
def State.diePs (s : State) (d : Nat) : Nat :=
  let mine (k : Nat) : Bool := decide (k / 12 = d)
  if 2000 ≤ s.tolOf (s.jobUsers mine false ++ s.mappers d) ∧ s.jobUsers mine true = [] then 3
  else (List.range 12).foldl (fun m i => max m (s.tilePs (tileOf (d * 12 + i)))) 0

/-- Whether every context that maps memory on a compute die permits loss, or the module does (R553). -/
def State.lossOk (s : State) : Bool :=
  decide (s.regField (regGa 48 0x130020) 31 31 = 1) ||
  s.xl.maps.all fun m => decide (48 ≤ m.ga / 2 ^ 34) || (mapGet none s.fw.tols m.ctx.val).any (·.2)

/-- PS4 or PS5 where R553 permits it to the compute dies or the module; otherwise 0. -/
def State.modulePs (s : State) : Nat :=
  let tol := s.tolOf ((s.xl.maps.filter fun m => decide (m.ga / 2 ^ 34 < 48)).map (·.ctx))
  if (s.dom 0).loaded || (s.dom 1).loaded || !s.lossOk || decide (tol < 400000) then 0
  else if 3000000 ≤ tol ∧ s.pwr.fwdAt + secondFt ≤ s.ftc then 5 else 4

/-- Deepest state that R553 permits on dies. -/
def State.deepest (s : State) (ds : List Nat) : Nat :=
  if ds = [] then 0 else ds.foldl (fun m d => max m (s.diePs d)) s.modulePs

/-- PWR_TOL (Table 15.12). -/
def State.viewTol (s : State) (w : Word) : Word :=
  let ps := if s.pwr.ps ≠ 0 then s.pwr.ps
    else if (List.range 48).any fun d => decide (s.regField (regGa d 0x130100) 63 61 = 3) then 3 else 0
  putBits (putBits w 5 3 ps) 2 0 (s.deepest (List.range 48))

/-! ### Fabric dies -/

/-- RED_STATUS (Table 10.23): valid descriptors, buckets receiving, combine buffer in use. -/
def State.viewRed (s : State) (fd : Nat) : Word :=
  let base := regGa (48 + fd) 0x10000
  let valid := ((List.range 256).filter fun b => decide (s.regField (base + 0x1000 + 0x40 * b) 63 63 = 1)).length
  let act := ((List.range 256).filter fun b => decide (s.regField (base + 0x6000 + 8 * b) 63 61 = 1)).length
  let groups := s.fab.bkts.foldl (fun n e => if e.1 / 256 = fd then n + e.2.groups.length else n) 0
  BitVec.ofNat 64 (valid * 2 ^ 55 + act * 2 ^ 46 + (groups * 256 + 1023) / 1024 * 2 ^ 30)

/-- UE_STATUS (Table 11.17). -/
def State.viewUe (s : State) (fd : Nat) : Word :=
  let base := regGa (48 + fd) 0x20000
  let ls := List.range 128
  let valid := (ls.filter fun l => decide (s.regField (base + 0x1000 + 0x80 * l) 63 63 = 1)).length
  let ph (l : Nat) : Nat := s.regField (base + 0x5000 + 8 * l) 63 61
  let run := (ls.filter fun l => decide (ph l = 2 ∨ ph l = 3)).length
  let c := mapGet UeSt.reset s.ue fd
  let busy := (List.range 16).foldl (fun n i => if c.layers.any fun e => e.2.cores.contains i then n + 2 ^ i else n) 0
  let held := c.layers.foldl (fun n e => n + e.2.held.length) 0
  BitVec.ofNat 64 (valid * 2 ^ 56 + run * 2 ^ 48 + busy * 2 ^ 32 + held * 2 ^ 23)

/-- MBX_STATUS (Table 14.16), with SC_DIE and DEPUTY_ARMED as kept. -/
def State.viewMbx (s : State) (w : Word) : Word :=
  let live := (List.range 9).foldl (fun n m =>
    if (mapGet Session.reset s.fw.sessions m).live then n + 2 ^ m else n) 0
  let down := ([0, 1, 2, 3] : List FdId).foldl (fun n f => if s.fw.lost.contains (.fabric f) then n + 2 ^ f.val else n) 0
  putBits (putBits (putBits (putBits w 63 60 s.modState) 57 49 live) 48 47 (if s.fw.images.isSome then 3 else 0))
    46 43 down

/-- MBX_SHED (Table 14.17): a pending shed is one that has been deferred. -/
def State.viewShed (s : State) : Word :=
  let stage := if s.fw.stage.isSome then 2 ^ 59 else 0
  match s.fw.shed with
  | none => BitVec.ofNat 64 stage
  | some x => BitVec.ofNat 64 ((if x.late then 2 ^ 63 else 0) + (if x.late && x.auto then 2 ^ 62 else 0) + stage +
      x.images.secVer)

/-- MBX_EFT_DOWN (Table 14.18). -/
def State.viewEft (s : State) : Word :=
  BitVec.ofNat 64 (s.fw.lost.foldl (fun n k => match k with | .die d => n + 2 ^ d.val | _ => n) 0)

/-- EVT_LOG of an engine (Table 16.26): the engine of the system controller's die delivers, or the one left. -/
def State.viewLog (s : State) (e : Nat) : Word :=
  let sc := s.regField (regGa 48 0x50000) 59 59
  let at_ := if s.evt.lost.any fun k => decide (k.val = sc) then 1 - sc else sc
  let on := decide (e = at_) && !(s.evt.lost.any fun k => decide (k.val = e)) && s.fw.images.isSome
  BitVec.ofNat 64 ((if on then 2 ^ 63 else 0) + s.evt.logged % 2 ^ 48)

/-- What a register holds for a reader: the stored value, or for a register that follows from the rest of the
state that value. -/
def State.regView (s : State) (a : Nat) : Word :=
  let die := a / 2 ^ 34
  let o := a % 2 ^ 30
  let w := s.reg a
  if die < 48 then
    if s.pwr.ps = 4 ∨ s.pwr.ps = 5 then 0
    else if o < 0xC0000 then
      let t : TileId := tileOf (die * 12 + o / 0x10000)
      match o % 0x10000 with
      | 0x100 => s.viewCap t
      | 0x500 => s.viewTsq t w
      | 0x508 => BitVec.ofNat 64 ((s.tile t).seq.step.toNat * 2 ^ 32 + (s.tile t).seq.stepBase % 2 ^ 32)
      | 0x1000 => s.viewMxa t w
      | 0x1018 => s.viewFence t
      | 0x2000 => s.viewTge t
      | 0x3000 => s.viewVxe t
      | _ => w
    else if o = 0x110000 then BitVec.ofNat 64 ((mapGet SyncHome.reset s.sy.homes die).queue.length)
    else if 0x130208 ≤ o ∧ o < 0x1302C8 ∧ o % 16 = 8 then
      putBits w 47 41 (s.effThrottle (Fin.ofNat 48 die) ((o - 0x130208) / 16))
    else w
  else
    let fd := die - 48
    match o with
    | 0x8000 => BitVec.ofNat 64 s.ftc
    | 0x10000 => s.viewRed fd
    | 0x20000 => s.viewUe fd
    | 0x110000 => BitVec.ofNat 64 ((mapGet SyncHome.reset s.sy.homes die).queue.length)
    | 0x50000 => s.viewMbx w
    | 0x50008 => s.viewShed
    | 0x50010 => s.viewEft
    | 0x130020 => s.viewTol w
    | 0x140010 => BitVec.ofNat 64 ((List.range 48).foldl (fun n d => if (s.die d).tripped then n + 2 ^ d else n) 0 +
        bits w 51 48 * 2 ^ 48)
    | 0x150008 => s.viewLog fd
    | _ => w

end Sys2Proof.Machine
end

