-- ==== Sys2Proof/Machine/Regs.lean ====
section
/-!
DEFINITION. Reads and writes of control registers by software (R5 to R8, R190), with what a write
brings about besides the fields.
-/

namespace Sys2Proof.Machine

/-- The register that a region-4 address names, if any. -/
def regSpecAt (ga : Nat) : Option RegSpec :=
  match dieKind (ga / 2 ^ 34) with
  | none => none
  | some k => regAt k (ga % 2 ^ 30 / 8 * 8)

/-- What a software read of the register at a region-4 address returns (R6, R7, R190). -/
def State.regLoad (s : State) (ga : Nat) : Word :=
  match regSpecAt ga with
  | none => 0
  | some r => fieldsRead r.fields (s.regView (ga / 8 * 8))

/-- Whether only firmware writes a register's RW fields (R280, R384, R386, R399, R450, R560): an
engine's write is ignored (DEDUCED, log entry 12). -/
def firmwareOnly (ga : Nat) : Bool :=
  let o := ga % 2 ^ 30
  if ga / 2 ^ 34 < 48 then decide ((0x120000 ≤ o ∧ o < 0x121000) ∨ (0x130000 ≤ o ∧ o < 0x140000))
  else decide (o < 0x20000 ∨ (0x21000 ≤ o ∧ o < 0x25000) ∨ (0x30000 ≤ o ∧ o < 0x40000) ∨
    (0x110000 ≤ o ∧ o < 0x140000))

/-- Whether writes from contexts other than 0 are ignored (R599). -/
def systemOnly (ga : Nat) : Bool :=
  let o := ga % 2 ^ 30
  decide (ga / 2 ^ 34 < 48 ∧ o < 0xC0000 ∧ 0x600 ≤ o % 0x10000 ∧ o % 0x10000 < 0x630)

/-- Whether a writer may change a register: firmware (`none`) or an engine of a context. -/
def mayWrite (who : Option Nat) (ga : Nat) : Bool :=
  match who with
  | none => true
  | some c => !(firmwareOnly ga) && (decide (c = 0) || !(systemOnly ga))

/-- MXA_FLAGS and MXA_FLAGPOS: a flag that is cleared clears its sequence and position (R104). -/
def State.mxaFlagsTidy (s : State) (a : Nat) : State :=
  let one (s : State) (k : Nat) : State :=
    if (s.reg a).getLsbD k then s
    else
      let s := s.setField a (27 + 12 * k) (16 + 12 * k) 0
      let s := s.setField (a + 8) (15 + 16 * k) (16 * k) 0
      if k = 0 then s.setField a 10 8 0 else s
  (List.range 4).foldl one s

/-- A field that reads 0 when every flag of its register is clear. -/
def State.tidyFirst (s : State) (a fhi flo hi lo : Nat) : State :=
  if s.regField a fhi flo = 0 then s.setField a hi lo 0 else s

/-- What a software write brings about besides the fields' values: flags that lead other fields
(R104, Tables 5.15, 7.10, 10.24, 11.18), the near cache off (R257), a flush or a pin load started
(Tables 7.7 and 7.8), and the digest key, whose registers are write-only (R423). -/
def State.regEffect (s : State) (a : Nat) (v : Word) : State :=
  let die := a / 2 ^ 34
  let o := a % 2 ^ 30
  if die < 48 ∧ o < 0xC0000 then
    let t := tileOf (die * 12 + o / 0x10000)
    match o % 0x10000 with
    | 0x1008 => s.mxaFlagsTidy a
    | 0x3008 => s.tidyFirst a 4 0 63 16
    | 0x5000 => if (s.reg a).getLsbD 0 then s else s.setTile t { s.tile t with nc := [] }
    | _ => s
  else if die < 48 then
    match o with
    | 0x100000 =>
      if v.getLsbD 2 then (s.setField a 3 3 1).setDie die { s.die die with flushing := true } else s
    | 0x100008 =>
      if v.getLsbD 4 then (s.setField a 5 5 1).setDie die { s.die die with pinLoad := true } else s
    | 0x100010 =>
      if s.regField a 63 62 = 0 then ((s.setField a 61 56 0).setField a 30 30 0).setField a 29 7 0 else s
    | _ => s
  else
    match o with
    | 0x130018 => s.tidyFirst a 63 61 47 0
    | 0x10008 => if s.regField a 63 59 = 0 then s.setReg a 0 else s
    | 0x20008 => s.tidyFirst a 63 58 31 0
    | 0x20020 => s.setReg a v
    | 0x20028 => s.setReg a v
    | _ => s

/-- Whether a write is ignored for the state the unit is in: POOL while blocks are resident (R116). -/
def State.writeHeld (s : State) (a : Nat) : Bool :=
  let die := a / 2 ^ 34
  let o := a % 2 ^ 30
  decide (die < 48 ∧ o < 0xC0000 ∧ o % 0x10000 = 0x2008) &&
    ((s.tile (tileOf (die * 12 + o / 0x10000))).tge.blocks.any fun e => e.2.isSome)

/-- A software write of a register (R6 to R8, R190; none in PS4, R552), by firmware (`none`) or by an engine of a
context. -/
def State.regStore (s : State) (who : Option Nat) (ga : Nat) (v : Word) : State :=
  let a := ga / 8 * 8
  match regSpecAt ga with
  | none => s
  | some r =>
    if !(mayWrite who ga) || s.writeHeld a || decide (4 ≤ s.pwr.ps ∧ ga / 2 ^ 34 < 48) then s
    else (s.setReg a (fieldsWrite r.fields (s.reg a) v)).regEffect a v

end Sys2Proof.Machine
end

