-- ==== Sys2Proof/Machine/LinkSend.lean ====
section
/-!
DEFINITION. What links send: registers of links, flits with credits (R352 to R356, R361), routes (R362),
packets (R368), and the requests that await an answer from another module or from the companion (R295,
R368, R430, R440).
-/

namespace Sys2Proof.Machine

/-! ### Link registers -/

/-- Register of a link at an offset of its block: torus ports under FAB_, companion links under CCL_
(Tables 10.15 and 12.11). -/
def linkReg (l off : Nat) : Nat :=
  if l < 8 then regGa (48 + l / 2) (0x1000 * (l % 2) + off) else regGa (48 + (l - 8)) (0x30000 + off)

/-- STATE of a link (Table 10.17). -/
def State.linkState (s : State) (l : Nat) : Nat := s.regField (linkReg l 8) 63 60

/-- Place of LGEN in a link's status register (Tables 10.17 and 12.13). -/
def genHi (l : Nat) : Nat := if l < 8 then 44 else 56

/-- LGEN of a link. -/
def State.linkGen (s : State) (l : Nat) : Nat := s.regField (linkReg l 8) (genHi l) (genHi l - 7)

/-- A link beyond its registers. -/
def State.link (s : State) (l : Nat) : LinkSt := mapGet LinkSt.reset s.fab.links l

/-- The state with a link replaced. -/
def State.setLink (s : State) (l : Nat) (x : LinkSt) : State :=
  { s with fab := { s.fab with links := mapSet LinkSt.reset s.fab.links l x } }

/-- A port counter advanced (Table 10.21); companion links have none. -/
def State.portBump (s : State) (l off n : Nat) : State := if l < 8 then s.bump (linkReg l off) n else s

/-- Fabric die of a link. -/
def linkDie (l : Nat) : Nat := if l < 8 then 48 + l / 2 else 48 + (l - 8)

/-- An event of a port (kind 0x05). -/
def State.raisePort (s : State) (l : Nat) (cls : EvClass) (code ctx location detail : Nat) : State :=
  s.raise { cls := cls, code := code, die := linkDie l, kind := 5, inst := l, ctx := ctx, tile := none,
            location := location, step := 0, layer := 0, detail := detail }

/-! ### Control messages -/

/-- A control message sent on a link (R352): its type and bits [111:0]. -/
def State.sendControl (s : State) (l kind m : Nat) : State :=
  s.send (.control (Fin.ofNat 10 l) kind (BitVec.ofNat 8 (s.linkGen l)) (BitVec.ofNat 112 m))

/-- CREDIT for a flit that leaves the input buffer (R361, Table 10.5; log entry 31): one credit of the flit's
channel, or of the static buffer, returns to the sender. -/
def State.creditBack (s : State) (p : Nat) (f : Flit) : State :=
  s.sendControl p 2 (if f.fixed_ then 2 ^ 56 else 2 ^ (64 + 8 * min f.hdr.vc.toNat 5))

/-- ACK with the next expected SEQ, with or without NAK (Table 10.5). -/
def State.sendAck (s : State) (l : Nat) (nak : Bool) : State :=
  let x := s.link l
  let s := s.setLink l { x with since := 0, nakAt := if nak then some s.ftc else x.nakAt }
  let s := if nak then s.portBump l 0x130 1 else s
  s.sendControl l 1 (x.expect * 2 ^ 100 + if nak then 2 ^ 99 else 0)

/-- LANE with the receive lanes that are good (R358). -/
def State.sendLane (s : State) (l : Nat) : State :=
  s.sendControl l 4 (s.selfIndex.toNat * 2 ^ 100 + (l % 8) * 2 ^ 97 + ((s.link l).good.getD 0).toNat * 2 ^ 33)

/-! ### Sending flits -/

/-- Retry buffer of a link: flits that may be unacknowledged (R354, R429). -/
def retryMax (l : Nat) : Nat := if l < 8 then 2047 else 1023

/-- Whether a static slot can be active (R316, R335): some started domain is out of a hold and not in
dynamic mode. -/
def State.staticOn (s : State) : Bool :=
  [0, 1].any fun d => (s.dom d).started && !(s.dom d).hold.active && decide ((s.dom d).dyn = .none)

/-- Whether a started domain is in dynamic mode, so that static transfers travel as dynamic traffic
(R333). -/
def State.dynamicOn (s : State) : Bool := [0, 1].any fun d => (s.dom d).started && decide ((s.dom d).dyn ≠ .none)

/-- The credit that a flit uses: its VC, or the static buffer (R361). -/
def Flit.credit (f : Flit) : Nat := if f.fixed_ then 6 else min f.hdr.vc.toNat 5

/-- A flit as it is sent now: a static one in dynamic mode takes VC5. -/
def State.asSent (s : State) (f : Flit) : Flit :=
  if f.fixed_ && s.dynamicOn && !s.staticOn then { f with hdr := { f.hdr with vc := 5 }, fixed_ := false }
  else f

/-- Flits that wait are sent in order (R354, R361): while the link is ACTIVE, the retry buffer has
room, a credit is held, and a static flit's slots are active. -/
def State.pumpN : Nat → State → Nat → State
  | 0, s, _ => s
  | fuel + 1, s, l =>
    let x := s.link l
    match x.txq with
    | [] => s
    | f₀ :: rest =>
      let f := s.asSent f₀
      let c := f.credit
      if s.linkState l ≠ 4 ∨ x.resync ∨ retryMax l ≤ x.retry.length ∨ x.credits.getD c 0 = 0 ∨
          (f.fixed_ ∧ !s.staticOn) then s
      else
        let f : Flit := { f with hdr := { f.hdr with seq := BitVec.ofNat 12 x.next } }
        let y : LinkSt :=
          { x with txq := rest, retry := x.retry ++ [f], next := (x.next + 1) % 4096,
                   credits := x.credits.set c (x.credits.getD c 0 - 1) }
        let s := ((s.setLink l y).portBump l 0x100 1).send (.flit (Fin.ofNat 10 l) f.hdr f.pay)
        State.pumpN fuel s l

/-- Flits that wait on a link are sent (DESIGN CHOICE, log entry 67). -/
def State.pump (s : State) (l : Nat) : State := State.pumpN (s.link l).txq.length s l

/-- A flit given to a link. -/
def State.linkSend (s : State) (l : Nat) (f : Flit) : State :=
  let x := s.link l
  (s.setLink l { x with txq := x.txq ++ [f] }).pump l

/-- Bytes of a flit's payload, byte k at bits [8k+7:8k] (DEDUCED, log entry 13). -/
def payBytes (p : BitVec 1952) : List Byte := leBytes 244 p.toNat

/-- A payload from bytes, zero beyond them. -/
def payOf (bs : List Byte) : BitVec 1952 := BitVec.ofNat 1952 (leNat (bs.take 244))

/-! ### Routing -/

/-- Sizes and coordinates of the torus (R20, R21). -/
def State.torusSize (s : State) (dim : Nat) : Nat :=
  let r := regGa 48 0x2000
  match dim with
  | 0 => s.regField r 59 55
  | 1 => s.regField r 54 50
  | _ => s.regField r 49 45
def coord (index dim : Nat) : Nat := index / 16 ^ dim % 16

/-- Whether a port is unusable (R362): FENCED or OFF. -/
def State.portUnusable (s : State) (p : Nat) : Bool := decide (s.linkState p = 6 ∨ s.linkState p = 0)

/-- next_port of R362, and R363's E port in doubled dimension EDIM: the output for a packet from `src`
to `dst` with a FLOW; `none` is PORT_LOCAL. -/
def State.nextPort (s : State) (src dst flow : Nat) : Option Nat :=
  let self := s.selfIndex.toNat
  let r := regGa 48 0x2000
  ([0, 1, 2].find? fun d => decide (coord self d ≠ coord dst d)).map fun d =>
    let n := s.torusSize d
    let fwd := (coord dst d + n - coord self d) % n
    let plus := decide (n = 2 ∨ fwd ≤ n - fwd)
    let port (plus : Bool) : Nat := 2 * d + if plus then 0 else 1
    let plus := if s.portUnusable (port plus) then !plus else plus
    let odd := (src ^^^ dst ^^^ flow) % 2
    if s.regField r 63 62 = 2 ∧ s.regField r 61 60 = d ∧ odd = 1 then 6 + (if plus then 0 else 1)
    else port plus

/-- Dimension that a port serves, and whether it leaves in the + direction. -/
def State.portDim (s : State) (p : Nat) : Nat × Bool :=
  if p < 6 then (p / 2, decide (p % 2 = 0)) else (s.regField (regGa 48 0x2000) 61 60, decide (p = 6))

/-- Whether leaving through a port crosses a dateline (R362). -/
def State.dateline (s : State) (p : Nat) : Bool :=
  let d := s.portDim p
  let n := s.torusSize d.1
  let c := coord s.selfIndex.toNat d.1
  decide (3 ≤ n) && (if d.2 then decide (c = n - 1) else decide (c = 0))

/-- VC of a packet that leaves through a port (R362): the class's second VC after the dateline, its
first on a change of dimension. `from_` is the input port, `none` at the source. -/
def State.vcOut (s : State) (vc : Nat) (from_ : Option Nat) (out : Nat) : Nat :=
  if 4 ≤ vc then vc
  else
    let base := vc / 2 * 2
    let same := from_.any fun p => decide ((s.portDim p).1 = (s.portDim out).1)
    if s.dateline out then base + 1 else if same then vc else base

/-! ### Packets -/

/-- Header of a dynamic packet as bytes (Table 10.11). -/
def pktBytes (h : PktHdr) : List Byte :=
  leBytes 2 h.dst.toNat ++ leBytes 2 h.src.toNat ++ leBytes 1 h.op.toNat ++ leBytes 1 h.flags.toNat ++
  leBytes 2 h.jobkey.toNat ++ leBytes 5 h.ga.toNat ++ leBytes 1 h.ctx.toNat ++ leBytes 2 h.len.toNat ++
  leBytes 2 h.tag.toNat ++ leBytes 1 h.tagGen.toNat ++ leBytes 1 h.status.toNat ++ leBytes 1 h.fmt.toNat ++
  leBytes 3 0 ++ leBytes 8 h.operand.toNat

/-- A packet's flits (R368): 32 bytes of header and 212 of data in the first, 244 in each after it. -/
def packetFlits (h : PktHdr) (data : List Byte) (vc : Nat) : List Flit :=
  let bs := pktBytes h ++ data
  let n := (bs.length + 243) / 244
  (List.range n).map fun k =>
    ⟨⟨1, BitVec.ofNat 3 vc, 0, decide (k = 0), decide (k + 1 = n), BitVec.ofNat 16 h.dst.toNat,
        BitVec.ofNat 27 k⟩, payOf ((bs.drop (244 * k)).take 244), false⟩

/-- A packet sent towards its destination on its class's VC (R361, R362); one for this module itself
takes PORT_LOCAL. -/
def State.sendPacket (s : State) (h : PktHdr) (data : List Byte) : State :=
  match s.nextPort h.src.toNat h.dst.toNat (h.flags.toNat / 2 % 8) with
  | none => s.send (.packet 0 h data)
  | some p =>
    let vc := s.vcOut (if h.op = 5 then 2 else 0) none p
    let h : PktHdr := { h with flags := if vc % 2 = 1 then h.flags ||| 16 else h.flags &&& 0xEF }
    (packetFlits h data vc).foldl (fun s f => s.linkSend p f) s

/-! ### Requests that await an answer -/

/-- A request given to another module (R368): a tag with its next generation. -/
def State.newReq (s : State) (who : ReqWho) (dst op ctx jobkey ga len fmt operand : Nat) (poison : Bool)
    (data : List Byte) : State :=
  let tag := freeTag s.fab.reqs s.fab.nextTag
  let gen := nextGen (mapGet 0 s.fab.tagGens tag)
  let s := { s with fab := { s.fab with
    reqs := s.fab.reqs ++ [(⟨tag, gen, len, who⟩ : OutReq)], tagGens := mapSet 0 s.fab.tagGens tag gen,
    nextTag := (tag + 1) % 65536 } }
  s.sendPacket
    { dst := BitVec.ofNat 12 dst, src := s.selfIndex, op := BitVec.ofNat 8 op, flags := if poison then 1 else 0,
      jobkey := BitVec.ofNat 16 jobkey, ga := BitVec.ofNat 40 ga, ctx := BitVec.ofNat 8 ctx,
      len := BitVec.ofNat 16 len, tag := BitVec.ofNat 16 tag, tagGen := BitVec.ofNat 8 gen, status := 0,
      fmt := BitVec.ofNat 8 fmt, operand := BitVec.ofNat 64 operand } data

end Sys2Proof.Machine
end

