-- ==== Sys2Proof/Machine/Memory.lean ====
section
/-!
DEFINITION. Memory at its home: bytes, poison and errors (R209 to R221), the home cache (R225 to
R247), near caches (R254 to R256) and the companion's copies (R434 to R437).
-/

namespace Sys2Proof.Machine

/-! ### Addresses -/

/-- DIE of a global address (Table 6.1). -/
def gaDie (ga : Nat) : Nat := ga / 2 ^ 34

/-- REGION of a global address. -/
def gaRegion (ga : Nat) : Nat := ga / 2 ^ 30 % 16

/-- OFFSET of a global address. -/
def gaOff (ga : Nat) : Nat := ga % 2 ^ 30

/-- GA of an offset in a tile's memory (R186). -/
def tmGa (t : TileId) (off : Nat) : Nat := tileDie t * 2 ^ 34 + tileIdx t * 2 ^ 22 + off

/-- Region and line number of a GA on its die: REGION and OFFSET[29:7]. -/
def gaLine (ga : Nat) : Nat := ga % 2 ^ 34 / 128

/-- GA of the first byte of a line of a die. -/
def lineGa (die line : Nat) : Nat := die * 2 ^ 34 + line * 128

/-- Whether an address lies in region 1 or 2 (R225). -/
def homed (ga : Nat) : Bool := decide (gaRegion ga = 1 ∨ gaRegion ga = 2)

/-- The 128-byte lines that n bytes at an address touch, as GAs. -/
def linesOf (ga n : Nat) : List Nat :=
  if n = 0 then [] else
  (List.range ((ga + n - 1) / 128 + 1 - ga / 128)).map fun i => (ga / 128 + i) * 128

/-- Base and size of the poison granule of a byte (Table 6.5). -/
def granule (ga : Nat) : Nat × Nat :=
  if gaRegion ga = 0 then (ga / 64 * 64, 64) else (ga / 128 * 128, 128)

/-- The granules that n bytes touch. -/
def granulesOf (ga n : Nat) : List Nat :=
  if n = 0 then [] else
  let g := (granule ga).2
  (List.range ((ga + n - 1) / g + 1 - ga / g)).map fun i => (ga / g + i) * g

/-! ### Bytes and poison -/

/-- One byte of memory (log entry 1: an unlisted byte reads 0). -/
def State.byte (s : State) (ga : Nat) : Byte := mapGet 0 s.mem ga

/-- n bytes of memory. -/
def State.bytesAt (s : State) (ga n : Nat) : List Byte := (List.range n).map fun i => s.byte (ga + i)

/-- Whether a read of n bytes touches a poisoned granule (R215). -/
def State.poisonedAt (s : State) (ga n : Nat) : Bool :=
  (granulesOf ga n).any fun g => setHas s.poison g

/-- Bytes written one after another. -/
def memPut (m : SMap Byte) (ga : Nat) : List Byte → SMap Byte
  | [] => m
  | b :: rest => memPut (mapSet 0 m ga b) (ga + 1) rest

/-- A store of bytes: granules written whole lose their poison (R217). -/
def State.putBytes (s : State) (ga : Nat) (bs : List Byte) : State :=
  let n := bs.length
  let p := (granulesOf ga n).foldl (fun p g =>
    if ga ≤ g ∧ g + (granule ga).2 ≤ ga + n then setPut p g false else p) s.poison
  { s with mem := memPut s.mem ga bs, poison := p }

/-- Granules that byte ranges of one request, as (address, bytes), cover together lose their poison
(R217). -/
def State.clearCovered (s : State) (l : List (Nat × Nat)) : State :=
  let full (g : Nat) : Bool := (List.range (granule g).2).all fun i =>
    l.any fun r => decide (r.1 ≤ g + i ∧ g + i < r.1 + r.2)
  let p := (l.flatMap fun r => granulesOf r.1 r.2).foldl (fun p g =>
    if setHas p g && full g then setPut p g false else p) s.poison
  { s with poison := p }

/-- HC_ counter of a die by its offset in the block. -/
def hcReg (die off : Nat) : Nat := regGa die (0x100000 + off)

/-- An event of a compute die's home cache and storage (kind 0x04). -/
def State.raiseHome (s : State) (die : Nat) (cls : EvClass) (code ctx location detail : Nat)
    (tile : Option TileId := none) : State :=
  s.raise { cls := cls, code := code, die := die, kind := 4, inst := 0, ctx := ctx, tile := tile,
            location := location, step := 0, layer := 0, detail := detail }

/-- Creating poison (R214): the granule is marked, HC_CNT_UE advances and 0x2002 is raised; in a
granule already poisoned nothing happens. -/
def State.makePoison (s : State) (ga : Nat) : State :=
  let g := (granule ga).1
  if setHas s.poison g then s
  else
    let s := { s with poison := setPut s.poison g true }
    let s := s.bump (hcReg (gaDie g) 0xF08) 1
    s.raiseHome (gaDie g) .deferred 0x2002 0 g (gaRegion g)

/-- A corrected error (R213): counted, and an event at most once a second for each die. -/
def State.corrected (s : State) (die : Nat) : State :=
  let s := s.bump (hcReg die 0xF00) 1
  let sec := s.ftc / secondFt
  let x := s.die die
  if x.ceSec = some sec then s
  else (s.setDie die { x with ceSec := some sec }).raiseHome die .corrected 0x2001 0 0 0

/-! ### Home-cache sets -/

/-- Set of a line: OFFSET[20:7] (R226). -/
def hcSetOf (line : Nat) : Nat := line % 16384

/-- The lines of the set that a line falls in, most recent first. -/
def DieSt.set (x : DieSt) (line : Nat) : List HcLine := mapGet [] x.sets (hcSetOf line)

/-- The die with that set replaced. -/
def DieSt.putSet (x : DieSt) (line : Nat) (l : List HcLine) : DieSt :=
  { x with sets := mapSet [] x.sets (hcSetOf line) l }

/-- The cached line, if present. -/
def DieSt.find (x : DieSt) (line : Nat) : Option HcLine := (x.set line).find? (·.line = line)

/-- The set without a line. -/
def dropLine (l : List HcLine) (line : Nat) : List HcLine := l.filter (·.line ≠ line)

/-- PIN_WAYS of a die (Table 7.8). -/
def State.pinWays (s : State) (die : Nat) : Nat := s.regField (hcReg die 8) 3 0

/-- Whether a line lies in a valid pin range (R235, Table 7.9). -/
def State.inPin (s : State) (die line : Nat) : Bool :=
  let region := line / 2 ^ 23
  let unit := line % 2 ^ 23 / 512
  (List.range 8).any fun n =>
    let r := s.reg (hcReg die (0x40 + 8 * n))
    let last := if region = 1 then 3327 else 8191
    decide (bits r 63 63 = 1 ∧ bits r 62 62 + 1 = region ∧ bits r 13 0 ≤ bits r 45 32 ∧
      bits r 45 32 ≤ last ∧ bits r 13 0 ≤ unit ∧ unit ≤ bits r 45 32)

/-- Element size in bytes of an add-to-line format (Table 7.3). -/
def redSize (fmt : Nat) : Nat :=
  match fmt with
  | 0 => 4
  | 1 => 8
  | 2 => 4
  | 3 => 8
  | 4 => 2
  | _ => 4

/-- One element's addition (Table 7.3): bits, EOVF, SPECIAL. -/
def redAdd (fmt a b : Nat) : Nat × Bool × Bool :=
  match fmt with
  | 0 => ((a + b) % 2 ^ 32, false, false)
  | 1 => ((a + b) % 2 ^ 64, false, false)
  | 2 => let r := esfAddSat 32 a b; (r.1, r.2, decide (r.1 = esfSpecial 32))
  | 3 => let r := esfAddSat 64 a b; (r.1, r.2, decide (r.1 = esfSpecial 64))
  | 4 => let r := fmt16.encode (FVal.add (fmt16.decode a) (fmt16.decode b))
         (r, false, (fmt16.decode r).isNan)
  | _ => let r := fmt32.encode (FVal.add (fmt32.decode a) (fmt32.decode b))
         (r, false, (fmt32.decode r).isNan)

/-- Element i of a line in a format. -/
def redElem (fmt : Nat) (w : BitVec 1024) (i : Nat) : Nat :=
  (w.toNat >>> (8 * redSize fmt * i)) % 2 ^ (8 * redSize fmt)

/-- A contribution's value in its first n elements, with zero in masked-off elements (R240) (DEDUCED, log entry 57). -/
def redTake (fmt : Nat) (add : BitVec 1024) (mask : BitVec 64) : Nat → BitVec 1024
  | 0 => 0
  | i + 1 =>
    let e := if mask.getLsbD i then redElem fmt add i else 0
    redTake fmt add mask i ||| (BitVec.ofNat 1024 e <<< (8 * redSize fmt * i))

/-- A line's value with masked contributions added, element by element; with the flags of the additions made:
EOVF, SPECIAL. -/
def redLine (fmt : Nat) (old add : BitVec 1024) (mask : BitVec 64) : Nat → BitVec 1024 × Bool × Bool
  | 0 => (0, false, false)
  | i + 1 =>
    let r := redLine fmt old add mask i
    let w := 8 * redSize fmt
    let e := if mask.getLsbD i then redAdd fmt (redElem fmt old i) (redElem fmt add i)
      else (redElem fmt old i, false, false)
    (r.1 ||| (BitVec.ofNat 1024 e.1 <<< (w * i)), r.2.1 || e.2.1, r.2.2 || e.2.2)

/-- Elements in a line of a format. -/
def redCount (fmt : Nat) : Nat := 128 / redSize fmt

/-- HC_RED_FLAGS set by an addition: the first flagged line and its context are recorded while
both flags are clear (R243, Table 7.10). -/
def State.redFlag (s : State) (die line : Nat) (ctx : CtxId) (layer fmt : Nat) (eovf special : Bool) : State :=
  if !(eovf || special) then s
  else
    let a := hcReg die 0x10
    let r := s.reg a
    let r := if bits r 63 62 = 0 then
        putBits (putBits (putBits r 61 56 ctx.val) 30 30 (line / 2 ^ 23 - 1)) 29 7 (line % 2 ^ 23)
      else r
    let r := if eovf then putBits r 63 63 1 else r
    (s.setReg a (if special then putBits r 62 62 1 else r)).note ctx
      ⟨BitVec.ofNat 32 layer, false, false, eovf, special, decide (eovf = true ∧ fmt = 3)⟩

/-- The bytes of a line as one value. -/
def State.lineVal (s : State) (die line : Nat) : BitVec 1024 :=
  BitVec.ofNat 1024 (leNat (s.bytesAt (lineGa die line) 128))

/-- A line's value written over its bytes, poison untouched. -/
def State.putLine (s : State) (die line : Nat) (v : BitVec 1024) : State :=
  { s with mem := memPut s.mem (lineGa die line) (leBytes 128 v.toNat) }

/-- A reduction entry written through (R241): its sum is added into SRAM, unless the line is
poisoned (R243), and the entry leaves. -/
def State.writeThrough (s : State) (die : Nat) (h : HcLine) : State :=
  let x := s.die die
  let s := s.setDie die (x.putSet h.line (dropLine (x.set h.line) h.line))
  let s := s.bump (hcReg die 0x520) 1
  match h.st with
  | .red fmt ctx layer sum =>
    if setHas s.poison (lineGa die h.line) then s
    else
      let r := redLine fmt (s.lineVal die h.line) sum (BitVec.allOnes 64) (redCount fmt)
      (s.putLine die h.line r.1).redFlag die h.line ctx layer fmt r.2.1 r.2.2
  | _ => s

/-- A line that leaves its way: written back when dirty, written through as an entry (R227). -/
def State.evict (s : State) (die : Nat) (h : HcLine) : State :=
  match h.st with
  | .red _ _ _ _ => s.writeThrough die h
  | st =>
    let x := s.die die
    let s := s.setDie die (x.putSet h.line (dropLine (x.set h.line) h.line))
    if st = .dirty then s.bump (hcReg die 0x518) 1 else s

/-- Least recent line of a priority among the unpinned ways. -/
def lruOf (l : List HcLine) (ways : Nat) (p : Prio) : Option HcLine :=
  (l.filter fun h => decide (h.prio = p ∧ ways ≤ h.way)).getLast?

/-- The lowest way of a range that no line of the set uses. -/
def freeWay (l : List HcLine) (lo hi : Nat) : Option Nat :=
  (List.range hi).find? fun w => decide (lo ≤ w) && l.all (fun h => decide (h.way ≠ w))

/-- The least recent keep line drops to normal where one more would exceed 14 − PIN_WAYS (R228);
the line itself is not counted. -/
def State.keepLimit (s : State) (die line : Nat) : State :=
  let x := s.die die
  let l := x.set line
  let keeps := l.filter fun h => decide (h.prio = .keep ∧ h.line ≠ line)
  if keeps.length < 14 - s.pinWays die then s
  else
    match keeps.getLast? with
    | none => s
    | some k =>
      (s.setDie die (x.putSet line
        (l.map fun h => if h.line = k.line then { h with prio := .normal } else h))).bump
        (hcReg die 0x548) 1

/-- A line allocated at a priority (R227, R228, R235), as the most recent of its set. -/
def State.hcAlloc (s : State) (die line : Nat) (st : LineSt) (p : Prio) : State :=
  let ways := s.pinWays die
  let free := freeWay ((s.die die).set line) 0 ways
  match p, free with
  | .pinned, some w =>
    let x := s.die die
    s.setDie die (x.putSet line (⟨w, line, st, .pinned⟩ :: x.set line))
  | _, _ =>
    let s := if p = .pinned then s.bump (hcReg die 0x540) 1 else s
    let p' := if p = .keep then Prio.keep else Prio.normal
    let s := if p' = .keep then s.keepLimit die line else s
    let l := (s.die die).set line
    let s := match freeWay l ways 16 with
      | some _ => s
      | none =>
        match lruOf l ways .normal with
        | some v => s.evict die v
        | none => (lruOf l ways .keep).elim s (s.evict die)
    let x := s.die die
    match freeWay (x.set line) ways 16 with
    | none => s
    | some w => s.setDie die (x.putSet line (⟨w, line, st, p'⟩ :: x.set line))

/-- A present line changed and moved to the front of its set. -/
def State.hcTouch (s : State) (die line : Nat) (f : HcLine → HcLine) : State :=
  let x := s.die die
  match x.find line with
  | none => s
  | some h => s.setDie die (x.putSet line (f h :: dropLine (x.set line) line))

/-- A present line made the least recent of its set (stream hint, Table 7.2). -/
def State.hcLeast (s : State) (die line : Nat) : State :=
  let x := s.die die
  match x.find line with
  | none => s
  | some h => s.setDie die (x.putSet line (dropLine (x.set line) line ++ [h]))

/-- A line given keep priority by a hit (R228, Table 7.2); a pinned line stays pinned. -/
def State.hcKeep (s : State) (die line : Nat) : State :=
  match (s.die die).find line with
  | none => s
  | some h =>
    if h.prio = .normal then
      (s.keepLimit die line).hcTouch die line fun h => { h with prio := .keep }
    else s.hcTouch die line id

/-! ### Fills, streams, counters -/

/-- A request counted as a hit or a miss in a class (R259). -/
def State.hcCount (s : State) (die cls : Nat) (hit : Bool) : State :=
  s.bump (hcReg die (0x400 + 16 * cls + (if hit then 0 else 8))) 1

/-- The higher of two fill priorities, in the order keep, normal, none (R234). -/
def maxPrio (a b : Option Prio) : Option Prio :=
  if a = some .pinned ∨ b = some .pinned then some .pinned
  else if a = some .keep ∨ b = some .keep then some .keep
  else if a = some .normal ∨ b = some .normal then some .normal
  else none

/-- A fill that ends: the line is allocated at the priority its requests called for (R234). -/
def State.fillDone (s : State) (die line : Nat) : State :=
  let x := s.die die
  match x.fills.find? (·.line = line) with
  | none => s
  | some f =>
    let s := s.setDie die { x with fills := x.fills.filter (·.line ≠ line) }
    match f.prio, (s.die die).find line with
    | some p, none => s.hcAlloc die line .clean p
    | _, _ => s

/-- Stream entries still alive: matched within 4,096 ft (R232). -/
def liveStreams (l : List StreamEnt) (ftc : Nat) : List StreamEnt :=
  l.filter fun e => decide (ftc < e.ftc + 4096)

/-- The stream detector on a normal-hinted read miss (R232): whether the miss belongs to a
detected stream. -/
def State.streamMiss (s : State) (die : Nat) (a : Agent) (line : Nat) : Bool × State :=
  if s.regField (hcReg die 0) 0 0 = 0 then (false, s)
  else
    let x := s.die die
    let region := line / 2 ^ 23
    let l := liveStreams x.streams s.ftc
    let hit := l.find? fun e => decide (e.agent = a ∧ e.region = region ∧
      (line = e.last + 1 ∨ line + 1 = e.last))
    match hit with
    | some e =>
      let up := decide (line = e.last + 1)
      let turn := decide (e.up = some (!up))
      let n := if turn then 1 else e.count + 1
      let e' : StreamEnt := ⟨a, region, line, some up, n, s.ftc⟩
      let s := s.setDie die { x with streams := e' :: l.filter (· ≠ e) }
      (decide (4 ≤ n), if n = 4 ∧ ¬ turn then s.bump (hcReg die 0x500) 1 else s)
    | none =>
      let l := if l.length < 64 then l else l.dropLast
      (false, s.setDie die { x with streams := ⟨a, region, line, none, 1, s.ftc⟩ :: l })

/-! ### Companion copies and waiting -/

/-- Whether a link is ACTIVE: STATE of the port's status register (Tables 10.17 and 12.13). -/
def State.cclActive (s : State) (p : Fin 2) : Bool :=
  decide (s.regField (regGa (48 + p.val) 0x30008) 63 60 = 4)

/-- Companion address of a GA, through the aperture (R431). -/
def State.apertureAddr (s : State) (ga : Nat) : BitVec 52 :=
  BitVec.ofNat 52 (s.regField (regGa 48 0x30010) 11 0 * 2 ^ 40 + ga)

/-- A snoop sent for a line (R436, R437), on the recorded port or, when that is not ACTIVE, on
the other. -/
def State.sendSnoop (s : State) (die : Nat) (e : DirEnt) (inv : Bool) : State :=
  let p := if s.cclActive e.port then e.port else (if e.port = 0 then 1 else 0)
  let x := s.die die
  let tag := s.ftc % 65536
  let s := s.setDie die { x with snoops := x.snoops ++ [⟨e.line, p, inv, false, tag⟩] }
  let s := s.cclBump 0x300 1
  s.send (.cclSnoop p inv (s.apertureAddr (lineGa die e.line)) tag)

/-- A backing copy's line asked for (R221, R440): from companion memory or from the peer. -/
def State.askBacking (s : State) (die line : Nat) : State :=
  let ga := lineGa die line
  let m := s.xl.maps.find? fun m => m.backed &&
    decide (m.ga ≤ ga ∧ ga < m.ga + (if m.big then 2 ^ 21 else 2 ^ 16))
  let s := s.setDie die { s.die die with heals := (s.die die).heals ++ [line] }
  match m with
  | none => s
  | some m =>
    match mapGet none s.xl.backings m.ga with
    | some (.companion a) =>
      s.cclAsk (if s.cclActive 0 then 0 else 1) (.heal die line) (a + BitVec.ofNat 52 (ga - m.ga)) 128
    | some (.peer module base) =>
      let key := ([0, 1].find? fun d => (s.dom d).loaded && decide ((s.dom d).ctx = m.ctx)).elim 0
        fun d => (s.dom d).key.toNat
      s.newReq (.heal die line) module.toNat 1 m.ctx.val key (base.toNat + (ga - m.ga)) 128 0 0 false []
    | none => s

/-- Whether a line lies in a page with a registered backing copy (R221). -/
def State.backedLine (s : State) (ga : Nat) : Bool :=
  s.xl.maps.any fun m => m.backed &&
    decide (m.ga ≤ ga ∧ ga < m.ga + (if m.big then 2 ^ 21 else 2 ^ 16))

/-- An uncorrectable or correctable error met by an access or by the patrol scrubber (R213, R214,
R218, R221). -/
def State.meetErr (s : State) (die : Nat) (e : StoredErr) : State :=
  let x := s.die die
  let line := gaLine e.ga
  let s := s.setDie die { x with errs := x.errs.filter (· ≠ e) }
  let copy := if homed e.ga then x.find line else none
  if e.correct then s.corrected die
  else if e.cached then
    match copy with
    | some h => if h.st = .dirty then (s.evict die h).makePoison e.ga else s.evict die h
    | none => s
  else
    match copy with
    | some h =>
      match h.st with
      | .red _ _ _ _ => s.makePoison e.ga
      | _ => (s.hcTouch die line fun h => { h with st := .clean }).corrected die
    | none => if s.backedLine e.ga then s.askBacking die line else s.makePoison e.ga

/-- Errors present in a line of storage. -/
def State.errsIn (s : State) (ga : Nat) : List StoredErr :=
  (s.die (gaDie ga)).errs.filter fun e => decide (e.ga / 128 = ga / 128)

/-- Makes the access to a line ready: meets its errors, and starts the snoop that the companion's
copy calls for (R436). Answers whether the access must wait: for a snoop, a heal, or the line's
earlier accesses behind them. -/
def State.readyLine (s : State) (ga : Nat) (write : Bool) : Bool × State :=
  if gaRegion ga = 0 then (false, (s.errsIn ga).foldl (fun s e => s.meetErr (gaDie ga) e) s)
  else if !(homed ga) then (false, s)
  else
    let die := gaDie ga
    let line := gaLine ga
    let s := if write then s else (s.errsIn ga).foldl (fun s e => s.meetErr die e) s
    let x := s.die die
    if x.heals.contains line then (true, s)
    else if x.snoops.any (·.line = line) then (true, s)
    else
      match x.dir.find? (·.line = line) with
      | none => (false, s)
      | some e =>
        if write then (true, s.sendSnoop die e true)
        else if e.owned then (true, s.sendSnoop die e false)
        else (false, s)

/-- All lines of an access made ready; whether any must wait. -/
def State.readyLines (s : State) : List (Nat × Bool) → Bool × State
  | [] => (false, s)
  | (ga, w) :: rest =>
    let r := s.readyLine ga w
    let r' := r.2.readyLines rest
    (r.1 || r'.1, r'.2)

/-! ### Near caches -/

/-- Set of a near-cache line: GA[17:7] (R254); a window line by its offset likewise. -/
def ncSetOf (k : NcKey) : Nat :=
  match k with
  | .ga line => line % 2048
  | .window _ line => line % 2048

/-- The line held for a key. -/
def TileSt.ncFind (x : TileSt) (k : NcKey) : Option NcLine :=
  (mapGet [] x.nc (ncSetOf k)).find? (·.key = k)

/-- A line made the most recent of its set, with keep priority where the hint gives it. -/
def TileSt.ncTouch (x : TileSt) (k : NcKey) (keep : Bool) : TileSt :=
  let l := mapGet [] x.nc (ncSetOf k)
  match l.find? (·.key = k) with
  | none => x
  | some h =>
    let l' := { h with keep := h.keep || keep } :: l.filter (·.key ≠ k)
    { x with nc := mapSet [] x.nc (ncSetOf k) l' }

/-- Keep lines of a near-cache set limited to 6 of 8 ways (R254, R228). -/
def ncKeepLimit (l : List NcLine) : List NcLine :=
  let keeps := l.filter (·.keep)
  if keeps.length < 6 then l
  else
    match keeps.getLast? with
    | none => l
    | some k => l.map fun h => if h.key = k.key then { h with keep := false } else h

/-- A line filled into the near cache: an invalid way, else the least recent line without keep,
else the least recent keep line, is replaced (R254, R227). -/
def TileSt.ncFill (x : TileSt) (k : NcKey) (keep : Bool) (data : BitVec 1024) : TileSt :=
  let l := (mapGet [] x.nc (ncSetOf k)).filter (·.key ≠ k)
  let l := if keep then ncKeepLimit l else l
  let used (w : Nat) : Bool := l.any fun h => decide (h.way = w)
  let victim := match (l.filter (! ·.keep)).getLast? with
    | some v => some v
    | none => l.getLast?
  match (List.range 8).find? (fun w => !(used w)), victim with
  | some w, _ => { x with nc := mapSet [] x.nc (ncSetOf k) (⟨k, w, keep, data⟩ :: l) }
  | none, some v =>
    { x with nc := mapSet [] x.nc (ncSetOf k) (⟨k, v.way, keep, data⟩ :: l.filter (·.key ≠ v.key)) }
  | none, none => x

/-- NC_ register of a tile by its offset in the block. -/
def ncReg (t : TileId) (off : Nat) : Nat := tileReg t (0x5000 + off)

/-- Whether a 4 KiB granule of module memory holds a line. -/
def inGranule (gran : Nat) (k : NcKey) : Bool :=
  match k with
  | .ga line => decide (line / 32 = gran)
  | .window _ _ => false

/-- One near cache drops its lines of a granule (R256). -/
def State.ncDrop (s : State) (gran : Nat) (t : TileId) : State :=
  let x := s.tile t
  let nc := x.nc.map fun e => (e.1, e.2.filter fun h => !(inGranule gran h.key))
  (s.setTile t { x with nc := nc.filter (·.2 ≠ []) }).bump (ncReg t 0x110) 1

/-- The granule of a GA invalidated in every near cache of the module (R256). -/
def State.ncInvalidate (s : State) (ga : Nat) : State :=
  let s := (List.finRange 576).foldl (fun s t => s.ncDrop (ga / 4096) t) s
  s.bump (hcReg (gaDie ga) 0x550) 1

/-- Whether any context maps a GA near-cache eligible. -/
def State.nceLine (s : State) (ga : Nat) : Bool :=
  s.xl.maps.any fun m => m.nce &&
    decide (m.ga ≤ ga ∧ ga < m.ga + (if m.big then 2 ^ 21 else 2 ^ 16))

/-- Before a write by an agent other than a tile: the invalidation of R256. -/
def State.beforeForeignWrite (s : State) (ga : Nat) : State :=
  if s.nceLine ga then s.ncInvalidate ga else s

/-! ### Accesses at the home cache -/

/-- The effective hint of a read or store: discard acts as normal unless honoured (R245). -/
def effHint (hint : Nat) (honoured : Bool) : Nat := if hint = 3 ∧ !honoured then 0 else hint

/-- Counter class of a request (Table 7.11). -/
def classOf (pin runAhead stream : Bool) (hint : Nat) : Nat :=
  if pin then 4
  else if runAhead then 7
  else if hint = 4 then 6
  else if hint = 3 then 3
  else if hint = 2 then 2
  else if hint = 1 ∨ stream then 1
  else 0

/-- What a read of a line at its home answers: its state after, and whether it must wait for a
fill entry or a place in a fill (R233). -/
def State.hcRead (s : State) (die : Nat) (a : Agent) (line hint : Nat) (runAhead : Bool) :
    Bool × State :=
  let s := match (s.die die).find line with
    | some h => (match h.st with | .red _ _ _ _ => s.writeThrough die h | _ => s)
    | none => s
  let pin := s.inPin die line
  match (s.die die).find line with
  | some h =>
    let s := s.hcCount die (classOf pin runAhead false hint) true
    if pin then (false, s.hcTouch die line id)
    else if hint = 1 then (false, s.hcLeast die line)
    else if hint = 2 then (false, s.hcKeep die line)
    else if hint = 3 then
      if h.prio = .pinned then (false, s.hcTouch die line id)
      else
        let s := s.evict die h
        if s.regField (hcReg die 0) 1 1 = 0 then (false, s)
        else
          let x := s.die die
          let dead := x.dead.filter (· ≠ line)
          let full := decide (8192 ≤ dead.length)
          let s := s.setDie die { x with dead := (if full then dead.drop 1 else dead) ++ [line] }
          (false, if full then s.bump (hcReg die 0x538) 1 else s)
    else (false, s.hcTouch die line id)
  | none =>
    let x := s.die die
    match x.fills.find? (·.line = line) with
    | some f =>
      if 32 ≤ f.joined then (true, s)
      else
        let want : Option Prio := if pin then some .pinned else if hint = 2 then some .keep
          else if hint = 0 ∧ 2 ^ 24 ≤ line then some .normal else none
        let f' : Fill := ⟨line, maxPrio f.prio want, f.joined + 1⟩
        let s := s.setDie die { x with fills := x.fills.map fun g => if g.line = line then f' else g }
        let s := s.hcCount die (classOf pin runAhead false hint) false
        (false, s.bump (hcReg die 0x508) 1)
    | none =>
      let sd := if hint = 0 ∧ !pin ∧ !runAhead then s.streamMiss die a line else (false, s)
      let s := sd.2
      let want : Option Prio :=
        if pin then some .pinned
        else if hint = 2 then some .keep
        else if runAhead then some .normal
        else if hint = 0 ∧ 2 ^ 24 ≤ line ∧ !sd.1 then some .normal
        else none
      match want with
      | none => (false, s.hcCount die (classOf pin runAhead sd.1 hint) false)
      | some p =>
        let x := s.die die
        if 512 ≤ x.fills.length then (true, s.bump (hcReg die 0x510) 1)
        else
          let s := s.hcCount die (classOf pin runAhead sd.1 hint) false
          (false, s.setDie die { s.die die with fills := (s.die die).fills ++ [⟨line, some p, 1⟩] })

/-- The cache's part of a store or atomic on a line (Table 7.2, R235, R242). -/
def State.hcStore (s : State) (die line hint : Nat) (full : Bool) : State :=
  let s := s.fillDone die line
  let s := match (s.die die).find line with
    | some h => (match h.st with | .red _ _ _ _ => s.writeThrough die h | _ => s)
    | none => s
  let s := s.setDie die { s.die die with dead := (s.die die).dead.filter (· ≠ line) }
  let pin := s.inPin die line
  let hit := ((s.die die).find line).isSome
  let s := s.hcCount die (classOf pin false false hint) hit
  if hit then
    let s := s.hcTouch die line fun h => { h with st := .dirty }
    if hint = 2 ∧ !pin then s.hcKeep die line else s
  else if pin then s.hcAlloc die line .dirty .pinned
  else if hint = 2 then s.hcAlloc die line .dirty .keep
  else if hint ≠ 1 ∧ full then s.hcAlloc die line .dirty .normal
  else s

/-- A reduce-write performed at its home (R238 to R243). -/
def State.hcReduce (s : State) (die line fmt : Nat) (ctx : CtxId) (layer : Nat) (mask : BitVec 64)
    (data : BitVec 1024) : State :=
  let s := s.fillDone die line
  let s := s.setDie die { s.die die with dead := (s.die die).dead.filter (· ≠ line) }
  let cls := if s.inPin die line then 4 else 5
  let n := redCount fmt
  let fresh (s : State) : State :=
    let s := s.hcCount die cls false
    s.hcAlloc die line (.red fmt ctx layer (redTake fmt data mask n)) (if s.inPin die line then .pinned else .normal)
  match (s.die die).find line with
  | none => fresh s
  | some h =>
    match h.st with
    | .red f c l sum =>
      if f = fmt then
        let s := s.hcCount die cls true
        let r := redLine fmt sum data mask n
        (s.hcTouch die line fun h => { h with st := .red f c l r.1 }).redFlag die line ctx layer fmt
          r.2.1 r.2.2
      else fresh (s.writeThrough die h)
    | _ =>
      let s := s.hcCount die cls true
      if setHas s.poison (lineGa die line) then s
      else
        let r := redLine fmt (s.lineVal die line) data mask n
        ((s.putLine die line r.1).hcTouch die line fun h => { h with st := .dirty }).redFlag die line
          ctx layer fmt r.2.1 r.2.2

end Sys2Proof.Machine
end

