-- ==== Sys2Proof/Machine/Access.lean ====
section
/-!
DEFINITION. Accesses by the engines of a tile: translation (R195 to R207), the checks of R187 and
R188, and loads, stores and atomics at their home.
-/

namespace Sys2Proof.Machine

/-! ### Translation -/

/-- Kind of an access, as TILE_XLT_FAULT.KIND numbers it (Table 6.12). -/
inductive XKind where
  | load | store | atomic | fetch
  deriving DecidableEq, Repr

/-- KIND encoding. -/
def XKind.code : XKind → Nat
  | .load => 0
  | .store => 1
  | .atomic => 2
  | .fetch => 3

/-- What an address with DIE = 63 is used for (R188). -/
inductive XUse where
  | plain
  | syncInitOrSig
  | syncOther
  deriving DecidableEq, Repr

/-- A translated address: GA and the attributes that later rules use. -/
structure XlOk where
  ga  : Nat
  nce : Bool
  dar : Bool
  pf  : Bool
  deriving DecidableEq, Repr

/-- Size of a region on a die (Table 6.2); `none` where the die has none. -/
def regionSize (die region : Nat) : Option Nat :=
  if region = 4 then some (2 ^ 30)
  else if die < 48 ∨ die = 63 then
    match region with
    | 0 => some (2 ^ 26)
    | 1 => some (208 * 2 ^ 20)
    | 2 => some (512 * 2 ^ 20)
    | 3 => some (2 ^ 19)
    | _ => none
  else if region = 3 then some (2 ^ 17)
  else none

/-- Whether a fabric die's power is off after a trip (R549): THM_DIEOFF.FD. -/
def State.fdTripped (s : State) (fd : Nat) : Bool :=
  (s.reg (regGa 48 0x140010)).getLsbD (48 + fd)

/-- Compute dies strictly between two positions of a mesh line, `step` dies apart. -/
def between (a b step : Nat) : List Nat :=
  let lo := min a b
  (List.range ((max a b - lo) / step - 1)).map fun k => lo + step * (k + 1)

/-- Whether a request can go from one compute die to another (R193, R576): column first, that is to the
target's column and then along it (DEDUCED, log entry 34); round tripped dies by the forms of R576. -/
def State.meshReaches (s : State) (a b : Nat) : Bool :=
  let clear (l : List Nat) : Bool := l.all fun d => !(s.die d).tripped
  let ca := a % 6
  let cb := b % 6
  let corner1 := a / 6 * 6 + cb
  let corner2 := b / 6 * 6 + ca
  if a = b then true
  else if a / 6 ≠ b / 6 ∧ ca ≠ cb then
    clear (between a corner1 1 ++ [corner1] ++ between corner1 b 6) ||
    clear (between a corner2 6 ++ [corner2] ++ between corner2 b 1)
  else if ca = cb then
    let side (d : Nat) : Nat := if ca = 0 then d + 1 else d - 1
    clear (between a b 6) || clear (side a :: between (side a) (side b) 6 ++ [side b])
  else
    let side (d : Nat) : Nat := if a / 6 = 0 then d + 6 else d - 6
    clear (between a b 1) || clear (side a :: between (side a) (side b) 1 ++ [side b])

/-- Compute dies by which a die joins the mesh: itself, or those that attach to a fabric die (R13). -/
def meshEnds (d : Nat) : List Nat :=
  if d < 48 then [d]
  else
    match d - 48 with
    | 0 => List.range 6
    | 1 => (List.range 6).map (· + 42)
    | 2 => (List.range 8).map (· * 6)
    | _ => (List.range 8).map (· * 6 + 5)

/-- Whether some path that R576 allows leads from one die to another. -/
def State.pathOpen (s : State) (a b : Nat) : Bool :=
  decide (a = b) ||
  !((List.range 48).any fun d => (s.die d).tripped) ||
  (meshEnds a).any fun x => !(s.die x).tripped && (meshEnds b).any fun y => !(s.die y).tripped && s.meshReaches x y

/-- The check of R187 on a global address, DIE = 63 apart: the first cause that holds, 6 for an
address fault, 7 for a fenced target (Table 6.11). A target that no path from the die `src` reaches
counts as fenced (R576). -/
def State.gaCause (s : State) (src ga : Nat) : Option Nat :=
  let die := gaDie ga
  let region := gaRegion ga
  let off := gaOff ga
  let unreached : Option Nat := if s.pathOpen src die then none else some 7
  if 52 ≤ die then some 6
  else
    match regionSize die region with
    | none => some 6
    | some size =>
      if die < 48 ∧ (s.dieFenced die ∨ (s.die die).tripped) then some 7
      else if 48 ≤ die ∧ s.fdTripped (die - 48) then some 7
      else if region = 0 then
        if 2 ^ 26 ≤ off ∨ 12 ≤ off / 2 ^ 22 % 16 then some 6
        else if s.tileFenced (die * 12 + off / 2 ^ 22 % 16) then some 7
        else unreached
      else if size ≤ off then some 6
      else if region = 4 then
        (match dieKind die with
         | none => some 6
         | some k => if blockPresent k off then unreached else some 6)
      else unreached

/-- The check of an address that may carry DIE = 63 (R188): a broadcast is accepted for SY.INIT and
SY.SIG to region 3 and for plain stores to region 4; a plain write to region 3 goes on to R275;
anything else is cause 8. -/
def State.xCause (s : State) (src ga : Nat) (k : XKind) (u : XUse) : Option Nat :=
  if gaDie ga ≠ 63 then s.gaCause src ga
  else
    let region := gaRegion ga
    if region = 3 ∧ (u = .syncInitOrSig ∨ (u = .plain ∧ (k = .store ∨ k = .atomic))) then
      (if 2 ^ 19 ≤ gaOff ga then some 6 else none)
    else if region = 4 ∧ k = .store ∧ u = .plain then
      (if blockPresent .compute (gaOff ga) then none else some 6)
    else some 8

/-- The mapping of a context that holds a VA. -/
def State.mappingOf (s : State) (ctx : CtxId) (va : Nat) : Option Mapping :=
  s.xl.maps.find? fun m => decide (m.ctx = ctx ∧ m.va ≤ va ∧
    va < m.va + (if m.big then 2 ^ 21 else 2 ^ 16))

/-- Levels that a walk of an unmapped VA reads before it ends (R197): a table at a level exists
when some page of the context lies under it. -/
def State.walkLevels (s : State) (ctx : CtxId) (va : Nat) : Nat :=
  let under (sh : Nat) : Bool := s.xl.maps.any fun m => decide (m.ctx = ctx ∧ m.va / 2 ^ sh = va / 2 ^ sh)
  if !(under 39) then 1
  else if !(under 30) then 2
  else if !(s.xl.maps.any fun m => decide (m.ctx = ctx ∧ !m.big ∧ m.va / 2 ^ 21 = va / 2 ^ 21)) then 3
  else 4

/-- Whether a context exists: V of Table 6.7. -/
def State.ctxOn (s : State) (ctx : CtxId) : Bool := (mapGet none s.xl.ctxs ctx.val).isSome

/-- Whether a context is deterministic: DET of Table 6.7. -/
def State.ctxDet (s : State) (ctx : CtxId) : Bool :=
  (mapGet none s.xl.ctxs ctx.val).elim false (·.det)

/-- The first permission cause of Table 6.11 on a mapped page, in the order of R204. -/
def permCause (k : XKind) (r w x sro : Bool) : Option Nat :=
  match k with
  | .load => if r then none else some 2
  | .store => if w && !sro then none else some 3
  | .atomic => if !r then some 2 else if w && !sro then none else some 3
  | .fetch => if x then none else some 4

/-- A VA translated for an engine of a tile of the die `src` (R197 to R204): the GA with its attributes, or the
cause of Table 6.11. -/
def State.xlAns (s : State) (src : Nat) (ctx : CtxId) (va : Nat) (k : XKind) (u : XUse) : Except Nat XlOk :=
  if !(s.ctxOn ctx) then .error 9
  else if ctx = 0 ∧ va / 2 ^ 40 % 256 = 0xFF then
    match s.xCause src (va % 2 ^ 40) k u with
    | some c => .error c
    | none => .ok ⟨va % 2 ^ 40, false, false, false⟩
  else
    match s.mappingOf ctx va with
    | none => .error 1
    | some m =>
      match permCause k m.r m.w m.x m.sro with
      | some c => .error c
      | none =>
        let ga := m.ga + (va - m.va)
        match s.xCause src ga k u with
        | some c => .error c
        | none => .ok ⟨ga, m.nce, m.dar, m.pf⟩

/-- The translation cache after a lookup (R202): a hit moves its entry to the front; a miss counts
a walk, 12 cycles a level, and fills the entry of a mapped page, replacing the least recent of
256. -/
def State.xlLookup (s : State) (t : TileId) (ctx : CtxId) (va : Nat) : State :=
  if !(s.ctxOn ctx) then s
  else if ctx = 0 ∧ va / 2 ^ 40 % 256 = 0xFF then s
  else
    let x := s.tile t
    match s.mappingOf ctx va with
    | some m =>
      let e : TlbEnt := ⟨ctx, m.big, m.va⟩
      if x.tlb.contains e then s.setTile t { x with tlb := e :: x.tlb.filter (· ≠ e) }
      else
        let s := s.setTile t { x with tlb := (e :: x.tlb).take 256 }
        (s.bump (tileReg t 0x300) 1).bump (tileReg t 0x308) (12 * (if m.big then 3 else 4))
    | none =>
      (s.bump (tileReg t 0x300) 1).bump (tileReg t 0x308) (12 * s.walkLevels ctx va)

/-- A translation fault recorded and reported (R205, R207): one CONTAINED event, and the fault
registers unless they hold one. -/
def State.xlFault (s : State) (t : TileId) (ctx : CtxId) (engine cause va pc : Nat) (k : XKind) :
    State :=
  let a := tileReg t 0x200
  let s :=
    if s.regField a 48 48 = 1 then s
    else
      (s.setReg a (putBits (putBits (putBits (putBits (putBits 0 63 60 cause) 59 57 engine)
        56 55 k.code) 54 49 ctx.val) 48 48 1)).setReg (tileReg t 0x208) (putBits 0 47 0 va)
  s.raiseTile t (0x400 + cause) ctx va (engine + k.code * 256 + pc * 65536)

/-! ### Loads and stores of a tile's engine -/

/-- The agent of a tile. -/
def tileAgent (t : TileId) : Agent := .tile t

/-- Whether a GA lies in a tile's own memory. -/
def ownMem (t : TileId) (ga : Nat) : Bool := decide (ga / 2 ^ 22 = tmGa t 0 / 2 ^ 22)

/-- Whether a load is served by the tile itself: own memory, or a near-cache hit (R119). -/
def State.servedNear (s : State) (t : TileId) (x : XlOk) : Bool :=
  ownMem t x.ga ||
  (x.nce && homed x.ga && decide (s.regField (ncReg t 0) 0 0 = 1) &&
    ((s.tile t).ncFind (.ga (x.ga / 128))).isSome)

/-- A die's dead-line table answers a read in debug mode (R247). -/
def State.deadRead (s : State) (ga : Nat) : Bool :=
  homed ga && decide (s.regField (hcReg (gaDie ga) 0) 1 1 = 1) &&
    (s.die (gaDie ga)).dead.contains (gaLine ga)

/-- The bytes 0x00, 0x7E repeated that a dead read returns (R247), from a byte address. -/
def deadBytes (ga n : Nat) : List Byte :=
  (List.range n).map fun i => if (ga + i) % 2 = 0 then 0x00 else 0x7E

/-- A plain read of a control register, eight bytes at a time; RC fields clear (R6). -/
def State.regRead (s : State) (ga n : Nat) : List Byte × State :=
  let v := s.regLoad ga
  let s := match regSpecAt ga with
    | none => s
    | some r => s.setReg (ga / 8 * 8) (fieldsReadClear r.fields (s.reg (ga / 8 * 8)))
  (slice (leBytes 8 v.toNat) (ga % 8) n, s)

/-- A read of n bytes inside one line of regions 1 or 2 by any agent, at the home: bytes, poison,
state (R214, R225, R247). -/
def State.homeRead (s : State) (a : Agent) (ctx : Nat) (ga n hint : Nat) (runAhead : Bool)
    (tile : Option TileId) : List Byte × Bool × State :=
  let die := gaDie ga
  let dead := s.deadRead ga
  let s := (s.hcRead die a (gaLine ga) hint runAhead).2
  let p := s.poisonedAt ga n
  let bs := if dead then deadBytes ga n else s.bytesAt ga n
  let s := if p then s.bump (hcReg die 0xF10) 1 else s
  let s := if dead then
      (s.bump (hcReg die 0x530) 1).raiseHome die .contained 0x2005 ctx ga 0 tile
    else s
  (bs, p, s)

/-- A load of n bytes inside one line by an engine of a tile: bytes, poison, state. -/
def State.tileLoad (s : State) (t : TileId) (ctx : CtxId) (x : XlOk) (n hint : Nat) :
    List Byte × Bool × State :=
  match gaRegion x.ga with
  | 0 =>
    let p := s.poisonedAt x.ga n
    (s.bytesAt x.ga n, p, if p then s.bump (hcReg (gaDie x.ga) 0xF10) 1 else s)
  | 3 => (slice (leBytes 8 (mapGet 0 s.sync (x.ga / 8 * 8)).toNat) (x.ga % 8) n, false, s)
  | 4 => let r := s.regRead x.ga n; (r.1, false, r.2)
  | _ =>
    let hint := effHint hint (x.dar && !x.nce)
    if x.nce ∧ s.regField (ncReg t 0) 0 0 = 1 then
      let k := NcKey.ga (x.ga / 128)
      match (s.tile t).ncFind k with
      | some _ =>
        let s := s.setTile t ((s.tile t).ncTouch k (decide (hint = 2)))
        (s.bytesAt x.ga n, false, s.bump (ncReg t 0x100) 1)
      | none =>
        let s := s.bump (ncReg t 0x108) 1
        let r := s.homeRead (tileAgent t) ctx.val x.ga n hint false (some t)
        let s := r.2.2
        if s.poisonedAt (x.ga / 128 * 128) 128 then (r.1, r.2.1, s.bump (ncReg t 0x118) 1)
        else if hint = 1 ∨ hint = 4 then (r.1, r.2.1, s)
        else (r.1, r.2.1, s.setTile t ((s.tile t).ncFill k (decide (hint = 2)) 0))
    else s.homeRead (tileAgent t) ctx.val x.ga n hint false (some t)

/-- The run-ahead unit follows a read of an engine (R252): regions 1 and 2, the normal or keep hint;
a stream is recognised at its third consecutive line in one direction. -/
def State.raNote (s : State) (t : TileId) (engine : Nat) (ctx : CtxId) (va ga hint : Nat) : State :=
  if !(homed ga) || !(decide (hint = 0 ∨ hint = 2)) then s
  else
    let x := s.tile t
    let l := va / 128
    match x.ra.find? fun e => decide (e.engine = engine ∧ e.ctx = ctx ∧
        (e.last = l ∨ e.last + 1 = l ∨ l + 1 = e.last)) with
    | none => s.setTile t { x with ra := (⟨engine, ctx, l, true, 1, l, false⟩ :: x.ra).take 16 }
    | some e =>
      if e.last = l then s
      else
        let up := decide (e.last + 1 = l)
        let same := decide (e.seen = 1 ∨ e.up = up)
        let e' : RaStream := { e with last := l, up := up, seen := if same then e.seen + 1 else 2,
                                      fetched := if same ∧ 3 ≤ e.seen then e.fetched else l,
                                      stopped := e.stopped && same }
        s.setTile t { x with ra := e' :: x.ra.filter (· ≠ e) }

/-- A plain write to region 3 (R275): not performed, counted and reported. With DIE = 63 it counts
on the issuing tile's die (R188). -/
def State.badSyncWrite (s : State) (ga ctx : Nat) (tile : Option TileId) (die : Nat) : State :=
  let s := s.bump (regGa die 0x110130) 1
  s.raise { cls := .contained, code := 0x2006, die := die, kind := 4, inst := 0, ctx := ctx,
            tile := tile, location := ga, step := 0, layer := 0, detail := 0 }

/-- Bytes merged over a 64-bit value at a byte offset (DEDUCED, log entry 73). -/
def mergeWord (w : Word) (off : Nat) (bs : List Byte) : Word :=
  let old := leBytes 8 w.toNat
  BitVec.ofNat 64 (leNat (old.take off ++ bs ++ old.drop (off + bs.length)))

/-- A plain store to region 4, on one die or, with DIE = 63, on every unfenced compute die (R188). -/
def State.regStoreBytes (s : State) (who : Option Nat) (ga : Nat) (bs : List Byte) : State :=
  let one (s : State) (ga : Nat) : State := s.regStore who ga (mergeWord (s.regLoad ga) (ga % 8) bs)
  if gaDie ga = 63 then
    (List.range 48).foldl (fun s d =>
      if s.dieFenced d then s else one s (d * 2 ^ 34 + ga % 2 ^ 34)) s
  else one s ga

/-- A store of bytes inside one line by an engine of a tile. -/
def State.tileStore (s : State) (t : TileId) (ctx : CtxId) (x : XlOk) (bs : List Byte) (hint : Nat) :
    State :=
  match gaRegion x.ga with
  | 0 => s.putBytes x.ga bs
  | 3 => s.badSyncWrite x.ga ctx.val (some t) (if gaDie x.ga = 63 then tileDie t else gaDie x.ga)
  | 4 => s.regStoreBytes (some ctx.val) x.ga bs
  | _ => (s.hcStore (gaDie x.ga) (gaLine x.ga) (effHint hint false) (decide (bs.length = 128))).putBytes
      x.ga bs

/-- The cache's part of an atomic at a home, once for its line. -/
def State.tileAtomTouch (s : State) (x : XlOk) (hint : Nat) : State :=
  if homed x.ga then s.hcStore (gaDie x.ga) (gaLine x.ga) (effHint hint false) false else s

/-- The fields of HC reads that would have to wait for a fill entry (R233): lines that miss beyond
the 512 fills, or a fill with 32 requests joined. -/
def State.fillWaits (s : State) (ga : Nat) : Bool :=
  homed ga &&
  (let x := s.die (gaDie ga)
   match x.find (gaLine ga) with
   | some _ => false
   | none =>
     match x.fills.find? (·.line = gaLine ga) with
     | some f => decide (32 ≤ f.joined)
     | none => decide (512 ≤ x.fills.length))

end Sys2Proof.Machine
end

