-- ==== Sys2Proof/Machine/Seq.lean ====
section
/-!
DEFINITION. How a tile sequencer issues a word (R321, R326): whether it can, the fetch of the word,
the advance of its PC, and a sequencer fault.
-/

namespace Sys2Proof.Machine

/-- Register of a tile that holds FCODE and FAULTED (Table 9.15). -/
def tsqStatus (t : TileId) : Nat := tileReg t 0x500

/-- A tile's sequencer replaced. -/
def State.setSeq (s : State) (t : TileId) (q : SeqSt) : State :=
  s.setTile t { s.tile t with seq := q }

/-- The stream stops on a fault (R326): FCODE and FAULTED, and FAULT in the tile's next report. -/
def State.seqStop (s : State) (t : TileId) (fcode : Nat) : State :=
  let q := (s.tile t).seq
  let a := tsqStatus t
  (s.setSeq t { q with running := false, fault := true }).setReg a
    (putBits (putBits (s.reg a) 8 1 fcode) 0 0 1)

/-- A sequencer fault with its event (R326): FCODE 0x01 to 0x03. The rule names no address, so LOCATION is zero
(R565) (DEDUCED, log entry 54). -/
def State.seqFault (s : State) (t : TileId) (fcode : Nat) : State :=
  let q := (s.tile t).seq
  (s.seqStop t fcode).raiseTile t (0x600 + fcode) q.ctx 0 0

/-- FAB_ register of the domain slots, on FD0 (Table 9.9): 0 CFG, 8 SHIFT, 16 HOLD_STATUS. -/
def domReg (d off : Nat) : Nat := regGa 48 (0x8020 + 0x20 * d + off)

/-- A field of a domain slot's register, set on every fabric die (R343). -/
def State.setDomField (s : State) (d off hi lo v : Nat) : State :=
  (List.range 4).foldl (fun s f => s.setField (regGa (48 + f) (0x8020 + 0x20 * d + off)) hi lo v) s

/-- STATE of a domain slot (Table 9.12). -/
def State.domMode (s : State) (d : Nat) : Nat := s.regField (domReg d 0) 55 54

/-- Shift of a domain slot (R314). -/
def State.shift (s : State) (d : Nat) : Nat := (s.reg (domReg d 8)).toNat

/-- Schedule time of a domain slot: FTC − shift (R314). -/
def State.sched (s : State) (d : Nat) : Nat := s.ftc - s.shift d

/-- HOLD_LEAD in ft. -/
def State.holdLead (s : State) (d : Nat) : Nat := 64 * s.regField (domReg d 0) 47 32

/-- The least frame boundary that is not below a tick (R311). -/
def frameUp (n : Nat) : Nat := (n + 65535) / 65536 * 65536

/-- A repeat unit of the slot's table. -/
def DomSt.unit (x : DomSt) (u : Nat) : Option RepUnit := x.units.find? (·.id = u)

/-- Whether a tile runs in dynamic mode now (R332, R333): its domain is, and when that is a repeat
the tile belongs to the unit. -/
def State.tileDynamic (s : State) (t : TileId) : Bool :=
  let d := (s.tile t).seq.dom
  let x := s.dom d
  match x.dyn with
  | .none => false
  | .fallback => true
  | .repeated us => x.units.any fun r => us.contains r.id && r.tiles.getLsbD t.val

/-- FTC of a hold cause's B: a step boundary moves with schedule time (R334). -/
def State.reqB (s : State) (d : Nat) (r : HoldReq) : Nat := if r.atStep then r.b + s.shift d else r.b

/-- Whether a domain in dynamic mode is paused (R337): a cause other than repeat and fallback has
begun and has not ended. -/
def State.paused (s : State) (d : Fin 2) : Bool :=
  let h := (s.dom d).hold
  h.active && h.reqs.any fun r =>
    decide (r.bit ≠ 2 ∧ r.bit ≠ 3 ∧ s.reqB d.val r ≤ s.ftc) && !(r.ends.any fun e => decide (e ≤ s.ftc))

/-- Whether a tile's domain lets its sequencer issue words (R335, R337, R521): the domain has
started, and is not paused in dynamic mode. -/
def State.domLets (s : State) (t : TileId) : Bool :=
  let d := (s.tile t).seq.dom
  let x := s.dom d
  x.started && decide (x.start ≤ s.ftc) && !(decide (x.dyn ≠ .none) && s.paused d)

/-- Whether the engines that a TSQ.JOIN names have finished all they were given (Table 9.4). The array
executes at once. -/
def State.joined (s : State) (t : TileId) (m : Nat) : Bool :=
  let x := s.tile t
  (m.testBit 1 → !x.seq.tgBusy) && (m.testBit 2 → !x.seq.vxBusy) && (m.testBit 3 → x.tmv.xfers.isEmpty)

/-- Whether the sequencer can issue a word now: a stream runs and nothing holds it. -/
def State.seqReady (s : State) (t : TileId) : Bool :=
  let q := (s.tile t).seq
  s.tileOn t && q.running && s.domLets t &&
  (match q.wait with
   | .none => true
   | .join m => s.joined t m
   | _ => false)

/-- What issuing a word does before its own effect (R202, R321, R575): the translation cache, the count of
words, and the PC, which advances by 16 bytes. -/
def State.seqIssued (s : State) (t : TileId) : State :=
  let q := (s.tile t).seq
  let s := (s.xlLookup t q.ctx q.pc.toNat).bump (tileReg t 0xA00) 1
  s.setSeq t { (s.tile t).seq with pc := q.pc + 16, wait := .none }

/-- A word issued (R321): its fetch is translated, the PC advances by 16 bytes, and `act` is what
the word does, given the word's own address. A sequencer that cannot issue leaves the state as it
is (DESIGN CHOICE, log entry 9). -/
def State.seqWord (s : State) (t : TileId) (act : BitVec 48 → State → State) : State :=
  if !(s.seqReady t) then s
  else
    let q := (s.tile t).seq
    match s.xlAns (tileDie t) q.ctx q.pc.toNat .fetch .plain with
    | .error c => ((s.setSeq t { q with wait := .none }).seqStop t 4).xlFault t q.ctx 4 c q.pc.toNat q.pc.toNat .fetch
    | .ok _ => act q.pc (s.seqIssued t)

/-- The job seed that a tile works under (R518). -/
def State.jobSeed (s : State) (t : TileId) : BitVec 128 := (s.dom (s.tile t).seq.dom).seed

/-- A flag of the tile's engines noted for the collection, with its layer (R329). -/
def addGather (l : List GatherFlags) (layer : Nat) (w r e sp nw : Bool) : List GatherFlags :=
  match l.find? (·.layer = layer) with
  | none => l ++ [⟨layer, w, r, e, sp, nw⟩]
  | some _ => l.map fun g =>
      if g.layer = layer then ⟨layer, g.wovf || w, g.rovf || r, g.eovf || e, g.special || sp,
        g.noWider || nw⟩ else g

/-- Flags noted for the collection of the present unit. -/
def State.noteFlags (s : State) (t : TileId) (w r e sp nw : Bool) : State :=
  if !(w || r || e || sp) then s
  else
    let q := (s.tile t).seq
    s.setSeq t { q with flags := addGather q.flags q.layer w r e sp nw }

/-- Bytes written to a GA of region 1 or 2 of this module by a tile, line by line. -/
def State.putLines (s : State) (ga : Nat) (bs : List Byte) : State :=
  let s := (linesOf ga bs.length).foldl (fun s l =>
    s.hcStore (gaDie l) (gaLine l) 0 (decide (ga ≤ l ∧ l + 128 ≤ ga + bs.length))) s
  s.putBytes ga bs

end Sys2Proof.Machine
end

