-- ==== Sys2Proof/Machine/Mxa.lean ====
section
/-!
DEFINITION. The matrix array (chapter 3): words, descriptors, buffers, accumulation runs, readout,
attention, speculation, faults; and output digests and captures (R593, R595).
-/

namespace Sys2Proof.Machine

/-! ### Words and descriptors -/

/-- An array word (Table 3.2). -/
structure ArrWord where
  op       : Nat
  shape    : Nat
  fmt      : Nat
  anchor   : Int
  headroom : Nat
  outfmt   : Nat
  clr      : Bool
  rd       : Bool
  sr       : Bool
  tro      : Bool
  spec     : Bool
  skeep    : Bool
  lform    : Bool
  sd       : Nat
  bd       : Nat
  od       : Nat
  eanchor  : Int
  ehead    : Nat
  ad       : Nat
  reserved : Bool
  deriving DecidableEq, Repr

/-- The fields of a word with opcode op (Table 3.2). -/
def arrWord (op : Nat) (w : BitVec 120) : ArrWord :=
  { op := op, shape := wbits w 119 116, fmt := wbits w 115 112,
    anchor := ofTwos 8 (wbits w 111 104), headroom := wbits w 103 99, outfmt := wbits w 98 96,
    clr := w.getLsbD 95, rd := w.getLsbD 94, sr := w.getLsbD 93, tro := w.getLsbD 92,
    spec := w.getLsbD 91, skeep := w.getLsbD 90, lform := w.getLsbD 89,
    sd := wbits w 75 72, bd := wbits w 71 68, od := wbits w 67 64,
    eanchor := ofTwos 8 (wbits w 63 56), ehead := wbits w 55 50, ad := wbits w 49 46,
    reserved := decide (wbits w 88 76 ≠ 0 ∨ wbits w 45 0 ≠ 0) }

/-- A word as a repeat's widenings change it (R332, Table 2.7): the anchor rises by 16 for each
widening of the window, and an output whose format is widened uses OD + 8. -/
def ArrWord.widened (w : ArrWord) (q : SeqSt) : ArrWord :=
  let w := { w with anchor := w.anchor + 16 * q.wideA }
  if w.outfmt = 0 ∧ q.wideR then { w with outfmt := 1, od := w.od + 8 }
  else if w.outfmt = 2 ∧ q.wideE then { w with outfmt := 3, od := w.od + 8 }
  else w

/-- Whether the word is one of the attention instructions. -/
def ArrWord.att (w : ArrWord) : Bool := decide (8 ≤ w.op)

/-- An operand descriptor (Tables 3.7a to 3.7d). -/
structure Opd where
  rows     : Nat
  cols     : Nat
  base     : Nat
  tensor   : BitVec 32
  elemRow  : Nat
  elemBase : Nat
  order    : Bool
  zmap     : Bool
  zbase    : Nat
  pstride  : Nat
  rstride  : Nat
  deriving DecidableEq, Repr

/-- Descriptor n of a tile. -/
def State.opd (s : State) (t : TileId) (n : Nat) : Opd :=
  let a := s.reg (tileReg t (0x1200 + 32 * n))
  let b := s.reg (tileReg t (0x1208 + 32 * n))
  let c := s.reg (tileReg t (0x1210 + 32 * n))
  let d := s.reg (tileReg t (0x1218 + 32 * n))
  { rows := bits a 63 48, cols := bits a 47 32, base := bits a 21 0,
    tensor := BitVec.ofNat 32 (bits b 63 32), elemRow := bits b 31 0, elemBase := bits c 47 0,
    order := d.getLsbD 63, zmap := d.getLsbD 62, zbase := bits d 61 46 * 64,
    pstride := bits d 43 22, rstride := bits d 21 0 }

/-- Tile-memory offset of element [r][c] of product p (R78, R81). -/
def Opd.addr (d : Opd) (p r c es : Nat) : Nat :=
  d.base + p * d.pstride + (if d.order then c * d.rstride + r * es else r * d.rstride + c * es)

/-- Bounds, alignment and stride of R79 for all products. -/
def Opd.fits (d : Opd) (prods es : Nat) : Bool :=
  decide (1 ≤ d.rows ∧ 1 ≤ d.cols ∧ d.base % 64 = 0 ∧ d.rstride % es = 0 ∧
    d.addr (prods - 1) (d.rows - 1) (d.cols - 1) es + es ≤ 2 ^ 22)

/-- Products of a shape (Table 3.8). -/
def shapeProds (shape : Nat) : Nat :=
  match shape with
  | 1 => 2
  | 2 => 2
  | 3 => 4
  | 4 => 4
  | _ => 1

/-- Product height of a shape (Table 3.8). -/
def shapeHeight (shape : Nat) : Nat :=
  match shape with
  | 2 => 64
  | 3 => 64
  | 4 => 32
  | _ => 128

/-- Segment width of product p for an array of width W (Table 3.8). -/
def segWidth (shape w p : Nat) : Nat :=
  if shape = 1 ∨ shape = 3 then (if p % 2 = 0 then 64 else w - 64) else w

/-- First array row of product p (R81). -/
def prodRow (shape p : Nat) : Nat :=
  match shape with
  | 2 => 64 * p
  | 3 => 64 * (p / 2)
  | 4 => 32 * p
  | _ => 0

/-- Bytes of an element read out (Table 3.6). -/
def outSize (outfmt : Nat) : Nat :=
  match outfmt with
  | 0 => 2
  | 1 => 4
  | 2 => 4
  | _ => 8

/-- Passes P of a FMT (Table 3.5). -/
def passes (fmt : Nat) : Nat := (passPairs fmt).length

/-- Element sizes of the stored and streamed operands of a FMT. -/
def fmtSizes (fmt : Nat) : Nat × Nat :=
  let w := fmtWide fmt
  (if w.1 then 4 else 2, if w.2 then 4 else 2)

/-- The illegal-instruction conditions of R77 and R81. -/
def ArrWord.illegal (w : ArrWord) : Bool :=
  let mm := decide (w.op = 2 ∨ w.op = 3)
  let usesShape := mm || decide (w.op = 1 ∨ w.op = 8 ∨ w.op = 9)
  let usesOut := mm || decide (w.op = 4)
  w.reserved ||
  (usesShape && decide (6 ≤ w.shape ∨ (w.shape = 5 ∧ w.op < 8))) ||
  (usesShape && decide (7 ≤ w.fmt)) ||
  ((mm || decide (w.op = 8 ∨ w.op = 9)) && decide (24 < w.headroom)) ||
  (usesOut && decide (4 ≤ w.outfmt ∨ (w.outfmt = 2 ∧ 16 < w.ehead) ∨ (w.outfmt = 3 ∧ 32 < w.ehead))) ||
  (w.att && (decide (w.outfmt ≠ 0 ∨ w.eanchor ≠ 0 ∨ w.ehead ≠ 0) || w.sr || w.tro))

/-- Dimensions of an instruction: M, N, K (Table 3.7e). -/
structure Dims where
  m : Nat
  n : Nat
  k : Nat
  deriving DecidableEq, Repr

/-- The dimensions that SD and BD give. -/
def ArrWord.dims (w : ArrWord) (sd bd : Opd) : Dims :=
  if w.op = 3 then ⟨sd.cols, bd.cols, sd.rows⟩ else ⟨sd.rows, bd.cols, sd.cols⟩

/-- Whether OD's dimensions are those of the output. -/
def odDims (w : ArrWord) (od : Opd) (m n : Nat) : Bool :=
  if w.tro then decide (od.rows = n ∧ od.cols = m) else decide (od.rows = m ∧ od.cols = n)

/-! ### Stored chunks -/

/-- A chunk of the stored operand: origin and size, for each product. -/
structure Chunk where
  r0   : Nat
  c0   : Nat
  rows : Nat
  cols : Nat
  deriving DecidableEq, Repr

/-- Chunk i of product p in fold pass f (Table 3.1, R67, R95). -/
def chunkOf (mmt : Bool) (shape w : Nat) (d : Dims) (p f i : Nat) : Chunk :=
  let sw := segWidth shape w p
  let h := shapeHeight shape
  if mmt then ⟨h * i, sw * f, min h (d.k - h * i), min sw (d.m - sw * f)⟩
  else ⟨0, sw * i, d.m, min sw (d.k - sw * i)⟩

/-- Chunks that a product's K takes. -/
def chunkCount (mmt : Bool) (shape w k p : Nat) : Nat :=
  let u := if mmt then shapeHeight shape else segWidth shape w p
  (k + u - 1) / u

/-- Greatest chunk count over the products. -/
def chunkMax (mmt : Bool) (shape w k : Nat) : Nat :=
  (List.range (shapeProds shape)).foldl (fun a p => max a (chunkCount mmt shape w k p)) 0

/-- Fold passes (R95): the extent along the columns over the segment width, greatest over the
products. -/
def foldCount (shape w extent : Nat) : Nat :=
  (List.range (shapeProds shape)).foldl
    (fun a p => let sw := segWidth shape w p; max a ((extent + sw - 1) / sw)) 1

/-- Tag of a chunk: the fields of product 0's (R68). -/
def chunkTag (mmt : Bool) (shape w : Nat) (wide : Bool) (sd : Opd) (d : Dims) (f i : Nat) : BufTag :=
  let c := chunkOf mmt shape w d 0 f i
  { shape := shape, base := sd.addr 0 c.r0 c.c0 (if wide then 4 else 2), pstride := sd.pstride,
    rstride := sd.rstride, order := sd.order, wide := wide, rows := c.rows, cols := c.cols }

/-- An element of a tile's memory as a number. -/
def State.tmElem (s : State) (t : TileId) (off es : Nat) : Nat := leNat (s.bytesAt (tmGa t off) es)

/-- A chunk read from memory, for every product. -/
def State.loadChunk (s : State) (t : TileId) (mmt : Bool) (shape w : Nat) (wide : Bool) (sd : Opd)
    (d : Dims) (f i : Nat) : StoredBuf :=
  let es := if wide then 4 else 2
  { tag := chunkTag mmt shape w wide sd d f i,
    prods := (List.range (shapeProds shape)).map fun p =>
      let c := chunkOf mmt shape w d p f i
      (List.range c.rows).map fun r => (List.range c.cols).map fun k =>
        s.tmElem t (sd.addr p (c.r0 + r) (c.c0 + k) es) es }

/-- Element [r][c] of product p of a buffer. -/
def StoredBuf.elem (b : StoredBuf) (p r c : Nat) : Nat := ((b.prods.getD p []).getD r []).getD c 0

/-- Where the first chunk comes from (R68). -/
inductive Origin where
  | active | shadow | load
  deriving DecidableEq, Repr

/-- The origin of the first chunk, `none` for a stored-tag fault (R68). -/
def MxaSt.origin (x : MxaSt) (skeep : Bool) (tag : BufTag) : Option Origin :=
  if skeep then
    if x.active.any (fun b => decide (b.tag = tag)) then some .active
    else if x.shadow.any (fun b => decide (b.tag = tag)) then some .shadow
    else none
  else if x.shadowNew && x.shadow.any (fun b => decide (b.tag = tag)) then some .shadow
  else some .load

/-- The buffers, active then shadow, after the chunks of an instruction have passed (R68). -/
def passBuffers (x : MxaSt) (o : Origin) (first : StoredBuf) (later : List StoredBuf) : MxaSt :=
  let x := match o with
    | .active => x
    | .shadow => { x with active := x.shadow, shadow := x.active }
    | .load => { x with active := some first, shadow := x.active }
  later.foldl (fun x c => { x with active := some c, shadow := x.active }) x

/-! ### Memory effects -/

/-- Runs of bytes that an operand takes, as tile-memory offsets and lengths. -/
def Opd.spans (d : Opd) (prods es : Nat) : List (Nat × Nat) :=
  (List.range prods).flatMap fun p =>
    if d.order then (List.range d.cols).map fun c => (d.addr p 0 c es, d.rows * es)
    else (List.range d.rows).map fun r => (d.addr p r 0 es, d.cols * es)

/-- Runs of bytes of an operand that an instruction reads from memory, when rows below `hr` and
columns below `hc` come from a buffer. -/
def Opd.spansBut (d : Opd) (prods es : Nat) (held : Nat → Nat × Nat) : List (Nat × Nat) :=
  (List.range prods).flatMap fun p =>
    let hr := (held p).1
    let hc := (held p).2
    if d.order then (List.range d.cols).map fun c =>
      let r := if c < hc then hr else 0
      (d.addr p r c es, (d.rows - r) * es)
    else (List.range d.rows).map fun r =>
      let c := if r < hr then hc else 0
      (d.addr p r c es, (d.cols - c) * es)

/-- The first poisoned granule that spans of a tile's memory touch (R215). -/
def State.poisonIn (s : State) (t : TileId) (spans : List (Nat × Nat)) : Option Nat :=
  spans.findSome? fun x => (granulesOf (tmGa t x.1) x.2).find? fun g => setHas s.poison g

/-- Errors in storage that a read of spans meets (R213, R214). -/
def State.meetSpans (s : State) (t : TileId) (spans : List (Nat × Nat)) : State :=
  let hit (e : StoredErr) : Bool := spans.any fun x =>
    decide (tmGa t x.1 < e.ga + 8 ∧ e.ga < tmGa t x.1 + x.2)
  (((s.die (tileDie t)).errs).filter hit).foldl (fun s e => s.meetErr (tileDie t) e) s

/-- Writes of one readout (R84), as offsets with bytes: granules whose every byte is written lose
their poison (R217). -/
def State.putMany (s : State) (t : TileId) (ws : List (Nat × List Byte)) : State :=
  let whole (g : Nat) : Bool := (List.range 64).all fun i =>
    ws.any fun w => decide (tmGa t w.1 ≤ g + i ∧ g + i < tmGa t w.1 + w.2.length)
  let p := s.poison.filter fun e => !(decide (e.1 / 2 ^ 22 = tmGa t 0 / 2 ^ 22) && whole e.1)
  { s with poison := p, mem := ws.foldl (fun m w => memPut m (tmGa t w.1) w.2) s.mem }

/-! ### Flags -/

/-- What a readout raises: for each flag kind the first position as (product, row, column), and for
SPECIAL the cell there (R34, R105, Table 3.14). -/
structure Raised where
  special : Option (Nat × Nat × Nat × Cell)
  wovf    : Option (Nat × Nat × Nat)
  rovf    : Option (Nat × Nat × Nat)
  eovf    : Option (Nat × Nat × Nat)
  deriving DecidableEq, Repr

/-- Nothing raised. -/
def Raised.none : Raised := ⟨Option.none, Option.none, Option.none, Option.none⟩

/-- The first of two positions. -/
def firstOf {α : Type} (a b : Option α) : Option α := match a with | some x => some x | none => b

/-- One element's flags added behind what was raised before. -/
def Raised.add (r : Raised) (p a b : Nat) (c : Cell) (special rovf eovf : Bool) : Raised :=
  let pos := (p, a, b)
  { special := firstOf r.special (if special then some (p, a, b, c) else Option.none),
    wovf := firstOf r.wovf (if c.wovf then some pos else Option.none),
    rovf := firstOf r.rovf (if rovf then some pos else Option.none),
    eovf := firstOf r.eovf (if eovf then some pos else Option.none) }

/-- A position field (Table 3.16). -/
def posField (x : Nat × Nat × Nat) : Nat := x.1 * 2 ^ 14 + x.2.1 * 2 ^ 7 + x.2.2

/-- MXA_STATUS, MXA_FLAGS and MXA_FLAGPOS of a tile. -/
def mxaReg (t : TileId) (off : Nat) : Nat := tileReg t (0x1000 + off)

/-- One flag kind recorded (R104, R105): the first time sets SEQ and position. `k` is the flag's
bit in MXA_FLAGS, which also places its fields. -/
def State.setFlag (s : State) (t : TileId) (k : Nat) (pos : Nat × Nat × Nat) : State :=
  let f := mxaReg t 8
  if s.regField f k k = 1 then s
  else
    let seq := s.regField (mxaReg t 0) 63 52
    let s := s.setReg f (putBits (putBits (s.reg f) k k 1) (27 + 12 * k) (16 + 12 * k) seq)
    s.setField (mxaReg t 16) (15 + 16 * k) (16 * k) (posField pos)

/-- The flags of a run recorded (R86, R104, R105) and noted for the collection (R329). `target` is
the readout target, for the widenings that do not exist (Table 2.7). -/
def State.recordFlags (s : State) (t : TileId) (r : Raised) (anchor : Int) (target : Nat) : State :=
  let s := match r.special with
    | some (p, a, b, c) =>
      let f := mxaReg t 8
      let s := if s.regField f 0 0 = 1 then s
        else s.setField f 10 8 ((if c.nan then 1 else 0) + (if c.pinf then 2 else 0) +
          (if c.ninf then 4 else 0))
      s.setFlag t 0 (p, a, b)
    | none => s
  let s := r.wovf.elim s (s.setFlag t 1)
  let s := r.rovf.elim s (s.setFlag t 2)
  let s := r.eovf.elim s (s.setFlag t 3)
  let nw := (r.wovf.isSome && decide (127 < anchor + 16)) || (r.rovf.isSome && decide (target = 1)) ||
    (r.eovf.isSome && decide (target = 3))
  s.noteFlags t r.wovf.isSome r.rovf.isSome r.eovf.isSome r.special.isSome nw

/-! ### Speculation -/

/-- The counters and the balance of an instruction's speculation (R97 to R101). -/
structure SpecRun where
  balance : Int
  stopped : Bool
  pred    : Nat
  replay  : Nat
  miss    : Nat
  skip    : Nat
  deriving DecidableEq, Repr

/-- One block of a step group: predicted or not, zero or not (R98, R100). -/
def SpecRun.block (x : SpecRun) (predicted zero : Bool) : SpecRun :=
  if x.stopped then x
  else if predicted then
    if zero then { x with pred := x.pred + 1 }
    else
      let b := x.balance - 24
      { x with pred := x.pred + 1, replay := x.replay + 1, balance := b, stopped := decide (b < 0) }
  else if zero then { x with miss := x.miss + 1 } else x

/-- One step group of `steps` steps with its blocks as (predicted, zero); `off` where the stored
chunk suppresses prediction (R97, R99). -/
def SpecRun.group (x : SpecRun) (p steps : Nat) (off : Bool) (bs : List (Bool × Bool)) : SpecRun :=
  if x.stopped ∨ off then x
  else
    let all := bs.all (·.1)
    let x := if all then { x with skip := x.skip + steps, balance := x.balance + (steps * p : Nat) }
      else x
    bs.foldl (fun x b => x.block b.1 b.2) x

/-- Whether bits of an operand are a zero of either sign. -/
def isZeroBits (wide : Bool) (b : Nat) : Bool := decide (b % 2 ^ (if wide then 31 else 15) = 0)

/-- Whether bits of an operand are a NaN or an infinity. -/
def isSpecialBits (wide : Bool) (b : Nat) : Bool :=
  if wide then decide ((b / 2 ^ 23) % 2 ^ 8 = 255) else decide ((b / 2 ^ 10) % 2 ^ 5 = 31)

/-- The effects of speculation (R97 to R101): counters and the zero map written back. `strm k j` is
the streamed element of step k in lane j, `marked k` whether the chunk of step k is marked, and
`offs` how many marked chunks the instruction has. -/
def State.speculate (s : State) (t : TileId) (bd : Opd) (wide : Bool) (k n p : Nat)
    (strm : Nat → Nat → Nat) (marked : Nat → Bool) (offs : Nat) : State :=
  let nb := (n + 15) / 16
  let groups := (k + 15) / 16
  let zero (g h : Nat) : Bool :=
    (List.range (min 16 (k - 16 * g))).all fun i =>
      (List.range (min 16 (n - 16 * h))).all fun j => isZeroBits wide (strm (16 * g + i) (16 * h + j))
  let at_ (b : Nat) : Nat := bd.zbase + b / 8
  let pred (g h : Nat) : Bool :=
    let b := g * nb + h
    decide (at_ b < 2 ^ 22) && (s.byte (tmGa t (at_ b))).getLsbD (b % 8)
  let blocks (g : Nat) : List (Bool × Bool) := (List.range nb).map fun h => (pred g h, zero g h)
  let run := (List.range groups).foldl (fun (x : SpecRun) g =>
    let steps := min 16 (k - 16 * g)
    let off := (List.range steps).any fun i => marked (16 * g + i)
    x.group p steps off (blocks g)) ⟨0, false, 0, 0, 0, 0⟩
  let mem := (List.range groups).foldl (fun m g => (List.range nb).foldl (fun m h =>
    let b := g * nb + h
    if at_ b < 2 ^ 22 then
      let a := tmGa t (at_ b)
      let old := mapGet 0 m a
      let bit : Byte := 1#8 <<< (b % 8)
      mapSet 0 m a (if zero g h then old ||| bit else old &&& ~~~bit)
    else m) m) s.mem
  let s := { s with mem := mem }
  let c := mxaReg t 0x100
  let s := (((s.bump c run.pred).bump (c + 8) run.replay).bump (c + 16) run.miss).bump (c + 24) run.skip
  (s.bump (c + 32) offs).bump (c + 40) (if run.stopped then 1 else 0)

/-! ### Digests and captures -/

/-- One element's digest term added (R593): the tensor, the element's bits and its flat index. -/
def State.digestTerm (s : State) (t : TileId) (tensor : BitVec 32) (idx : Nat) (es b : Nat) : State :=
  let e := if es = 8 then (b / 2 ^ 32) ^^^ (b % 2 ^ 32) else b
  let o := cbg128 (s.jobSeed t) (cbgCounter tensor (BitVec.ofNat 32 e) (BitVec.ofNat 48 idx) 0)
  let a := tileReg t 0x608
  let s := s.setReg a (s.reg a + o.extractLsb' 0 64)
  let s := s.setReg (a + 8) (s.reg (a + 8) + o.extractLsb' 64 64)
  s.setSeq t { (s.tile t).seq with odigElems := (s.tile t).seq.odigElems + 1 }

/-- Digest terms of the elements of a readout, when TILE_ODIG_CFG.EN is 1 (R593). -/
def State.digestAll (s : State) (t : TileId) (es : Nat) (l : List (BitVec 32 × Nat × Nat)) : State :=
  if s.regField (tileReg t 0x600) 63 63 = 0 then s
  else l.foldl (fun s e => s.digestTerm t e.1 e.2.1 es e.2.2) s

/-- Zero bytes up to a multiple of 64. -/
def padTo64 (l : List Byte) : List Byte := l ++ List.replicate ((64 - l.length % 64) % 64) 0

/-- The capture record of an instruction, when armed for it (R595): its header (Table 16.15), the
operand bytes and the output bytes, cut at LIMIT. -/
def State.capture (s : State) (t : TileId) (w : ArrWord) (word : BitVec 120) (idx : Nat)
    (sb bb ob : List Byte) (param : List Byte) : State :=
  let ctl := tileReg t 0x618
  let mt := s.reg (tileReg t 0x620)
  let dst := s.reg (tileReg t 0x628)
  let q := (s.tile t).seq
  if s.regField ctl 63 63 = 1 ∧ bits mt 63 32 = q.step.toNat ∧ bits mt 31 0 = q.layer ∧
      s.regField ctl 15 0 = idx then
    let room := bits dst 63 56 * 65536
    let full := padTo64 sb ++ padTo64 bb ++ ob
    let trunc := decide (room < 256 + full.length)
    let descs := [w.sd, w.bd, w.od, w.ad].flatMap fun n =>
      (List.range 4).flatMap fun i => leBytes 8 (s.reg (mxaReg t (0x200 + 32 * n + 8 * i))).toNat
    let hdr := leBytes 15 word.toNat ++ leBytes 1 w.op ++ leBytes 4 q.step.toNat ++
      leBytes 4 q.layer ++ leBytes 2 idx ++ leBytes 2 t.val ++ leBytes 1 (if trunc then 1 else 0) ++
      leBytes 3 0 ++ leBytes 8 sb.length ++ leBytes 8 bb.length ++ leBytes 8 ob.length ++ leBytes 8 0 ++
      descs ++ slice param 0 32 ++ leBytes 32 0
    let ga := bits dst 39 0
    let s := if gaRegion ga = 1 ∧ s.gaCause (tileDie t) ga = none then s.putLines ga ((hdr ++ full).take room) else s
    let s := s.setReg ctl (putBits (putBits (putBits (s.reg ctl) 63 63 0) 62 62 1) 61 61
      (if trunc then 1 else 0))
    s.raise { cls := .corrected, code := 0x8004, die := tileDie t, kind := 1, inst := tileIdx t,
              ctx := q.ctx.val, tile := some t, location := ga, step := q.step.toNat,
              layer := q.layer, detail := idx }
  else s

/-- Bytes of an operand in its descriptor's order, product by product, from its elements. -/
def Opd.bytesOf (d : Opd) (prods es : Nat) (f : Nat → Nat → Nat → Nat) : List Byte :=
  (List.range prods).flatMap fun p =>
    if d.order then (List.range d.cols).flatMap fun c => (List.range d.rows).flatMap fun r =>
      leBytes es (f p r c)
    else (List.range d.rows).flatMap fun r => (List.range d.cols).flatMap fun c => leBytes es (f p r c)

/-! ### Runs -/

/-- Key of an accumulator: product, output row and column. -/
def cellKey (p a b : Nat) : Nat := (p * 128 + a) * 128 + b

/-- A fault of Table 3.19, by its row (R109, R567). -/
def State.arrayFault (s : State) (t : TileId) (pc : BitVec 48) (row detail : Nat) : State :=
  s.raiseTile t (0x300 + row) (s.tile t).seq.ctx pc.toNat detail

/-- The array's state replaced. -/
def State.setMxa (s : State) (t : TileId) (x : MxaSt) : State := s.setTile t { s.tile t with mxa := x }

/-- A fence that waited for the open run takes effect (R94). -/
def State.applyPending (s : State) (t : TileId) : State :=
  let x := (s.tile t).mxa
  let add (f : ArrayFence) : FenceEnt := match f with
    | .column c p => ⟨0, tileDie t, tileIdx t, c.val, p, false⟩
    | .whole p => ⟨1, tileDie t, tileIdx t, 0, p, false⟩
  x.pending.foldl (fun s f => s.enterFence (add f)) (s.setMxa t { x with pending := [] })

/-- The open run closed (R72): its cells are of no further use. -/
def State.closeRun (s : State) (t : TileId) : State :=
  (s.setMxa t { (s.tile t).mxa with run := none, cells := [] }).applyPending t

/-- The chunks that pass through the buffers behind the first one: over all fold passes when there
is more than one chunk or each pass has its own. -/
def State.laterChunks (s : State) (t : TileId) (mmt : Bool) (shape w : Nat) (wide : Bool) (sd : Opd)
    (d : Dims) (folds : Nat) : List StoredBuf :=
  let nc := chunkMax mmt shape w d.k
  let fs := if mmt ∨ 1 < nc then folds else 1
  ((List.range fs).flatMap fun f => (List.range nc).map fun i => (f, i)).drop 1 |>.map fun x =>
    s.loadChunk t mmt shape w wide sd d x.1 x.2

/-- The stored element [r][c] of product p as an instruction reads it: from the buffer that already
holds its first chunk, else from memory. In a folded pass a first chunk is read again, unless it is
the only one. -/
def storedElem (mem : Nat → Nat) (buf : Option StoredBuf) (mmt : Bool) (shape w : Nat) (sd : Opd)
    (d : Dims) (es : Nat) (p r c lane : Nat) : Nat :=
  let c0 := chunkOf mmt shape w d p 0 0
  let fresh := if mmt then decide (c < c0.cols) else decide (lane < segWidth shape w p ∨
    chunkMax mmt shape w d.k = 1)
  match buf with
  | some b => if fresh ∧ r < c0.rows ∧ c < c0.cols then b.elem p r c else mem (sd.addr p r c es)
  | none => mem (sd.addr p r c es)

/-- One element read out: offset, bytes, digest entry, ROVF, EOVF (R84, R85). -/
def readElem (od : Opd) (dp : Opd) (w : ArrWord) (key : BitVec 128) (step : BitVec 32) (p a b : Nat)
    (v : FVal) : Nat × List Byte × (BitVec 32 × Nat × Nat) × Bool × Bool :=
  let ra := if w.tro then b else a
  let rb := if w.tro then a else b
  let idx := (dp.elemBase + ra * dp.elemRow + rb) % 2 ^ 48
  let rm := roundingOf w.sr key dp.tensor step idx
  let es := outSize w.outfmt
  let r : Nat × Bool × Bool := match w.outfmt with
    | 0 => let x := fmt16.readout rm v; (x.1, x.2, false)
    | 1 => let x := fmt32.readout rm v; (x.1, x.2, false)
    | 2 => let x := esfReadout 32 w.eanchor w.ehead rm v; (x.1, false, x.2.1)
    | _ => let x := esfReadout 64 w.eanchor w.ehead rm v; (x.1, false, x.2.1)
  (od.addr p ra rb es, leBytes es r.1, (dp.tensor, idx, r.1), r.2.1, r.2.2)

/-- What a readout collects, element by element. -/
structure Readout where
  writes : List (Nat × List Byte)
  terms  : List (BitVec 32 × Nat × Nat)
  raised : Raised
  deriving DecidableEq, Repr

/-- Readout of an open run through OD (R84 to R86). In a packed shape with SR = 1, product p takes
its tensor and indices from OD + p. -/
def State.readout (s : State) (t : TileId) (w : ArrWord) (run : OpenRun) : Readout :=
  let x := (s.tile t).mxa
  let od := s.opd t w.od
  let key := s.jobSeed t
  let step := (s.tile t).seq.step
  (List.range (shapeProds run.shape)).foldl (fun (o : Readout) p =>
    let dp := if w.sr then s.opd t (w.od + p) else od
    (List.range run.m).foldl (fun (o : Readout) a => (List.range run.n).foldl (fun (o : Readout) b =>
      let c := mapGet Cell.clear x.cells (cellKey p a b)
      let e := readElem od dp w key step p a b (c.value run.anchor)
      ⟨o.writes ++ [(e.1, e.2.1)], o.terms ++ [e.2.2.1],
        o.raised.add p a b c c.special e.2.2.2.1 e.2.2.2.2⟩) o) o) ⟨[], [], Raised.none⟩

/-- A readout performed: memory, flags, digests; and the run closes. -/
def State.finishRun (s : State) (t : TileId) (w : ArrWord) (run : OpenRun) (r : Readout) : State :=
  let s := s.putMany t r.writes
  let s := s.recordFlags t r.raised run.anchor w.outfmt
  (s.digestAll t (outSize w.outfmt) r.terms).closeRun t

/-- Whether OD passes R79 and R85 for an instruction that writes output. -/
def State.odOk (s : State) (t : TileId) (w : ArrWord) (prods m n : Nat) : Bool :=
  let od := s.opd t w.od
  odDims w od m n && od.fits prods (outSize w.outfmt) &&
    !(w.sr && decide (15 < w.od + prods - 1))

/-- SEQ of the array: one more instruction issued (Table 3.13), and the shadow buffer no longer
counts as loaded since the previous one. -/
def State.arrayStart (s : State) (t : TileId) : State :=
  let a := mxaReg t 0
  let s := s.setField a 63 52 ((s.regField a 63 52 + 1) % 4096)
  let q := (s.tile t).seq
  s.setSeq t { q with arrayIdx := q.arrayIdx + 1 }

/-! ### MXA.MM and MXA.MMT -/

/-- The fault that a multiplication raises, by its row of Table 3.19, in the order of R109. -/
def State.mmFault (s : State) (t : TileId) (w : ArrWord) : Option Nat :=
  let x := (s.tile t).mxa
  let sd := s.opd t w.sd
  let bd := s.opd t w.bd
  let mmt := decide (w.op = 3)
  let d := w.dims sd bd
  let prods := shapeProds w.shape
  let es := fmtSizes w.fmt
  let wd := s.width t
  let hgt := if mmt then d.n else d.m
  let ext := if mmt then d.m else d.n
  if w.illegal then some 1
  else if wd = 0 then some 7
  else if !(sd.fits prods es.1 && bd.fits prods es.2 && decide (bd.rows = d.k) &&
      odDims w (s.opd t w.od) d.m d.n && decide (hgt ≤ shapeHeight w.shape ∧ ext ≤ 128)) ||
      (w.rd && !(s.odOk t w prods d.m d.n)) then some 2
  else if !w.clr && (match x.run with
      | none => true
      | some r => !decide (r.mmt = mmt ∧ r.shape = w.shape ∧ r.anchor = w.anchor ∧
          r.headroom = w.headroom ∧ r.m = d.m ∧ r.n = d.n)) then some 3
  else if 2 ^ w.headroom < (if w.clr then 0 else x.run.elim 0 (·.count)) + d.k * passes w.fmt then some 4
  else if (x.origin w.skeep (chunkTag mmt w.shape wd (fmtWide w.fmt).1 sd d 0 0)).isNone then some 5
  else if 1 < foldCount w.shape wd ext ∧ !(w.clr && w.rd) then some 6
  else none

/-- The effect of MXA.MM or MXA.MMT that raises no fault (R65 to R72). -/
def State.mmRun (s : State) (t : TileId) (w : ArrWord) (word : BitVec 120) (idx : Nat)
    (pc : BitVec 48) : State :=
  let x := (s.tile t).mxa
  let sd := s.opd t w.sd
  let bd := s.opd t w.bd
  let mmt := decide (w.op = 3)
  let d := w.dims sd bd
  let prods := shapeProds w.shape
  let es := fmtSizes w.fmt
  let wide := fmtWide w.fmt
  let wd := s.width t
  let ext := if mmt then d.m else d.n
  let folds := foldCount w.shape wd ext
  let o := (x.origin w.skeep (chunkTag mmt w.shape wd wide.1 sd d 0 0)).getD .load
  let again := !mmt && decide (1 < folds ∧ 1 < chunkMax mmt w.shape wd d.k)
  let spans := sd.spansBut prods es.1 (fun p =>
    if o = .load ∨ again then (0, 0)
    else let c := chunkOf mmt w.shape wd d p 0 0; (c.rows, c.cols)) ++ bd.spans prods es.2
  let s := s.meetSpans t spans
  match s.poisonIn t spans with
  | some g => (s.bump (hcReg (tileDie t) 0xF10) 1).arrayFault t pc 10 g
  | none =>
    let mem (es off : Nat) : Nat := s.tmElem t off es
    let held := match o with
      | .active => x.active
      | .shadow => x.shadow
      | .load => none
    -- stored and streamed operands as the products take them: rows a, lanes b
    let sEl (p a i : Nat) : Nat :=
      if mmt then storedElem (mem es.1) held mmt w.shape wd sd d es.1 p i a 0
      else storedElem (mem es.1) held mmt w.shape wd sd d es.1 p a i 0
    let sLane (p a i b : Nat) : Nat :=
      if mmt then sEl p a i else storedElem (mem es.1) held mmt w.shape wd sd d es.1 p a i b
    let bEl (p i b : Nat) : Nat := mem es.2 (bd.addr p i b es.2)
    let old : SMap Cell := if w.clr then [] else x.cells
    let cells := (List.range prods).foldl (fun cs p => (List.range d.m).foldl (fun cs a =>
      (List.range d.n).foldl (fun cs b =>
        let c := (List.range d.k).foldl (fun c i =>
          (sliceProducts w.fmt (sLane p a i b) (bEl p i b)).foldl
            (Cell.addProduct w.anchor w.headroom) c) (mapGet Cell.clear cs (cellKey p a b))
        mapSet Cell.clear cs (cellKey p a b) c) cs) cs) old
    let count := (if w.clr then 0 else x.run.elim 0 (·.count)) + d.k * passes w.fmt
    let run : OpenRun := ⟨mmt, w.shape, w.anchor, w.headroom, d.m, d.n, count⟩
    let first := s.loadChunk t mmt w.shape wd wide.1 sd d 0 0
    let x' := passBuffers x o first (s.laterChunks t mmt w.shape wd wide.1 sd d folds)
    let s := s.setMxa t { x' with cells := cells, run := some run, shadowNew := false }
    -- speculation
    let unit := if mmt then shapeHeight w.shape else wd
    let marked (k : Nat) : Bool :=
      (List.range d.m).any fun a => (List.range (min unit (d.k - k / unit * unit))).any fun i =>
        isSpecialBits wide.1 (sEl 0 a (k / unit * unit + i))
    let offs := ((List.range ((d.k + unit - 1) / unit)).filter fun i => marked (i * unit)).length
    let s := if w.spec ∧ w.shape = 0 ∧ bd.zmap ∧ s.regField (mxaReg t 0x20) 0 0 = 1 then
        s.speculate t bd wide.2 d.k d.n (passes w.fmt) (bEl 0) marked offs
      else s
    let sb := sd.bytesOf prods es.1 (fun p r c => if mmt then sEl p c r else sEl p r c)
    let bb := bd.bytesOf prods es.2 (fun p r c => bEl p r c)
    if w.rd then
      let r := s.readout t w run
      (s.finishRun t w run r).capture t w word idx sb bb (r.writes.flatMap (·.2)) []
    else s.capture t w word idx sb bb [] []

/-- A word given to the array: issued, faulting or performed. The present repeat's widenings apply
to it (R332). -/
def State.arrayIssue (s : State) (t : TileId) (op : Nat) (word : BitVec 120) (pc : BitVec 48)
    (faults : ArrWord → State → Option Nat) (run : ArrWord → Nat → State → State) : State :=
  let q := (s.tile t).seq
  let w := (arrWord op word).widened q
  let idx := q.arrayIdx
  let s := s.arrayStart t
  match faults w s with
  | some row => s.arrayFault t pc row 0
  | none => run w idx s

/-- MXA.MM (R65). -/
def execMxaMm (t : TileId) (w : BitVec 120) (s : State) : Host.Outcome State Fault Refusal :=
  .next (s.seqWord t fun pc s =>
    s.arrayIssue t 2 w pc (fun a s => s.mmFault t a) (fun a idx s => s.mmRun t a w idx pc))

/-- MXA.MMT (R66). -/
def execMxaMmt (t : TileId) (w : BitVec 120) (s : State) : Host.Outcome State Fault Refusal :=
  .next (s.seqWord t fun pc s =>
    s.arrayIssue t 3 w pc (fun a s => s.mmFault t a) (fun a idx s => s.mmRun t a w idx pc))

/-! ### MXA.LDS, MXA.RD, MXA.CLR -/

/-- Dimensions of the stored operand in the form that LFORM names (R68). -/
def ldsDims (w : ArrWord) (sd : Opd) : Dims :=
  if w.lform then ⟨sd.cols, 0, sd.rows⟩ else ⟨sd.rows, 0, sd.cols⟩

/-- The fault that MXA.LDS raises. -/
def State.ldsFault (s : State) (t : TileId) (w : ArrWord) : Option Nat :=
  let sd := s.opd t w.sd
  let d := ldsDims w sd
  if w.illegal then some 1
  else if s.width t = 0 then some 7
  else if !(sd.fits (shapeProds w.shape) (fmtSizes w.fmt).1 &&
      decide (d.m ≤ (if w.lform then 128 else shapeHeight w.shape))) then some 2
  else none

/-- The effect of MXA.LDS (R68): the first chunk into the shadow buffer. -/
def State.ldsRun (s : State) (t : TileId) (w : ArrWord) (word : BitVec 120) (idx : Nat)
    (pc : BitVec 48) : State :=
  let sd := s.opd t w.sd
  let d := ldsDims w sd
  let wide := (fmtWide w.fmt).1
  let es := (fmtSizes w.fmt).1
  let prods := shapeProds w.shape
  let spans := (List.range prods).flatMap fun p =>
    let c := chunkOf w.lform w.shape (s.width t) d p 0 0
    (List.range c.rows).flatMap fun r => (List.range c.cols).map fun k =>
      (sd.addr p (c.r0 + r) (c.c0 + k) es, es)
  let s := s.meetSpans t spans
  match s.poisonIn t spans with
  | some g => (s.bump (hcReg (tileDie t) 0xF10) 1).arrayFault t pc 10 g
  | none =>
    let b := s.loadChunk t w.lform w.shape (s.width t) wide sd d 0 0
    let s := s.setMxa t { (s.tile t).mxa with shadow := some b, shadowNew := true }
    s.capture t w word idx (spans.flatMap fun x => s.bytesAt (tmGa t x.1) x.2) [] [] []

/-- MXA.LDS (R68). -/
def execMxaLds (t : TileId) (w : BitVec 120) (s : State) : Host.Outcome State Fault Refusal :=
  .next (s.seqWord t fun pc s =>
    s.arrayIssue t 1 w pc (fun a s => s.ldsFault t a) (fun a idx s => s.ldsRun t a w idx pc))

/-- The fault that MXA.RD raises: with no run open only an illegal word or a fenced array (R72). -/
def State.rdFault (s : State) (t : TileId) (w : ArrWord) : Option Nat :=
  if w.illegal then some 1
  else if s.width t = 0 then some 7
  else
    match (s.tile t).mxa.run with
    | none => none
    | some r => if s.odOk t w (shapeProds r.shape) r.m r.n then none else some 2

/-- An instruction other than a load has issued: the shadow buffer no longer holds a fresh load. -/
def State.shadowOld (s : State) (t : TileId) : State :=
  s.setMxa t { (s.tile t).mxa with shadowNew := false }

/-- The effect of MXA.RD (R72, R84). -/
def State.rdRun (s : State) (t : TileId) (w : ArrWord) (word : BitVec 120) (idx : Nat) : State :=
  let s := s.shadowOld t
  match (s.tile t).mxa.run with
  | none => s.capture t w word idx [] [] [] []
  | some run =>
    let r := s.readout t w run
    (s.finishRun t w run r).capture t w word idx [] [] (r.writes.flatMap (·.2)) []

/-- MXA.RD (R72). -/
def execMxaRd (t : TileId) (w : BitVec 120) (s : State) : Host.Outcome State Fault Refusal :=
  .next (s.seqWord t fun pc s =>
    s.arrayIssue t 4 w pc (fun a s => s.rdFault t a) (fun a idx s => s.rdRun t a w idx))

/-- MXA.CLR (R72). -/
def execMxaClr (t : TileId) (w : BitVec 120) (s : State) : Host.Outcome State Fault Refusal :=
  .next (s.seqWord t fun pc s =>
    s.arrayIssue t 5 w pc
      (fun a s => if a.illegal then some 1 else if s.width t = 0 then some 7 else none)
      (fun a idx s => ((s.shadowOld t).closeRun t).capture t a w idx [] [] [] []))

end Sys2Proof.Machine
end

