-- ==== Sys2Proof/Machine/Attention.lean ====
section
/-!
DEFINITION. The attention-block instructions (R87 to R92).
-/

namespace Sys2Proof.Machine

/-- The attention parameter block (Table 3.11). -/
structure AttParam where
  scale   : Nat
  qpos    : Nat
  kpos    : Nat
  causal  : Bool
  init    : Bool
  recomp  : Bool
  bmask   : BitVec 64
  stats   : Nat
  bad     : Bool
  bytes   : List Byte
  deriving DecidableEq, Repr

/-- The parameter block that descriptor AD points to. -/
def State.attParam (s : State) (t : TileId) (ad : Nat) : AttParam :=
  let l := s.bytesAt (tmGa t (s.opd t ad).base) 32
  let f := field l 12 1
  { scale := field l 0 4, qpos := field l 4 4, kpos := field l 8 4,
    causal := f.testBit 0, init := f.testBit 1, recomp := f.testBit 2,
    bmask := BitVec.ofNat 64 (field l 16 8), stats := field l 24 4,
    bad := decide (8 ≤ f ∨ field l 13 3 ≠ 0 ∨ field l 28 4 ≠ 0), bytes := l }

/-- Whether an element is masked (R88). -/
def AttParam.masked (a : AttParam) (q k : Nat) : Bool :=
  !(a.bmask.getLsbD (q / 16 * 8 + k / 16)) || (a.causal && decide (a.qpos + q < a.kpos + k))

/-- RNE conversion to binary32 (R37): bits and ROVF. -/
def rnd32 (v : FVal) : Nat × Bool := fmt32.readout .rne v

/-- RNE conversion to binary16: bits and ROVF. -/
def rnd16 (v : FVal) : Nat × Bool := fmt16.readout .rne v

/-- The binary32 value nearest to e^y (chapter 3). -/
def exp32 (y : Nat) : Nat := fmt32.encode (FVal.exp (fmt32.decode y))

/-- A binary32 value. -/
def val32 (b : Nat) : FVal := fmt32.decode b

/-- Bits of −∞ in binary32. -/
def negInf32 : Nat := 0xFF800000

/-- Difference of binary32 values, rounded. -/
def sub32 (a b : Nat) : Nat × Bool := rnd32 (FVal.add (val32 a) (FVal.neg (val32 b)))

/-- The scores of one row: bits, whether ROVF was raised, for each unmasked column; −∞ where masked
(R87, R88). -/
def attScores (a : AttParam) (q n : Nat) (x : Nat → FVal) : List (Nat × Bool) :=
  (List.range n).map fun k =>
    if a.masked q k then (negInf32, false)
    else
      let r := rnd32 (x k)
      let m := rnd32 (FVal.mul (val32 r.1) (val32 a.scale))
      (m.1, r.2 || m.2)

/-- One row of MXA.ATS: the probabilities with ROVF for each column, and the statistics after it
(R87). -/
def attRow (st : StatRow) (sc : List (Nat × Bool)) : List (Nat × Bool) × StatRow :=
  let rowmax := sc.foldl (fun a x => FVal.pick true a (val32 x.1)) (.inf true)
  let mNew := FVal.pick true (val32 st.m) rowmax
  if mNew = .inf true then
    let l := rnd32 (FVal.add (val32 (rnd32 (FVal.mul (val32 st.l) (.fin false 1 0))).1) (.fin false 0 0))
    (sc.map fun _ => (0, false), ⟨negInf32, l.1, 0x3F800000⟩)
  else
    let mb := fmt32.encode mNew
    let c := if val32 st.m = .inf true then 0 else exp32 (sub32 st.m mb).1
    let p := sc.map fun x =>
      if x.1 = negInf32 then (0, x.2)
      else let r := rnd16 (val32 (exp32 (sub32 x.1 mb).1)); (r.1, x.2 || r.2)
    let sum := p.foldl (fun a x => FVal.add a (fmt16.decode x.1)) (.fin false 0 0)
    let l := rnd32 (FVal.add (val32 (rnd32 (FVal.mul (val32 st.l) (val32 c))).1)
      (val32 (rnd32 sum).1))
    (p, ⟨mb, l.1, c⟩)

/-- One row of MXA.ATS with RECOMP = 1 (R91): from the stored binary16 m and l. -/
def attRecomp (m l : Nat) (sc : List (Nat × Bool)) : List (Nat × Bool) :=
  let mv := fmt16.decode m
  sc.map fun x =>
    if x.1 = negInf32 ∨ mv = .inf true then (0, x.2)
    else
      let e := exp32 (rnd32 (FVal.add (val32 x.1) (FVal.neg mv))).1
      let d := rnd32 (FVal.div (val32 e) (fmt16.decode l))
      let r := rnd16 (val32 d.1)
      (r.1, x.2 || r.2)

/-- Statistics rows start as zeros (DESIGN CHOICE, log entry 2). -/
def statReset : StatRow := ⟨0, 0, 0⟩

/-- The fault that an attention instruction raises, in the order of R109. -/
def State.attFault (s : State) (t : TileId) (w : ArrWord) : Option Nat :=
  let sd := s.opd t w.sd
  let bd := s.opd t w.bd
  let od := s.opd t w.od
  let ad := s.opd t w.ad
  let d : Dims := if w.op = 10 then ⟨sd.rows, sd.cols, 0⟩ else w.dims sd bd
  let shape := if w.op = 10 then 0 else w.shape
  let prods := shapeProds shape
  let es := fmtSizes w.fmt
  let outEs := if w.op = 9 then 4 else 2
  let a := s.attParam t w.ad
  let x := (s.tile t).mxa
  let ins := if w.op = 10 then sd.fits 1 4
    else sd.fits prods es.1 && bd.fits prods es.2 && decide (bd.rows = d.k)
  let usesStats := decide (w.op = 10 ∨ (w.op = 8 ∧ a.recomp))
  if w.illegal then some 1
  else if s.width t = 0 then some 7
  else if !(ins && decide (od.rows = d.m ∧ od.cols = d.n) && od.fits prods outEs &&
      decide (d.m ≤ shapeHeight shape ∧ d.n ≤ 128) &&
      decide (ad.base % 64 = 0 ∧ ad.base + 32 ≤ 2 ^ 22) && !a.bad &&
      (!usesStats || decide (a.stats % 64 = 0 ∧ a.stats + 4 * d.m ≤ 2 ^ 22))) then some 2
  else if w.op ≠ 10 ∧ 2 ^ w.headroom < d.k * passes w.fmt then some 4
  else if !(match w.op with
      | 8 => a.recomp || (if a.init then x.att.isNone else x.att.any fun q => !q.atvDue)
      | 9 => x.att.any (·.atvDue)
      | _ => x.att.any fun q => !q.atvDue) then some 8
  else if w.op = 8 ∧ !a.recomp ∧ !a.init ∧ s.ctxDet (s.tile t).seq.ctx ∧
      x.att.any (fun q => decide (a.kpos ≤ q.kpos)) then some 9
  else none

/-- The exact products of an attention run (R87, R89): cells of the outputs that take part. -/
def State.attCells (s : State) (t : TileId) (w : ArrWord) (sd bd : Opd) (d : Dims)
    (on : Nat → Nat → Bool) : SMap Cell :=
  let es := fmtSizes w.fmt
  (List.range (shapeProds w.shape)).foldl (fun cs p => (List.range d.m).foldl (fun cs a =>
    (List.range d.n).foldl (fun cs b =>
      if !(on a b) then cs
      else
        let c := (List.range d.k).foldl (fun c i =>
          (sliceProducts w.fmt (s.tmElem t (sd.addr p a i es.1) es.1)
            (s.tmElem t (bd.addr p i b es.2) es.2)).foldl
            (Cell.addProduct w.anchor w.headroom) c) Cell.clear
        mapSet Cell.clear cs (cellKey p a b) c) cs) cs) []

/-- The buffers after an attention run, and the open run closed. -/
def State.attBuffers (s : State) (t : TileId) (w : ArrWord) (sd : Opd) (d : Dims) : State :=
  let wd := s.width t
  let wide := (fmtWide w.fmt).1
  let x := (s.tile t).mxa
  let o := (x.origin false (chunkTag false w.shape wd wide sd d 0 0)).getD .load
  let first := s.loadChunk t false w.shape wd wide sd d 0 0
  let x' := passBuffers x o first
    (s.laterChunks t false w.shape wd wide sd d (foldCount w.shape wd d.n))
  (s.setMxa t { x' with shadowNew := false }).closeRun t

/-- What one row of ATS or ATV adds to a readout. -/
def Readout.put (o : Readout) (w : Nat × List Byte) (term : BitVec 32 × Nat × Nat) (r : Raised) :
    Readout :=
  ⟨o.writes ++ [w], o.terms ++ [term], r⟩

/-- Flat index of an output element [a][b] (R85). -/
def Opd.flat (d : Opd) (a b : Nat) : Nat := (d.elemBase + a * d.elemRow + b) % 2 ^ 48

/-- The effect of MXA.ATS that raises no fault (R87, R88, R91). -/
def State.atsRun (s : State) (t : TileId) (w : ArrWord) (word : BitVec 120) (idx : Nat)
    (pc : BitVec 48) : State :=
  let sd := s.opd t w.sd
  let bd := s.opd t w.bd
  let od := s.opd t w.od
  let d := w.dims sd bd
  let prods := shapeProds w.shape
  let es := fmtSizes w.fmt
  let wide := fmtWide w.fmt
  let a := s.attParam t w.ad
  let spans := sd.spans prods es.1 ++ bd.spans prods es.2 ++ [((s.opd t w.ad).base, 32)] ++
    (if a.recomp then [(a.stats, 4 * d.m)] else [])
  let s := s.meetSpans t spans
  match s.poisonIn t spans with
  | some g => (s.bump (hcReg (tileDie t) 0xF10) 1).arrayFault t pc 10 g
  | none =>
    let cells := s.attCells t w sd bd d fun q k => a.bmask.getLsbD (q / 16 * 8 + k / 16)
    let x := (s.tile t).mxa
    let stats0 : SMap StatRow := if a.init ∧ !a.recomp then
        (List.range 128).foldl (fun m q => mapSet statReset m q ⟨negInf32, 0, (mapGet statReset m q).c⟩)
          x.stats
      else x.stats
    let go := (List.range prods).foldl (fun (z : Readout × SMap StatRow) p =>
      (List.range d.m).foldl (fun (z : Readout × SMap StatRow) q =>
        let row := prodRow w.shape p + q
        let sc := attScores a q d.n fun k =>
          (mapGet Cell.clear cells (cellKey p q k)).value w.anchor
        let r := if a.recomp then
            (attRecomp (s.tmElem t (a.stats + 4 * q) 2) (s.tmElem t (a.stats + 4 * q + 2) 2) sc,
              mapGet statReset z.2 row)
          else attRow (mapGet statReset z.2 row) sc
        let o := (List.range d.n).foldl (fun (o : Readout) k =>
          let e := r.1.getD k (0, false)
          let c := mapGet Cell.clear cells (cellKey p q k)
          let nanScore := (val32 (sc.getD k (0, false)).1).isNan
          o.put (od.addr p q k 2, leBytes 2 e.1) (od.tensor, od.flat q k, e.1)
            (o.raised.add p q k c (c.special || nanScore) e.2 false)) z.1
        (o, mapSet statReset z.2 row r.2)) z) (⟨[], [], Raised.none⟩, stats0)
    let marked (k : Nat) : Bool :=
      let u := s.width t
      (List.range d.m).any fun q => (List.range (min u (d.k - k / u * u))).any fun i =>
        isSpecialBits wide.1 (s.tmElem t (sd.addr 0 q (k / u * u + i) es.1) es.1)
    let u := s.width t
    let offs := ((List.range ((d.k + u - 1) / u)).filter fun i => marked (i * u)).length
    let bEl (i b : Nat) : Nat := s.tmElem t (bd.addr 0 i b es.2) es.2
    let sb := sd.bytesOf prods es.1 fun p r c => s.tmElem t (sd.addr p r c es.1) es.1
    let bb := bd.bytesOf prods es.2 fun p r c => s.tmElem t (bd.addr p r c es.2) es.2
    let s := s.attBuffers t w sd d
    let s := if w.spec ∧ (w.shape = 0 ∨ w.shape = 5) ∧ bd.zmap ∧
        s.regField (mxaReg t 0x20) 0 0 = 1 then
        s.speculate t bd wide.2 d.k d.n (passes w.fmt) bEl marked offs
      else s
    let s := s.putMany t go.1.writes
    let s := s.recordFlags t go.1.raised w.anchor 0
    let s := s.digestAll t 2 go.1.terms
    let x := (s.tile t).mxa
    let s := if a.recomp then s
      else
        let att := match x.att with
          | some q => if a.init then some ⟨true, true, a.kpos⟩ else some ⟨true, q.firstAtv, a.kpos⟩
          | none => some ⟨true, true, a.kpos⟩
        s.setMxa t { x with stats := go.2, att := att }
    s.capture t w word idx sb bb (go.1.writes.flatMap (·.2)) a.bytes

/-- MXA.ATS (R87). -/
def execMxaAts (t : TileId) (w : BitVec 120) (s : State) : Host.Outcome State Fault Refusal :=
  .next (s.seqWord t fun pc s =>
    s.arrayIssue t 8 w pc (fun a s => s.attFault t a) (fun a idx s => s.atsRun t a w idx pc))

/-- The effect of MXA.ATV that raises no fault (R89). -/
def State.atvRun (s : State) (t : TileId) (w : ArrWord) (word : BitVec 120) (idx : Nat)
    (pc : BitVec 48) : State :=
  let sd := s.opd t w.sd
  let bd := s.opd t w.bd
  let od := s.opd t w.od
  let d := w.dims sd bd
  let prods := shapeProds w.shape
  let es := fmtSizes w.fmt
  let a := s.attParam t w.ad
  let first := (s.tile t).mxa.att.any (·.firstAtv)
  let spans := sd.spans prods es.1 ++ bd.spans prods es.2 ++ [((s.opd t w.ad).base, 32)] ++
    (if first then [] else od.spans prods 4)
  let s := s.meetSpans t spans
  match s.poisonIn t spans with
  | some g => (s.bump (hcReg (tileDie t) 0xF10) 1).arrayFault t pc 10 g
  | none =>
    let cells := s.attCells t w sd bd d fun _ _ => true
    let stats := (s.tile t).mxa.stats
    let go := (List.range prods).foldl (fun (o : Readout) p => (List.range d.m).foldl
      (fun (o : Readout) q => (List.range d.n).foldl (fun (o : Readout) e =>
        let c := mapGet Cell.clear cells (cellKey p q e)
        let st := mapGet statReset stats (prodRow w.shape p + q)
        let off := od.addr p q e 4
        let old := if first then 0 else s.tmElem t off 4
        let y := rnd32 (FVal.mul (val32 old) (val32 st.c))
        let z := rnd32 (c.value w.anchor)
        let r := rnd32 (FVal.add (val32 y.1) (val32 z.1))
        o.put (off, leBytes 4 r.1) (od.tensor, od.flat q e, r.1)
          (o.raised.add p q e c c.special (y.2 || z.2 || r.2) false)) o) o) ⟨[], [], Raised.none⟩
    let sb := sd.bytesOf prods es.1 fun p r c => s.tmElem t (sd.addr p r c es.1) es.1
    let bb := bd.bytesOf prods es.2 fun p r c => s.tmElem t (bd.addr p r c es.2) es.2
    let s := s.attBuffers t w sd d
    let s := s.putMany t go.writes
    let s := s.recordFlags t go.raised w.anchor 1
    let s := s.digestAll t 4 go.terms
    let x := (s.tile t).mxa
    let s := s.setMxa t { x with att := x.att.map fun q => ⟨false, false, q.kpos⟩ }
    s.capture t w word idx sb bb (go.writes.flatMap (·.2)) a.bytes

/-- MXA.ATV (R89). -/
def execMxaAtv (t : TileId) (w : BitVec 120) (s : State) : Host.Outcome State Fault Refusal :=
  .next (s.seqWord t fun pc s =>
    s.arrayIssue t 9 w pc (fun a s => s.attFault t a) (fun a idx s => s.atvRun t a w idx pc))

/-- The effect of MXA.ATF that raises no fault (R90). -/
def State.atfRun (s : State) (t : TileId) (w : ArrWord) (word : BitVec 120) (idx : Nat)
    (pc : BitVec 48) : State :=
  let sd := s.opd t w.sd
  let od := s.opd t w.od
  let a := s.attParam t w.ad
  let spans := sd.spans 1 4 ++ [((s.opd t w.ad).base, 32)]
  let s := s.meetSpans t spans
  match s.poisonIn t spans with
  | some g => (s.bump (hcReg (tileDie t) 0xF10) 1).arrayFault t pc 10 g
  | none =>
    let stats := (s.tile t).mxa.stats
    let out := (List.range sd.rows).foldl (fun (o : Readout) q =>
      let st := mapGet statReset stats q
      (List.range sd.cols).foldl (fun (o : Readout) e =>
        let r : Nat × Bool := if (val32 st.l).isZero then (0, false)
          else
            let x := rnd32 (FVal.div (val32 (s.tmElem t (sd.addr 0 q e 4) 4)) (val32 st.l))
            let y := rnd16 (val32 x.1)
            (y.1, x.2 || y.2)
        o.put (od.addr 0 q e 2, leBytes 2 r.1) (od.tensor, 0, 0)
          (o.raised.add 0 q e Cell.clear false r.2 false)) o) ⟨[], [], Raised.none⟩
    let sts := (List.range sd.rows).flatMap fun q =>
      let st := mapGet statReset stats q
      [(a.stats + 4 * q, leBytes 2 (rnd16 (val32 st.m)).1),
       (a.stats + 4 * q + 2, leBytes 2 (rnd16 (val32 st.l)).1)]
    let sb := sd.bytesOf 1 4 fun p r c => s.tmElem t (sd.addr p r c 4) 4
    let s := (s.shadowOld t).putMany t (out.writes ++ sts)
    let s := s.recordFlags t out.raised 0 0
    let s := s.setMxa t { (s.tile t).mxa with att := none }
    s.capture t w word idx sb [] ((out.writes ++ sts).flatMap (·.2)) a.bytes

/-- MXA.ATF (R90). -/
def execMxaAtf (t : TileId) (w : BitVec 120) (s : State) : Host.Outcome State Fault Refusal :=
  .next (s.seqWord t fun pc s =>
    s.arrayIssue t 10 w pc (fun a s => s.attFault t a) (fun a idx s => s.atfRun t a w idx pc))

end Sys2Proof.Machine
end

