-- ==== Sys2Proof/Machine/Tge.lean ====
section
/-!
DEFINITION. The thread-group engine (chapter 4): launch and placement, memory access of groups,
divergence, locks, block barriers, the spin detector and faults.
-/

namespace Sys2Proof.Machine

/-! ### Registers, placement -/

/-- TGE_ register of a tile. -/
def tgeReg (t : TileId) (off : Nat) : Nat := tileReg t (0x2000 + off)

/-- Least multiple of m that is not below n. -/
def roundUp (n m : Nat) : Nat := (n + m - 1) / m * m

/-- Registers that each thread is given (R112). -/
def KernelDesc.alloc (d : KernelDesc) : Nat := roundUp d.regs 8

/-- Groups of a block (R117). -/
def KernelDesc.groups (d : KernelDesc) : Nat := (d.threads + 31) / 32

/-- Block-shared units of 4 KiB of a block (R116). -/
def KernelDesc.units (d : KernelDesc) : Nat := (d.shared + 4095) / 4096

/-- The kernel descriptor in 64 bytes, `none` where R113 rejects it. -/
def kernelDesc (l : List Byte) : Option KernelDesc :=
  let d : KernelDesc :=
    { entry := BitVec.ofNat 48 (field l 0 8), blocks := field l 8 4, threads := field l 12 2,
      regs := field l 14 1, shared := field l 16 4, param := BitVec.ofNat 48 (field l 24 8) }
  if field l 0 8 < 2 ^ 48 ∧ field l 0 8 % 8 = 0 ∧ 1 ≤ d.blocks ∧ d.blocks ≤ 2 ^ 24 ∧
      1 ≤ d.threads ∧ d.threads ≤ 1024 ∧ 1 ≤ d.regs ∧ field l 15 1 = 0 ∧ d.shared ≤ 1048576 ∧
      field l 20 4 = 0 ∧ field l 24 8 < 2 ^ 48 ∧ field l 32 32 = 0 then some d
  else none

/-- POOL of a tile, in units of 64 KiB (Table 4.10). -/
def State.bsmPool (s : State) (t : TileId) : Nat := s.regField (tgeReg t 8) 5 0

/-- Whether one block of a kernel can fit with every resource free (R115). -/
def KernelDesc.fits (d : KernelDesc) (pool : Nat) : Bool :=
  decide (d.groups * 32 * d.alloc ≤ 65536 ∧ d.units * 4096 ≤ pool * 65536)

/-- The groups that are resident, with their slots. -/
def TgeSt.resident (x : TgeSt) : List (Nat × TgGroup) :=
  x.groups.filterMap fun e => e.2.map fun g => (e.1, g)

/-- The blocks that are resident, with their slots. -/
def TgeSt.placed (x : TgeSt) : List (Nat × TgBlock) :=
  x.blocks.filterMap fun e => e.2.map fun b => (e.1, b)

/-- The group of a slot. -/
def TgeSt.group (x : TgeSt) (g : Nat) : Option TgGroup := mapGet none x.groups g

/-- The engine's state replaced. -/
def State.setTge (s : State) (t : TileId) (x : TgeSt) : State := s.setTile t { s.tile t with tge := x }

/-- Slots of a range that are free, lowest first. -/
def freeSlots (n : Nat) (used : List Nat) : List Nat := (List.range n).filter fun i => !(used.contains i)

/-- The lowest block-shared offset, in 4 KiB units, at which n units are free. -/
def freeUnits (total n : Nat) (used : List (Nat × Nat)) : Option Nat :=
  (List.range (total + 1)).find? fun b => decide (b + n ≤ total) &&
    used.all fun u => decide (b + n ≤ u.1 ∨ u.1 + u.2 ≤ b)

/-- Lanes of group k of a block that exist, as a mask (R111). -/
def lanesOf (threads k : Nat) : BitVec 32 := BitVec.ofNat 32 (2 ^ (min 32 (threads - 32 * k)) - 1)

/-! ### The stack -/

/-- The word at a global address, as an atomic reads it. -/
def State.word64 (s : State) (ga : Nat) : BitVec 64 := BitVec.ofNat 64 (leNat (s.bytesAt ga 8))

/-- Index of the entry that the group runs (R128, R133, R140): the topmost that can run. A path can
run unless lanes of it stand in an entry above; a parked entry, once a lane was woken or a word of
it reads 0. -/
def runEntry (zero : Nat → Bool) : List StackEnt → BitVec 32 → Nat → Option Nat
  | [], _, _ => none
  | e :: rest, above, i =>
    match e.st with
    | .path => if e.mask &&& above = 0 then some i else runEntry zero rest (above ||| e.mask) (i + 1)
    | .parked ws woken =>
      if woken ≠ 0 ∨ ws.any (fun w => zero w.2.2) then some i
      else runEntry zero rest (above ||| e.mask) (i + 1)
    | .waiting _ _ => runEntry zero rest (above ||| e.mask) (i + 1)

/-- Whether a lock word reads 0. -/
def State.wordZero (s : State) (ga : Nat) : Bool := decide (s.word64 ga = 0)

/-- Entries that have ended are popped (R128): those without lanes, and a path at its
reconvergence point. -/
def popEnts (zero : Nat → Bool) : Nat → List StackEnt → List StackEnt
  | 0, l => l
  | n + 1, l =>
    let l := l.filter fun e => decide (e.mask ≠ 0)
    match runEntry zero l 0 0 with
    | none => l
    | some i =>
      match l[i]? with
      | none => l
      | some e => if e.st = .path ∧ e.rpc = some e.pc then popEnts zero n (l.eraseIdx i) else l

/-- The lane's bit. -/
def laneBit (l : Nat) : BitVec 32 := 1#32 <<< l

/-- Lanes of a mask, ascending. -/
def lanes (m : BitVec 32) : List Nat := (List.range 32).filter fun l => m.getLsbD l

/-- Lowest lane of a mask. -/
def lowLane (m : BitVec 32) : Nat := (lanes m).headD 0

/-- Whether a group waits for data beyond the tile or for a sync word or barrier (R119, R276). -/
def TgGroup.awaits (g : TgGroup) : Bool := !g.banks.isEmpty || !g.sync.isEmpty

/-- Whether a group is ready but for a place in the active set (R118). -/
def State.groupReady (s : State) (g : TgGroup) : Bool :=
  !g.awaits && (runEntry s.wordZero g.stack 0 0).isSome

/-- One place of the active set given to the oldest ready group of the pending set (R120). -/
def State.fillPlace (s : State) (x : TgeSt) : TgeSt :=
  let rs := x.resident
  if 8 ≤ (rs.filter fun e => e.2.active).length then x
  else
    let ready := rs.filter fun e => !e.2.active && s.groupReady e.2
    let best := ready.foldl (fun (b : Option (Nat × TgGroup)) e =>
      match b with
      | none => some e
      | some c => if e.2.age < c.2.age then some e else b) none
    match best with
    | none => x
    | some e => { x with groups := mapSet none x.groups e.1 (some { e.2 with active := true }) }

/-- Groups that can no longer run leave the active set, and free places are taken (R120). -/
def State.fillActive (s : State) (x : TgeSt) : TgeSt :=
  let x := { x with groups := x.groups.map fun e =>
    (e.1, e.2.map fun g =>
      if g.active ∧ (runEntry s.wordZero g.stack 0 0).isNone then { g with active := false } else g) }
  (List.range 8).foldl (fun x _ => s.fillPlace x) x

/-- Finished groups and blocks free their places; a launch whose blocks are all done ends, which
the sequencer sees (R113, R139). -/
def State.tgSettle (s : State) (t : TileId) (x : TgeSt) : State :=
  let gs := x.groups.filter fun e => e.2.any fun g => !g.stack.isEmpty
  let used := gs.filterMap fun e => e.2.map fun g => g.block
  let bs := x.blocks.filter fun e => used.contains e.1
  let ended := x.launch.any fun l => decide (l.desc.blocks ≤ l.next) && bs.isEmpty
  let x := { x with groups := gs, blocks := bs, launch := if ended then none else x.launch }
  let s := s.setTge t (s.fillActive x)
  if ended then s.setSeq t { (s.tile t).seq with tgBusy := false } else s

/-! ### Faults -/

/-- A fault of Table 4.7 (R146, R148): recorded unless a fault is held, one CONTAINED event unless
`quiet` (a translation fault has its own, R205), every group of the launch stops and frees what it
held, and the sequencer sees a launch that ended in a fault. -/
def State.tgFault (s : State) (t : TileId) (slot lane code : Nat) (pc pc2 : BitVec 48) (addr : Nat)
    (loc detail : Nat) (quiet : Bool) : State :=
  let x := (s.tile t).tge
  let ctx := x.launch.elim (s.tile t).seq.ctx (·.ctx)
  let a := tgeReg t 0x20
  let bslot := (x.group slot).elim 0 (·.block)
  let s := if s.regField a 34 34 = 1 then s
    else
      let v := putBits (putBits (putBits (putBits (putBits (putBits 0 63 56 code) 55 50 slot) 49 45 lane)
        44 41 bslot) 40 35 ctx.val) 34 34 1
      (((s.setReg a v).setReg (a + 8) (putBits 0 47 0 pc.toNat)).setReg (a + 16)
        (putBits 0 47 0 pc2.toNat)).setReg (a + 24) (putBits 0 47 0 addr)
  let s := if quiet then s else s.raiseTile t (0x100 + code) ctx loc detail
  let s := s.bump (tgeReg t 0x130) (if code = 0x0D then 1 else 0)
  let s := s.setTge t { x with launch := none, groups := [], blocks := [], queue := [] }
  (s.setSeq t { (s.tile t).seq with tgBusy := false }).seqFault t 3

/-- A fault whose record names the program counter only. -/
def State.tgFaultPc (s : State) (t : TileId) (slot lane code : Nat) (pc : BitVec 48) (addr : Nat) :
    State :=
  s.tgFault t slot lane code pc 0 addr pc.toNat 0 false

/-! ### TG.LAUNCH and placement -/

/-- TG.LAUNCH (R113, R115): the descriptor is read and checked; a busy engine makes the word wait
(R322). -/
def execTgLaunch (t : TileId) (w : BitVec 120) (s : State) : Host.Outcome State Fault Refusal :=
  let q := (s.tile t).seq
  let x := (s.tile t).tge
  .next (
    if s.seqReady t ∧ (q.tgBusy ∨ x.launch.isSome) then s.wait (.tgLaunch t w)
    else s.seqWord t fun pc s =>
      if wbits w 119 48 ≠ 0 then s.seqFault t 1
      else
        let va := wbits w 47 0
        match s.xlAns (tileDie t) q.ctx va .load .plain with
        | .error c =>
          (s.xlFault t q.ctx 1 c va pc.toNat .load).tgFault t 0 0 5 pc 0 va 0 0 true
        | .ok a =>
          let s := s.xlLookup t q.ctx va
          if s.poisonedAt a.ga 64 then
            (s.bump (hcReg (gaDie a.ga) 0xF10) 1).tgFault t 0 0 6 pc 0 va va 0 false
          else
            match kernelDesc (s.bytesAt a.ga 64) with
            | none => s.tgFaultPc t 0 0 2 pc va
            | some d =>
              if !(d.fits (s.bsmPool t)) then s.tgFaultPc t 0 0 2 pc va
              else
                let s := s.setTge t { (s.tile t).tge with launch := some ⟨d, q.ctx, 0⟩ }
                s.setSeq t { (s.tile t).seq with tgBusy := true })

/-- A group as it is placed (R111, R114). -/
def newGroup (d : KernelDesc) (bslot k age : Nat) : TgGroup :=
  { block := bslot, num := k, age := age, active := false,
    stack := [⟨d.entry, lanesOf d.threads k, none, .path⟩], gone := ~~~(lanesOf d.threads k),
    regs := [], locks := [], back := [], banks := [], sync := [], win := none }

/-- Placement of the next block in index order, when every resource it needs is free together
(R114, R117). -/
def State.placeNext (s : State) (t : TileId) : State :=
  let x := (s.tile t).tge
  match x.launch with
  | none => s
  | some l =>
    let d := l.desc
    let rs := x.resident
    let gslots := freeSlots 48 (rs.map (·.1))
    let bslots := freeSlots 16 (x.placed.map (·.1))
    let base := if d.units = 0 then some 0
      else freeUnits (s.bsmPool t * 16) d.units (x.placed.map fun b => (b.2.base, d.units))
    match bslots.head?, base with
    | some bs, some b =>
      if d.blocks ≤ l.next ∨ gslots.length < d.groups ∨
          65536 < (rs.length + d.groups) * 32 * d.alloc then s
      else
        let gs := (List.range d.groups).foldl (fun m k =>
          mapSet none m (gslots.getD k 0) (some (newGroup d bs k (x.ages + k)))) x.groups
        let x := { x with groups := gs, blocks := mapSet none x.blocks bs (some ⟨l.next, b⟩),
                          ages := x.ages + d.groups, launch := some { l with next := l.next + 1 } }
        s.setTge t (s.fillActive x)
    | _, _ => s

/-- BLOCK_PLACE (R114). -/
def execBlockPlace (t : TileId) (s : State) : Host.Outcome State Fault Refusal :=
  .next (if s.tileOn t then s.placeNext t else s)

/-! ### Issue -/

/-- What an issuing group works with: its slot, the entry it runs and the launch. -/
structure TgIssue where
  slot  : Nat
  g     : TgGroup
  i     : Nat
  ent   : StackEnt
  desc  : KernelDesc
  ctx   : CtxId
  base  : Nat
  deriving DecidableEq, Repr

/-- The group of a slot when it may issue now (R118): active, its earlier requests left and
answered, an entry that can run. -/
def State.tgReady (s : State) (t : TileId) (slot : Nat) : Option TgIssue :=
  if !(s.tileOn t) then none
  else
    let x := (s.tile t).tge
    match x.launch, x.group slot with
    | some l, some g =>
      if !g.active || g.awaits || x.queue.any (fun r => decide (r.group = slot)) then none
      else
        match runEntry s.wordZero g.stack 0 0 with
        | none => none
        | some i =>
          match g.stack[i]? with
          | none => none
          | some e =>
            some ⟨slot, g, i, e, l.desc, l.ctx, (mapGet none x.blocks g.block).elim 0 (·.base)⟩
    | _, _ => none

/-- A group put back after its instruction, ended entries popped, and the engine settled. -/
def State.putGroup (s : State) (t : TileId) (slot : Nat) (g : TgGroup) : State :=
  let g := { g with stack := popEnts s.wordZero 40 g.stack }
  let x := (s.tile t).tge
  s.tgSettle t { x with groups := mapSet none x.groups slot (some g) }

/-- What issuing an instruction of a group does before its own effect: the translation cache, and the count of
instructions. -/
def State.tgIssued (s : State) (t : TileId) (u : TgIssue) : State :=
  (s.xlLookup t u.ctx u.ent.pc.toNat).bump (tileReg t 0x880) 1

/-- An instruction of a group that stands on a path: its effect, given what it issues with. A
parked entry can only run its TG.ACQ again, so any other instruction leaves the state as it is
(DESIGN CHOICE, log entry 9). -/
def State.tgInstr (s : State) (t : TileId) (slot : Nat) (act : TgIssue → State → State) : State :=
  match s.tgReady t slot with
  | none => s
  | some u =>
    if u.ent.st = .path then
      match s.xlAns (tileDie t) u.ctx u.ent.pc.toNat .fetch .plain with
      | .error c =>
        (s.xlFault t u.ctx 1 c u.ent.pc.toNat u.ent.pc.toNat .fetch).tgFault t u.slot
          (lowLane u.ent.mask) 5 u.ent.pc 0 u.ent.pc.toNat 0 0 true
      | .ok _ => act u (s.tgIssued t u)
    else s

/-- The entry a group runs replaced. -/
def TgIssue.setEnt (u : TgIssue) (e : StackEnt) : TgGroup :=
  { u.g with stack := u.g.stack.set u.i e }

/-- The group after an instruction that only falls through. -/
def TgIssue.advance (u : TgIssue) : TgGroup := u.setEnt { u.ent with pc := u.ent.pc + 8 }

/-- Whether a thread may name a register (R112, Table 4.1). -/
def TgIssue.regOk (u : TgIssue) (r : Nat) : Bool := decide (r < u.desc.alloc ∧ r < 255)

/-- Whether a thread may name a pair of registers. -/
def TgIssue.pairOk (u : TgIssue) (r : Nat) : Bool := u.regOk r && u.regOk (r + 1)

/-- A lane's register. -/
def TgGroup.reg (g : TgGroup) (lane r : Nat) : BitVec 32 := mapGet 0 g.regs (lane * 256 + r)

/-- A lane's register pair, low register first. -/
def TgGroup.pair (g : TgGroup) (lane r : Nat) : BitVec 64 := g.reg lane (r + 1) ++ g.reg lane r

/-- Registers written, as (key, value). -/
def TgGroup.write (g : TgGroup) (l : List (Nat × BitVec 32)) : TgGroup :=
  { g with regs := l.foldl (fun m e => mapSet 0 m e.1 e.2) g.regs }

/-- The spin detector's signature after loaded values (R143). -/
def TgGroup.sign (g : TgGroup) (l : List (Nat × BitVec 32)) : TgGroup :=
  { g with win := g.win.map fun w =>
      { w with sig := l.foldl (fun a e => Config.spinSignature a (e.2.zeroExtend 64)) w.sig } }

/-! ### Memory access -/

/-- The address of a lane's access: its register pair plus the offset, modulo 2^48. -/
def laneVa (g : TgGroup) (lane : Nat) (ra : BitVec 8) (off : BitVec 16) : Nat :=
  ((g.pair lane ra.toNat).toNat + (ofTwos 16 off.toNat % 2 ^ 48).toNat) % 2 ^ 48

/-- A value written into a register, or a pair for eight bytes (DEDUCED, log entry 10). -/
def toRegs (lane : Nat) (reg : BitVec 8) (size : Nat) (sx : Bool) (bs : List Byte) :
    List (Nat × BitVec 32) :=
  let v := leNat bs
  let k := lane * 256 + reg.toNat
  if size = 8 then [(k, BitVec.ofNat 32 v), (k + 1, BitVec.ofNat 32 (v / 2 ^ 32))]
  else if sx then [(k, BitVec.ofInt 32 (ofTwos (8 * size) v))]
  else [(k, BitVec.ofNat 32 v)]

/-- Result of an atomic operation on a word of w bits (R125). -/
def atomValue (op : AtomOp) (w old opnd cmp : Nat) : Nat :=
  match op with
  | .add => (old + opnd) % 2 ^ w
  | .and => old &&& opnd
  | .or => old ||| opnd
  | .xor => old ^^^ opnd
  | .minS => if ofTwos w opnd < ofTwos w old then opnd else old
  | .maxS => if ofTwos w old < ofTwos w opnd then opnd else old
  | .minU => min old opnd
  | .maxU => max old opnd
  | .swap => opnd
  | .cas => if old = cmp then opnd else old
  | .fmin => fmt32.encode (FVal.pick false (fmt32.decode old) (fmt32.decode opnd))
  | .fmax => fmt32.encode (FVal.pick true (fmt32.decode old) (fmt32.decode opnd))
  | .fadd => fmt32.encode (FVal.add (fmt32.decode old) (fmt32.decode opnd))

/-- What performing accesses answers: values for registers, and the lanes that fault as (lane,
code, address). -/
structure Done where
  s      : State
  vals   : List (Nat × BitVec 32)
  faults : List (Nat × Nat × Nat)
  deriving DecidableEq, Repr

/-- One lane's atomic at its home (R125): a poisoned granule is consumed (R217), region 3 is R275. -/
def State.atomAcc (d : Done) (t : TileId) (ctx : CtxId) (x : XlOk) (a : LaneAcc) (op : AtomOp)
    (opnd cmp : BitVec 64) (ret : Option (BitVec 8)) : Done :=
  let s := d.s
  let back (bs : List Byte) : List (Nat × BitVec 32) :=
    ret.elim [] fun r => toRegs a.lane.val r a.size false bs
  match gaRegion x.ga with
  | 3 =>
    let f := s.free
    { d with s := f.2.badSyncWrite x.ga ctx.val (some t) (if gaDie x.ga = 63 then tileDie t else gaDie x.ga),
             vals := d.vals ++ back (leBytes a.size f.1.toNat) }
  | 4 =>
    let r := s.regRead x.ga a.size
    let v := atomValue op (8 * a.size) (leNat r.1) (opnd.toNat % 2 ^ (8 * a.size))
      (cmp.toNat % 2 ^ (8 * a.size))
    { d with s := r.2.regStoreBytes (some ctx.val) x.ga (leBytes a.size v), vals := d.vals ++ back r.1 }
  | _ =>
    if s.poisonedAt x.ga a.size then
      { d with s := s.bump (hcReg (gaDie x.ga) 0xF10) 1,
               faults := d.faults ++ [(a.lane.val, 6, a.va.toNat)] }
    else
      let old := s.bytesAt x.ga a.size
      let v := atomValue op (8 * a.size) (leNat old) (opnd.toNat % 2 ^ (8 * a.size))
        (cmp.toNat % 2 ^ (8 * a.size))
      { d with s := s.putBytes x.ga (leBytes a.size v), vals := d.vals ++ back old }

/-- Whether the accesses of a request write every byte of its line. -/
def coversLine (line : Nat) (accs : List LaneAcc) : Bool :=
  (List.range 128).all fun i => accs.any fun a => decide (a.ga ≤ line + i ∧ line + i < a.ga + a.size)

/-- The request's address with its attributes, as one lane uses it. -/
def TileReq.ok (r : TileReq) (ga : Nat) : XlOk := ⟨ga, r.nce, r.dar, false⟩

/-- A request performed at its home (R122, R125): the cache is touched once, then each lane in
ascending order. -/
def State.performReq (s : State) (t : TileId) (r : TileReq) : Done :=
  let first := r.accs.head?
  let dead := s.deadRead r.line
  let isLoad := first.any fun a => match a.act with | .load _ _ => true | _ => false
  let isAtom := first.any fun a => match a.act with | .atom _ _ _ _ => true | _ => false
  let home := homed r.line
  let s := match first with
    | none => s
    | some a =>
      if !home then s
      else if isLoad then
        ((s.raNote t 1 r.ctx a.va.toNat a.ga r.hint).tileLoad t r.ctx (r.ok a.ga) a.size r.hint).2.2
      else s.hcStore (gaDie r.line) (gaLine r.line) (effHint r.hint false)
        (!isAtom && coversLine r.line r.accs)
  let stores := r.accs.filterMap fun a => match a.act with | .store _ => some (a.ga, a.size) | _ => none
  let z := r.accs.foldl (fun (d : Done) a =>
    let x := r.ok a.ga
    match a.act with
    | .load reg sx =>
      if home then
        let near := (d.s.tile t).ncFind (.ga (a.ga / 128))
        if d.s.poisonedAt a.ga a.size && !(r.nce && near.isSome) then
          { d with faults := d.faults ++ [(a.lane.val, 6, a.va.toNat)] }
        else
          let bs := if dead then deadBytes a.ga a.size else d.s.bytesAt a.ga a.size
          { d with vals := d.vals ++ toRegs a.lane.val reg a.size sx bs }
      else
        let v := d.s.tileLoad t r.ctx x a.size r.hint
        if v.2.1 then { d with s := v.2.2, faults := d.faults ++ [(a.lane.val, 6, a.va.toNat)] }
        else { d with s := v.2.2, vals := d.vals ++ toRegs a.lane.val reg a.size sx v.1 }
    | .store data =>
      if home then { d with s := d.s.putBytes a.ga data }
      else { d with s := d.s.tileStore t r.ctx x data r.hint }
    | .atom op o c ret => State.atomAcc d t r.ctx x a op o c ret) ⟨s, [], []⟩
  { z with s := z.s.clearCovered (stores.filter fun e => decide (gaRegion e.1 ≤ 2)) }

/-- Quota bank of an address (Table 7.5). -/
def quotaBank (ga : Nat) : Nat :=
  let k := match gaRegion ga with
    | 0 => gaOff ga / 2 ^ 22 % 16 * 64 + gaOff ga / 64 % 32
    | 1 => gaOff ga / 128 % 64
    | 2 => gaOff ga / 128 % 128
    | 3 => 0
    | _ => gaOff ga / 0x10000 * 16 + gaOff ga / 0x1000 % 16
  (gaDie ga * 8 + gaRegion ga) * 65536 + k

/-- Request slots that a tile holds now, by bank (R123). -/
def TileSt.held (x : TileSt) : List Nat :=
  x.slots ++ x.tge.resident.flatMap fun e => e.2.banks

/-- Whether a request to a bank can take a slot: one of 256 free, and fewer than 32 on the bank
(R123, R250); and whether it is the quota that holds it back. -/
def TileSt.slotFor (x : TileSt) (bank : Nat) : Bool × Bool :=
  let h := x.held
  let quota := decide (32 ≤ (h.filter (· = bank)).length)
  (decide (h.length < 256) && !quota, quota)

/-- Requests of an instruction: its accesses grouped by line, or by sector under the narrow hint,
in ascending order of the lowest lane (R122, R248). -/
def groupReqs (slot : Nat) (ctx : CtxId) (hint : Nat) : List (LaneAcc × XlOk) → List TileReq → List TileReq
  | [], acc => acc
  | (a, x) :: rest, acc =>
    let unit := if hint = 4 then 32 else 128
    let line := x.ga / unit * unit
    if acc.any (fun r => decide (r.line = line)) then
      groupReqs slot ctx hint rest (acc.map fun r =>
        if r.line = line then { r with accs := r.accs ++ [a] } else r)
    else
      groupReqs slot ctx hint rest
        (acc ++ [⟨slot, ctx, x.nce, x.dar, line, hint, quotaBank x.ga, [a]⟩])

/-- What sending an instruction's requests leaves: those performed, the slots that answers hold, and
those that wait. -/
structure Sent where
  d     : Done
  banks : List Nat
  queue : List TileReq
  deriving DecidableEq, Repr

/-- The requests of an instruction leave in order while slots last (R123); one that is held makes
the rest wait. A request whose answer the group needs holds its slot, unless the near cache serves
it. -/
def State.sendReqs (s : State) (t : TileId) (needs : Bool) (l : List TileReq) : Sent :=
  l.foldl (fun (z : Sent) r =>
    if !z.queue.isEmpty then { z with queue := z.queue ++ [r] }
    else
      let s := z.d.s
      let near := needs && s.servedNear t (r.ok r.line)
      let x := s.tile t
      let ok := { x with slots := x.slots ++ z.banks }.slotFor r.bank
      if near || ok.1 then
        let p := s.performReq t r
        ⟨⟨p.s, z.d.vals ++ p.vals, z.d.faults ++ p.faults⟩,
          if needs && !near then z.banks ++ [r.bank] else z.banks, []⟩
      else
        let s := if ok.2 then s.bump (tileReg t 0x318) 1 else s
        { z with d := { z.d with s := s }, queue := [r] }) ⟨⟨s, [], []⟩, [], []⟩

/-- Whether the lines of accesses must wait for a snoop, a heal or a fill, with what asking starts. -/
def State.mustWait (s : State) (l : List (Nat × Bool)) : Bool × State :=
  let r := s.readyLines l
  (r.1 || l.any fun x => !x.2 && s.fillWaits x.1, r.2)

/-- The faults of an instruction's lanes raised together: the lowest faulting lane is recorded
(R146, R148). A translation fault is recorded and reported as R205 says. -/
def State.laneFaults (s : State) (t : TileId) (slot : Nat) (pc : BitVec 48) (ctx : CtxId)
    (k : XKind) (l : List (Nat × Nat × Nat)) : State :=
  let low := l.foldl (fun (b : Option (Nat × Nat × Nat)) e =>
    match b with
    | none => some e
    | some c => if e.1 < c.1 then some e else b) none
  match low with
  | none => s
  | some e =>
    if 0x100 ≤ e.2.1 then
      (s.xlFault t ctx 1 (e.2.1 - 0x100) e.2.2 pc.toNat k).tgFault t slot e.1 5 pc 0 e.2.2 0 0 true
    else s.tgFaultPc t slot e.1 e.2.1 pc e.2.2

/-- A lane's access checked (R121, R204): aligned and translated. The fault of a translation has
0x100 added to its cause. -/
def State.checkLane (s : State) (t : TileId) (ctx : CtxId) (k : XKind) (size lane va : Nat) :
    Except (Nat × Nat × Nat) XlOk :=
  if va % size ≠ 0 then .error (lane, 3, va)
  else
    match s.xlAns (tileDie t) ctx va k .plain with
    | .error c => .error (lane, 0x100 + c, va)
    | .ok x => .ok x

/-- A memory instruction of a group (R119 to R123): `acts` gives each active lane its address and
what it does. Lanes that fault do nothing; the others are performed; a group that needs an answer
from beyond the tile leaves the active set. -/
def State.tgAccess (s : State) (t : TileId) (u : TgIssue) (cmd : Instr) (k : XKind)
    (size hint : Nat) (needs : Bool) (acts : List (Nat × Nat × LaneDo)) (g' : TgGroup) : State :=
  let checked := acts.map fun a => (a, s.checkLane t u.ctx k size a.1 a.2.1)
  let bad := checked.filterMap fun c => match c.2 with | .error e => some e | .ok _ => none
  let good : List (LaneAcc × XlOk) := checked.filterMap fun c => match c.2 with
    | .error _ => none
    | .ok x => some (⟨Fin.ofNat 32 c.1.1, BitVec.ofNat 48 c.1.2.1, x.ga, size, c.1.2.2⟩, x)
  let w := s.mustWait (good.map fun a => (a.2.ga, decide (k ≠ .load)))
  if w.1 then w.2.wait cmd
  else
    let s := acts.foldl (fun s a => s.xlLookup t u.ctx a.2.1) w.2
    let own := good.filter fun a => ownMem t a.2.ga
    let far := good.filter fun a => !(ownMem t a.2.ga)
    let near := (groupReqs u.slot u.ctx hint own []).foldl (fun (d : Done) r =>
      let p := d.s.performReq t r
      ⟨p.s, d.vals ++ p.vals, d.faults ++ p.faults⟩) ⟨s, [], []⟩
    let reqs := groupReqs u.slot u.ctx hint far []
    let s := (near.s.bump (tgeReg t 0x100) far.length).bump (tgeReg t 0x108) reqs.length
    let z := s.sendReqs t needs reqs
    let vals := near.vals ++ z.d.vals
    let faults := bad ++ near.faults ++ z.d.faults
    let x := (z.d.s.tile t).tge
    let away := needs && (!z.banks.isEmpty || !z.queue.isEmpty)
    let s := z.d.s.setTge t { x with queue := x.queue ++ z.queue }
    if !faults.isEmpty then s.laneFaults t u.slot u.ent.pc u.ctx k faults
    else if away then
      let s := s.bump (tgeReg t 0x110) (if z.banks.isEmpty then 0 else 1)
      s.putGroup t u.slot { g' with back := vals, banks := z.banks, active := z.banks.isEmpty }
    else s.putGroup t u.slot ((g'.write vals).sign vals)

/-- An illegal instruction of a group. -/
def State.tgIllegal (s : State) (t : TileId) (u : TgIssue) : State :=
  s.tgFaultPc t u.slot (lowLane u.ent.mask) 1 u.ent.pc 0

/-- Whether a value of 2^size bytes fits the register named. -/
def TgIssue.valOk (u : TgIssue) (r : BitVec 8) (size : Fin 4) : Bool :=
  if size = 3 then u.pairOk r.toNat else u.regOk r.toNat

/-- Bytes of a lane's register value. -/
def TgGroup.bytes (g : TgGroup) (lane : Nat) (r : BitVec 8) (size : Nat) : List Byte :=
  if size = 8 then leBytes 8 (g.pair lane r.toNat).toNat else leBytes size (g.reg lane r.toNat).toNat

/-- TG.LD (R121, R122). Hints above 4 are reserved (Table 7.1). -/
def execTgLd (t : TileId) (g : Fin 48) (m : TgMem) (s : State) : Host.Outcome State Fault Refusal :=
  .next (s.tgInstr t g.val fun u s =>
    if !(u.pairOk m.ra.toNat && u.valOk m.rd m.size && decide (m.hint.toNat ≤ 4)) then s.tgIllegal t u
    else s.tgAccess t u (.tgLd t g m) .load (2 ^ m.size.val) m.hint.toNat true
      ((lanes u.ent.mask).map fun l => (l, laneVa u.g l m.ra m.off, .load m.rd m.sx)) u.advance)

/-- TG.ST (R121, R122). -/
def execTgSt (t : TileId) (g : Fin 48) (m : TgMem) (s : State) : Host.Outcome State Fault Refusal :=
  .next (s.tgInstr t g.val fun u s =>
    if !(u.pairOk m.ra.toNat && u.valOk m.rd m.size && decide (m.hint.toNat ≤ 4)) then s.tgIllegal t u
    else s.tgAccess t u (.tgSt t g m) .store (2 ^ m.size.val) m.hint.toNat false
      ((lanes u.ent.mask).map fun l =>
        (l, laneVa u.g l m.ra m.off, .store (u.g.bytes l m.rd (2 ^ m.size.val))))
      { u.advance with win := none })

/-- Whether a floating-point operation is named. -/
def atomIsFloat (o : AtomOp) : Bool :=
  match o with
  | .fmin => true
  | .fmax => true
  | .fadd => true
  | _ => false

/-- Whether an atomic's registers and encoding are legal. -/
def TgIssue.atomicOk (u : TgIssue) (m : TgAtomic) (addr : Bool) : Bool :=
  let val (r : BitVec 8) : Bool := if m.w64 then u.pairOk r.toNat else u.regOk r.toNat
  (if addr then u.pairOk m.ra.toNat else u.regOk m.ra.toNat) && val m.rb &&
  (!m.ret || val m.rd) && (m.op != .cas || val m.rc) && !(atomIsFloat m.op && m.w64) &&
  decide (m.hint.toNat ≤ 4)

/-- An atomic's operand of a lane. -/
def TgGroup.operand (g : TgGroup) (lane : Nat) (r : BitVec 8) (w64 : Bool) : BitVec 64 :=
  if w64 then g.pair lane r.toNat else (g.reg lane r.toNat).zeroExtend 64

/-- What a lane's atomic does. -/
def atomLane (m : TgAtomic) (g : TgGroup) (l : Nat) : LaneDo :=
  .atom m.op (g.operand l m.rb m.w64) (g.operand l m.rc m.w64) (if m.ret then some m.rd else none)

/-- Floating-point add refused in a deterministic context (R50, R51). -/
def State.tgRefused (s : State) (u : TgIssue) (op : AtomOp) : Bool :=
  decide (op = .fadd) && s.ctxDet u.ctx

/-- TG.ATOM (R125). -/
def execTgAtom (t : TileId) (g : Fin 48) (m : TgAtomic) (s : State) : Host.Outcome State Fault Refusal :=
  .next (s.tgInstr t g.val fun u s =>
    let low := lowLane u.ent.mask
    if !(u.atomicOk m true) then s.tgIllegal t u
    else if s.tgRefused u m.op then s.tgFaultPc t u.slot low 15 u.ent.pc (laneVa u.g low m.ra 0)
    else s.tgAccess t u (.tgAtom t g m) .atomic (if m.w64 then 8 else 4) m.hint.toNat m.ret
      ((lanes u.ent.mask).map fun l => (l, laneVa u.g l m.ra 0, atomLane m u.g l))
      { u.advance with win := none })

/-! ### Block-shared memory -/

/-- A lane's block-shared offset: a register plus the offset, exact. -/
def sharedOff (g : TgGroup) (lane : Nat) (ra : BitVec 8) (off : BitVec 16) : Int :=
  (g.reg lane ra.toNat).toNat + ofTwos 16 off.toNat

/-- GA of a byte of a block's shared memory: the pool occupies the top of tile memory (R116). -/
def State.sharedGa (s : State) (t : TileId) (u : TgIssue) (off : Nat) : Nat :=
  tmGa t (2 ^ 22 - s.bsmPool t * 65536 + u.base * 4096 + off)

/-- An access to block-shared memory by every active lane (R116, R121). -/
def State.tgShared (s : State) (t : TileId) (u : TgIssue) (size : Nat)
    (acts : List (Nat × Int × LaneDo)) (g' : TgGroup) : State :=
  let bad : List (Nat × Nat × Nat) := acts.filterMap fun a =>
    let o : Int := a.2.1
    let at_ := (o % 2 ^ 48).toNat
    if at_ % size ≠ 0 then some (a.1, 3, at_)
    else if o < 0 ∨ (u.desc.shared : Int) < o + size then some (a.1, 4, at_)
    else none
  let accs : List LaneAcc := acts.filterMap fun a =>
    if bad.any (fun b => decide (b.1 = a.1)) then none
    else some ⟨Fin.ofNat 32 a.1, BitVec.ofNat 48 a.2.1.toNat, s.sharedGa t u a.2.1.toNat, size, a.2.2⟩
  let s := (s.readyLines (accs.map fun a => (a.ga, false))).2
  let d := s.performReq t ⟨u.slot, u.ctx, false, false, s.sharedGa t u 0, 0, 0, accs⟩
  let faults := bad ++ d.faults
  if !faults.isEmpty then d.s.laneFaults t u.slot u.ent.pc u.ctx .load faults
  else d.s.putGroup t u.slot ((g'.write d.vals).sign d.vals)

/-- TG.LDB (R116). -/
def execTgLdb (t : TileId) (g : Fin 48) (m : TgMem) (s : State) : Host.Outcome State Fault Refusal :=
  .next (s.tgInstr t g.val fun u s =>
    if !(u.regOk m.ra.toNat && u.valOk m.rd m.size) then s.tgIllegal t u
    else s.tgShared t u (2 ^ m.size.val)
      ((lanes u.ent.mask).map fun l => (l, sharedOff u.g l m.ra m.off, .load m.rd m.sx)) u.advance)

/-- TG.STB (R116). -/
def execTgStb (t : TileId) (g : Fin 48) (m : TgMem) (s : State) : Host.Outcome State Fault Refusal :=
  .next (s.tgInstr t g.val fun u s =>
    if !(u.regOk m.ra.toNat && u.valOk m.rd m.size) then s.tgIllegal t u
    else s.tgShared t u (2 ^ m.size.val)
      ((lanes u.ent.mask).map fun l =>
        (l, sharedOff u.g l m.ra m.off, .store (u.g.bytes l m.rd (2 ^ m.size.val))))
      { u.advance with win := none })

/-- TG.ATOMB (R116, R125). -/
def execTgAtomb (t : TileId) (g : Fin 48) (m : TgAtomic) (s : State) : Host.Outcome State Fault Refusal :=
  .next (s.tgInstr t g.val fun u s =>
    let low := lowLane u.ent.mask
    if !(u.atomicOk m false) then s.tgIllegal t u
    else if s.tgRefused u m.op then
      s.tgFaultPc t u.slot low 15 u.ent.pc (sharedOff u.g low m.ra 0).toNat
    else s.tgShared t u (if m.w64 then 8 else 4)
      ((lanes u.ent.mask).map fun l => (l, sharedOff u.g l m.ra 0, atomLane m u.g l))
      { u.advance with win := none })

/-! ### Special values, answers, slots -/

/-- TG.SREG (R113): the parameter address into a register pair; for another value, which no rule
states, a free value in each active lane (DESIGN CHOICE, log entry 6). -/
def execTgSreg (t : TileId) (g : Fin 48) (rd : BitVec 8) (sel : SpecialReg) (s : State) :
    Host.Outcome State Fault Refusal :=
  .next (s.tgInstr t g.val fun u s =>
    match sel with
    | .param =>
      if !(u.pairOk rd.toNat) then s.tgIllegal t u
      else s.putGroup t u.slot (u.advance.write ((lanes u.ent.mask).flatMap fun l =>
        toRegs l rd 8 false (leBytes 8 u.desc.param.toNat)))
    | .other _ =>
      if !(u.regOk rd.toNat) then s.tgIllegal t u
      else
        let r := (lanes u.ent.mask).foldl (fun (z : State × List (Nat × BitVec 32)) l =>
          let f := z.1.free
          (f.2, z.2 ++ [(l * 256 + rd.toNat, f.1.truncate 32)])) (s, [])
        r.1.putGroup t u.slot (u.advance.write r.2))

/-- GROUP_DATA_RETURN (R120): the data of all of a group's requests are back; its registers take
them, its slots are free, and it becomes ready in the pending set. -/
def execGroupDataReturn (t : TileId) (g : Fin 48) (s : State) : Host.Outcome State Fault Refusal :=
  let x := (s.tile t).tge
  .next (match x.group g.val with
    | none => s
    | some gr =>
      if !(s.tileOn t) || gr.banks.isEmpty || x.queue.any (fun r => decide (r.group = g.val)) then s
      else s.putGroup t g.val { (gr.write gr.back).sign gr.back with back := [], banks := [] })

/-- Whether a request needs its answer. -/
def TileReq.needs (r : TileReq) : Bool :=
  r.accs.any fun a => match a.act with
    | .load _ _ => true
    | .store _ => false
    | .atom _ _ _ ret => ret.isSome

/-- The first waiting request that can take a slot: none of its group's stands before it (R123,
R250). -/
def grantable (x : TileSt) : List TileReq → List TileReq → Option (TileReq × List TileReq)
  | _, [] => none
  | before, r :: rest =>
    if (x.slotFor r.bank).1 && before.all (fun b => decide (b.group ≠ r.group)) then
      some (r, before ++ rest)
    else grantable x (before ++ [r]) rest

/-- A waiting request performed: its values are kept for the group's return, its slot is held when
the group needs the answer. When the last one has left, a group that needs answers leaves the
active set (R119). -/
def State.grant (s : State) (t : TileId) (r : TileReq) (rest : List TileReq) : State :=
  let x := (s.tile t).tge
  let s := s.setTge t { x with queue := rest }
  let d := s.performReq t r
  let x := (d.s.tile t).tge
  match x.group r.group with
  | none => d.s
  | some g =>
    let pc := ((runEntry d.s.wordZero g.stack 0 0).bind fun i => g.stack[i]?).elim 0 (·.pc - 8)
    if !d.faults.isEmpty then d.s.laneFaults t r.group pc r.ctx .load d.faults
    else
      let needs := r.needs
      let done := !(rest.any fun q => decide (q.group = r.group))
      let g := { g with back := if needs then g.back ++ d.vals else g.back,
                        banks := if needs then g.banks ++ [r.bank] else g.banks }
      let leaves := done && needs && g.active
      let s := d.s.bump (tgeReg t 0x110) (if leaves then 1 else 0)
      s.putGroup t r.group (if leaves then { g with active := false } else g)

/-- REQUEST_SLOT_GRANT (R123). -/
def execRequestSlotGrant (t : TileId) (s : State) : Host.Outcome State Fault Refusal :=
  let x := s.tile t
  .next (
    if !(s.tileOn t) then s
    else match grantable x [] x.tge.queue with
      | none => s
      | some (r, rest) =>
        let w := s.mustWait (r.accs.map fun a => (a.ga, match a.act with | .load _ _ => false | _ => true))
        if w.1 then w.2.wait (.requestSlotGrant t) else w.2.grant t r rest)

/-! ### Branches -/

/-- The spin window after a taken branch (R143). -/
def branchWin (w : Option SpinWin) (pc target : BitVec 48) : Option SpinWin :=
  if pc.toNat < target.toNat then none
  else
    match w with
    | none => some ⟨target, pc, 0, none⟩
    | some v =>
      if v.target ≠ target then some ⟨target, pc, 0, none⟩
      else if v.last.any (fun z => decide (z ≠ v.sig)) then none
      else some ⟨target, pc, 0, some v.sig⟩

/-- TG.BR (R127, R129): lanes that agree leave the stack as it is; otherwise three entries replace
the top one. -/
def execTgBr (t : TileId) (g : Fin 48) (taken : BitVec 32) (target rpc : BitVec 48) (s : State) :
    Host.Outcome State Fault Refusal :=
  .next (s.tgInstr t g.val fun u s =>
    let m := u.ent.mask
    let k := m &&& taken
    let win := if k = 0 then u.g.win else branchWin u.g.win u.ent.pc target
    if k = 0 then s.putGroup t u.slot { u.advance with win := win }
    else if k = m then s.putGroup t u.slot { u.setEnt { u.ent with pc := target } with win := win }
    else if 32 < u.g.stack.length + 2 then
      s.tgFaultPc t u.slot (lowLane m) 7 u.ent.pc 0
    else
      let es : List StackEnt := [⟨target, k, some rpc, .path⟩,
        ⟨u.ent.pc + 8, m &&& ~~~k, some rpc, .path⟩, ⟨rpc, m, u.ent.rpc, .path⟩]
      let st := u.g.stack.take u.i ++ es ++ u.g.stack.drop (u.i + 1)
      (s.bump (tgeReg t 0x118) 1).putGroup t u.slot { u.g with stack := st, win := win })

/-! ### Locks -/

/-- A lane's holder code (Table 4.6). -/
def holderCode (ctx : CtxId) (t : TileId) (slot lane : Nat) : BitVec 64 :=
  BitVec.ofNat 64 (2 ^ 63 + ctx.val * 2 ^ 26 + t.val * 2 ^ 16 + slot * 2 ^ 5 + lane)

/-- What one issue of TG.ACQ decides, lane by lane (R131): memory, winners, losers with their
words, faults. -/
structure AcqRes where
  s      : State
  won    : List Nat
  lost   : List (Nat × Nat × Nat)
  taken  : List Nat
  faults : List (Nat × Nat × Nat)
  deriving DecidableEq, Repr

/-- One requesting lane of TG.ACQ, in ascending order (R131, R137). A lock word stands in tile
memory or SRAM (R130); elsewhere the lane's instruction is illegal (DEDUCED, log entry 10). -/
def acqLane (t : TileId) (u : TgIssue) (z : AcqRes) (r : Nat × Nat × XlOk) : AcqRes :=
  let lane := r.1
  let ga := r.2.2.ga
  let code := holderCode u.ctx t u.slot lane
  let v := z.s.word64 ga
  if 2 < gaRegion ga then { z with faults := z.faults ++ [(lane, 1, 0)] }
  else if z.s.poisonedAt ga 8 then
    { z with s := z.s.bump (hcReg (gaDie ga) 0xF10) 1, faults := z.faults ++ [(lane, 6, r.2.1)] }
  else if v = code then { z with faults := z.faults ++ [(lane, 8, r.2.1)] }
  else if v ≠ 0 then { z with lost := z.lost ++ [(lane, r.2.1, ga)] }
  else if 15 ≤ mapGet 0 u.g.locks lane then { z with faults := z.faults ++ [(lane, 10, r.2.1)] }
  else { z with s := z.s.putBytes ga (leBytes 8 code.toNat), won := z.won ++ [lane], taken := z.taken ++ [ga] }

/-- The mask of a list of lanes. -/
def maskOf (l : List Nat) : BitVec 32 := l.foldl (fun m x => m ||| laneBit x) 0

/-- One issue of TG.ACQ for the given requests (R131, R132). `re` is whether a parked entry runs
again: then lanes that lose stay parked in its place (DEDUCED, log entry 10). -/
def State.acquire (s : State) (t : TileId) (u : TgIssue) (cmd : Instr) (reqs : List (Nat × Nat))
    (rpc : BitVec 48) (re : Bool) : State :=
  let checked := reqs.map fun a => (a, s.checkLane t u.ctx .atomic 8 a.1 a.2)
  let bad := checked.filterMap fun c => match c.2 with | .error e => some e | .ok _ => none
  let good : List (Nat × Nat × XlOk) := checked.filterMap fun c => match c.2 with
    | .error _ => none
    | .ok x => some (c.1.1, c.1.2, x)
  let w := s.mustWait (good.map fun a => (a.2.2.ga, true))
  let far := good.filter fun a => !(ownMem t a.2.2.ga)
  let lines := (far.map fun a => a.2.2.ga / 128 * 128).eraseDups
  let blocked := decide (256 < (s.tile t).held.length + lines.length) ||
    lines.any fun l => !(((s.tile t).slotFor (quotaBank l)).1)
  if w.1 || blocked then w.2.wait cmd
  else
    let s := reqs.foldl (fun s a => s.xlLookup t u.ctx a.2) w.2
    let s := lines.foldl (fun s l =>
      if homed l then s.hcStore (gaDie l) (gaLine l) 0 false else s) s
    let s := (s.bump (tgeReg t 0x100) far.length).bump (tgeReg t 0x108) lines.length
    let z := good.foldl (acqLane t u) ⟨s, [], [], [], []⟩
    let faults := bad ++ z.faults
    if !faults.isEmpty then z.s.laneFaults t u.slot u.ent.pc u.ctx .atomic faults
    else
      let lost := maskOf (z.lost.map (·.1))
      let stay := u.ent.mask &&& ~~~lost
      let path : StackEnt := ⟨u.ent.pc + 8, stay, if lost = 0 ∧ !re then u.ent.rpc else some rpc, .path⟩
      let park : StackEnt := ⟨u.ent.pc, lost, some rpc, .parked z.lost 0⟩
      let es := if re then [path, park]
        else if lost = 0 then [path]
        else [path, park, ⟨rpc, u.ent.mask, u.ent.rpc, .path⟩]
      let st := u.g.stack.take u.i ++ es ++ u.g.stack.drop (u.i + 1)
      if 32 < (st.filter fun e => decide (e.mask ≠ 0)).length then
        z.s.tgFaultPc t u.slot (lowLane u.ent.mask) 7 u.ent.pc 0
      else
        let locks := z.won.foldl (fun m l => mapSet 0 m l (mapGet 0 m l + 1)) u.g.locks
        let banks := lines.map quotaBank
        let s := z.s.bump (tgeReg t 0x120) z.lost.length
        let s := s.bump (tgeReg t 0x110) (if banks.isEmpty then 0 else 1)
        s.putGroup t u.slot { u.g with stack := st, locks := locks, win := none, banks := banks,
                                       active := u.g.active && banks.isEmpty }

/-- TG.ACQ (R131 to R137): issued on a path, or again by a parked entry that was woken. -/
def execTgAcq (t : TileId) (g : Fin 48) (pred : BitVec 32) (ra : BitVec 8) (rpc : BitVec 48)
    (s : State) : Host.Outcome State Fault Refusal :=
  .next (match s.tgReady t g.val with
    | none => s
    | some u =>
      match u.ent.st with
      | .path =>
        s.tgInstr t g.val fun u s =>
          if !(u.pairOk ra.toNat) then s.tgIllegal t u
          else s.acquire t u (.tgAcq t g pred ra rpc)
            ((lanes (u.ent.mask &&& pred)).map fun l => (l, laneVa u.g l ra 0)) rpc false
      | .parked ws _ =>
        (s.bump (tileReg t 0x880) 1).acquire t u (.tgAcq t g pred ra rpc) (ws.map fun w => (w.1, w.2.1))
          (u.ent.rpc.getD rpc) true
      | .waiting _ _ => s)

/-- Lanes of a group parked on a word are woken (R133, R135). -/
def wakeWord (ga : Nat) (e : StackEnt) : StackEnt :=
  match e.st with
  | .parked ws woken =>
    { e with st := .parked ws (woken ||| maskOf ((ws.filter fun w => decide (w.2.2 = ga)).map (·.1))) }
  | _ => e

/-- One lane of TG.REL (R135). -/
def relLane (t : TileId) (u : TgIssue) (z : AcqRes) (r : Nat × Nat × XlOk) : AcqRes :=
  let ga := r.2.2.ga
  if 2 < gaRegion ga then { z with faults := z.faults ++ [(r.1, 1, 0)] }
  else if z.s.poisonedAt ga 8 then
    { z with s := z.s.bump (hcReg (gaDie ga) 0xF10) 1, faults := z.faults ++ [(r.1, 6, r.2.1)] }
  else if z.s.word64 ga = holderCode u.ctx t u.slot r.1 then
    { z with s := z.s.putBytes ga (leBytes 8 0), won := z.won ++ [r.1], taken := z.taken ++ [ga] }
  else { z with faults := z.faults ++ [(r.1, 9, r.2.1)] }

/-- TG.REL (R135, R136). -/
def execTgRel (t : TileId) (g : Fin 48) (ra : BitVec 8) (s : State) : Host.Outcome State Fault Refusal :=
  .next (s.tgInstr t g.val fun u s =>
    if !(u.pairOk ra.toNat) then s.tgIllegal t u
    else
      let reqs := (lanes u.ent.mask).map fun l => (l, laneVa u.g l ra 0)
      let checked := reqs.map fun a => (a, s.checkLane t u.ctx .atomic 8 a.1 a.2)
      let bad := checked.filterMap fun c => match c.2 with | .error e => some e | .ok _ => none
      let good : List (Nat × Nat × XlOk) := checked.filterMap fun c => match c.2 with
        | .error _ => none
        | .ok x => some (c.1.1, c.1.2, x)
      let w := s.mustWait (good.map fun a => (a.2.2.ga, true))
      if w.1 then w.2.wait (.tgRel t g ra)
      else
        let s := reqs.foldl (fun s a => s.xlLookup t u.ctx a.2) w.2
        let far := good.filter fun a => !(ownMem t a.2.2.ga)
        let lines := (far.map fun a => a.2.2.ga / 128 * 128).eraseDups
        let s := lines.foldl (fun s l =>
          if homed l then s.hcStore (gaDie l) (gaLine l) 0 false else s) s
        let s := (s.bump (tgeReg t 0x100) far.length).bump (tgeReg t 0x108) lines.length
        let z := good.foldl (relLane t u) ⟨s, [], [], [], []⟩
        let faults := bad ++ z.faults
        if !faults.isEmpty then z.s.laneFaults t u.slot u.ent.pc u.ctx .atomic faults
        else
          let g' := u.advance
          let locks := z.won.foldl (fun m l => mapSet 0 m l (mapGet 0 m l - 1)) g'.locks
          let st := z.taken.foldl (fun l ga => l.map (wakeWord ga)) g'.stack
          z.s.putGroup t u.slot { g' with stack := st, locks := locks, win := none })

/-! ### Barriers, exit, fence -/

/-- Live lanes of a group: those placed that have not exited (R139). -/
def TgGroup.live (g : TgGroup) : BitVec 32 := ~~~g.gone

/-- Lanes of a group that wait at an id. -/
def TgGroup.atId (g : TgGroup) (id : Fin 16) : BitVec 32 :=
  g.stack.foldl (fun m e => match e.st with
    | .waiting i _ => if i = id then m ||| e.mask else m
    | _ => m) 0

/-- Lanes of a group that wait at any id. -/
def TgGroup.waitingMask (g : TgGroup) : BitVec 32 :=
  g.stack.foldl (fun m e => match e.st with | .waiting _ _ => m ||| e.mask | _ => m) 0

/-- Paths that waited at an id go on behind their TG.BAR (R140, R141). -/
def releaseId (id : Fin 16) (e : StackEnt) : StackEnt :=
  match e.st with
  | .waiting i p => if i = id then { e with pc := p + 8, st := .path } else e
  | _ => e

/-- The groups of a block with their slots. -/
def TgeSt.ofBlock (x : TgeSt) (b : Nat) : List (Nat × TgGroup) := x.resident.filter fun e => decide (e.2.block = b)

/-- After an arrival or an exit (R141, R142): a barrier at which every live lane waits releases;
when every live lane waits and two ids are present, the other waiting program counter is answered.
`mine` is the id just reached, if any. -/
def TgeSt.barriers (x : TgeSt) (b : Nat) (mine : Option (Fin 16)) : TgeSt × Option (BitVec 48) :=
  let gs := x.ofBlock b
  let ids := (List.finRange 16).filter fun i => gs.any fun g => decide (g.2.atId i ≠ 0)
  let all := gs.all fun g => decide (g.2.live &&& ~~~g.2.waitingMask = 0)
  match ids with
  | [] => (x, none)
  | [i] =>
    if all then
      ({ x with groups := x.groups.map fun e => (e.1, e.2.map fun g =>
          if g.block = b then { g with stack := g.stack.map (releaseId i) } else g) }, none)
    else (x, none)
  | i :: _ :: _ =>
    if !all then (x, none)
    else
      let me := mine.getD i
      let cand := gs.flatMap fun g => g.2.stack.filterMap fun e => match e.st with
        | .waiting j p => if j ≠ me ∧ e.mask ≠ 0 then some (g.2.num * 32 + lowLane e.mask, p) else none
        | _ => none
      let low := cand.foldl (fun (a : Option (Nat × BitVec 48)) c =>
        match a with
        | none => some c
        | some d => if c.1 < d.1 then some c else a) none
      (x, some (low.elim 0 (·.2)))

/-- A group put back after TG.BAR or TG.EXIT, with the barriers of its block examined. -/
def State.putBarrier (s : State) (t : TileId) (u : TgIssue) (g : TgGroup) (mine : Option (Fin 16)) :
    State :=
  let x := (s.tile t).tge
  let x := { x with groups := mapSet none x.groups u.slot (some g) }
  let r := x.barriers g.block mine
  match r.2 with
  | some pc2 =>
    (s.setTge t x).tgFault t u.slot (lowLane u.ent.mask) 13 u.ent.pc pc2 0 u.ent.pc.toNat pc2.toNat false
  | none =>
    let pop (g : TgGroup) : TgGroup := { g with stack := popEnts s.wordZero 40 g.stack }
    s.tgSettle t { r.1 with groups := r.1.groups.map fun e => (e.1, e.2.map pop) }

/-- TG.BAR (R139 to R142). -/
def execTgBar (t : TileId) (g : Fin 48) (id : Fin 16) (s : State) : Host.Outcome State Fault Refusal :=
  .next (s.tgInstr t g.val fun u s =>
    s.putBarrier t u
      { u.setEnt { u.ent with st := .waiting id u.ent.pc } with win := none } (some id))

/-- TG.EXIT (R128, R137, R139). -/
def execTgExit (t : TileId) (g : Fin 48) (s : State) : Host.Outcome State Fault Refusal :=
  .next (s.tgInstr t g.val fun u s =>
    let m := u.ent.mask
    match (lanes m).find? fun l => decide (mapGet 0 u.g.locks l ≠ 0) with
    | some l => s.tgFaultPc t u.slot l 11 u.ent.pc 0
    | none =>
      s.putBarrier t u { u.g with gone := u.g.gone ||| m,
                                  stack := u.g.stack.map fun e => { e with mask := e.mask &&& ~~~m } } none)

/-- TG.FENCE (R126): a group issues only when its earlier accesses have left and been performed. -/
def execTgFence (t : TileId) (g : Fin 48) (s : State) : Host.Outcome State Fault Refusal :=
  .next (s.tgInstr t g.val fun u s => s.putGroup t u.slot { u.advance with win := none })

/-! ### Timeouts -/

/-- The lowest lane of a group that is parked and has not been woken, with its word and the entry's
program counter. -/
def TgGroup.parkedLane (g : TgGroup) : Option (Nat × Nat × Nat × BitVec 48) :=
  let c := g.stack.flatMap fun e => match e.st with
    | .parked ws woken => (ws.filter fun w => e.mask.getLsbD w.1 && !(woken.getLsbD w.1)).map fun w =>
        (w.1, w.2.1, w.2.2, e.pc)
    | _ => []
  c.foldl (fun b e => match b with
    | none => some e
    | some d => if e.1 < d.1 then some e else b) none

/-- LOCK_TIMEOUT (R138): a lane has been parked for longer than LOCK_LIMIT. -/
def execLockTimeout (t : TileId) (g : Fin 48) (s : State) : Host.Outcome State Fault Refusal :=
  .next (
    if !(s.tileOn t) || decide (s.regField (tgeReg t 0x10) 47 32 = 0) then s
    else match ((s.tile t).tge.group g.val).bind (·.parkedLane) with
      | none => s
      | some (lane, va, ga, pc) =>
        s.tgFault t g.val lane 12 pc 0 va va (s.word64 ga).toNat false)

/-- GROUP_LIVELOCK (R144): a spin window has stayed open for longer than SPIN_LIMIT. -/
def execGroupLivelock (t : TileId) (g : Fin 48) (s : State) : Host.Outcome State Fault Refusal :=
  .next (
    if !(s.tileOn t) || decide (s.regField (tgeReg t 0x10) 15 0 = 0) then s
    else match ((s.tile t).tge.group g.val) with
      | none => s
      | some gr => match gr.win with
        | none => s
        | some w => s.tgFaultPc t g.val (lowLane gr.live) 14 w.branch 0)

end Sys2Proof.Machine
end

