-- ==== Sys2Proof/Machine/Caches.lean ====
section
/-!
DEFINITION. Memory and cache commands: patrol and heals (R213, R221 to R224), fills and streams
(R232 to R234), reduce-writes (R238 to R244), run-ahead fetches (R252, R253), near-cache
invalidation (R256, R257), flush and pin load (Tables 7.7, 7.8, R236).
-/

namespace Sys2Proof.Machine

/-- Whether a compute die can act: module running, the die not fenced and not tripped. -/
def State.dieOn (s : State) (d : Nat) : Bool := s.on && !(s.dieFenced d) && !(s.die d).tripped

/-! ### Patrol and heals -/

/-- PATROL_SCRUB (R213): every word of the die's storage read and corrected once. -/
def execPatrolScrub (d : CdId) (s : State) : Host.Outcome State Fault Refusal :=
  .next (
    if !(s.dieOn d.val) then s
    else ((s.die d.val).errs.foldl (fun s e => s.meetErr d.val e) s).bump (hcReg d.val 0xF28) 1)

/-- The heal of a line leaves the die's list. -/
def State.healEnds (s : State) (die line : Nat) : State :=
  let x := s.die die
  s.setDie die { x with heals := x.heals.filter (· ≠ line) }

/-- A heal that fails (R223): the line stays poisoned, and the page is handled as one without a
backing copy. -/
def State.healFails (s : State) (die line : Nat) : State :=
  let ga := lineGa die line
  let s := (s.healEnds die line).bump (hcReg die 0xF20) 1
  let clear (m : Mapping) : Mapping :=
    if m.backed ∧ m.ga ≤ ga ∧ ga < m.ga + (if m.big then 2 ^ 21 else 2 ^ 16) then
      { m with backed := false } else m
  let s := { s with xl := { s.xl with maps := s.xl.maps.map clear } }
  s.makePoison ga

/-- The backing copy's answer for a line that heals (R221, R223). -/
def State.healAnswer (s : State) (die line : Nat) (data : BitVec 1024) (poison : Bool) : State :=
  if !((s.die die).heals.contains line) then s
  else if poison then s.healFails die line
  else
    let s := (s.healEnds die line).putBytes (lineGa die line) (leBytes 128 data.toNat)
    (s.bump (hcReg die 0xF18) 1).raiseHome die .corrected 0x2003 0 (lineGa die line) 0

/-- HEAL_COMPLETE (R221, R223). -/
def execHealComplete (d : CdId) (line : BitVec 40) (data : BitVec 1024) (poison : Bool) (s : State) :
    Host.Outcome State Fault Refusal :=
  .next (if s.dieOn d.val then s.healAnswer d.val (gaLine line.toNat) data poison else s)

/-- HEAL_TIMEOUT (R223): the backing copy has not answered within 1 ms. -/
def execHealTimeout (d : CdId) (line : BitVec 40) (s : State) : Host.Outcome State Fault Refusal :=
  .next (
    if s.dieOn d.val && (s.die d.val).heals.contains (gaLine line.toNat) then
      s.healFails d.val (gaLine line.toNat)
    else s)

/-! ### Fills and streams -/

/-- HC_FILL_COMPLETE (R233, R234). -/
def execHcFillComplete (d : CdId) (line : BitVec 40) (s : State) : Host.Outcome State Fault Refusal :=
  .next (if s.dieOn d.val then s.fillDone d.val (gaLine line.toNat) else s)

/-- STREAM_ENTRY_EXPIRE (R232): entries that no miss has matched for 4,096 ft are freed. -/
def execStreamEntryExpire (d : CdId) (s : State) : Host.Outcome State Fault Refusal :=
  .next (
    if s.dieOn d.val then
      s.setDie d.val { s.die d.val with streams := liveStreams (s.die d.val).streams s.ftc }
    else s)

/-! ### Reduce-writes -/

/-- Formats of Table 7.3 that a deterministic context is refused. -/
def redRefusedFmt (fmt : Nat) : Bool := decide (fmt = 4 ∨ fmt = 5)

/-- Whether a reduce-write is well formed (R238, R239, Table 7.3). -/
def redFormed (ga fmt : Nat) : Bool := decide (ga % 128 = 0) && homed ga && decide (fmt ≤ 5)

/-- R244: a reduce-write refused at the home cache. -/
def State.redRefuse (s : State) (die : Nat) (ctx : CtxId) (ga : Nat) : State :=
  (s.bump (hcReg die 0x528) 1).raiseHome die .contained 0x1004 ctx.val ga 0

/-- A reduce-write that arrives at its home: refused, or performed (R240, R244, R256). -/
def State.redArrive (s : State) (tile : Bool) (ctx : CtxId) (layer ga fmt : Nat) (mask : BitVec 64)
    (data : BitVec 1024) : State :=
  let die := gaDie ga
  if redRefusedFmt fmt && s.ctxDet ctx then s.redRefuse die ctx ga
  else
    let s := if tile then s else s.beforeForeignWrite ga
    s.hcReduce die (gaLine ga) fmt ctx layer mask data

/-- Die from which a reduce-write comes. -/
def redSrc (i : RedIssuer) : Nat :=
  match i with
  | .tmv t => tileDie t
  | .fabric fd => 48 + fd.val
  | .remote p => 48 + p.val / 2
  | .companion p => 48 + p.val

/-- REDUCE_WRITE (R238 to R244): a line that the companion holds is snooped first (R240). -/
def execReduceWrite (i : RedIssuer) (c : CtxId) (ga : BitVec 40) (fmt : BitVec 4) (mask : BitVec 64)
    (data : BitVec 1024) (s : State) : Host.Outcome State Fault Refusal :=
  .next (
    let g := ga.toNat
    if !(redFormed g fmt.toNat) || (s.gaCause (redSrc i) g).isSome || !(s.dieOn (gaDie g)) then s
    else
      let w := s.readyLine g true
      if w.1 then w.2.wait (.reduceWrite i c ga fmt mask data)
      else
        let layer := match i with | .tmv t => (s.tile t).seq.layer | _ => 0
        let tile := match i with | .tmv _ => true | _ => false
        w.2.redArrive tile c layer g fmt.toNat mask data)

/-! ### Run-ahead -/

/-- A line fetched ahead for a stream, by VA line number (R252, R253, R206). -/
def State.raFetch (s : State) (t : TileId) (e : RaStream) (next : Nat) : State :=
  let put (s : State) (e' : RaStream) : State :=
    let x := s.tile t
    s.setTile t { x with ra := x.ra.map fun f => if f = e then e' else f }
  let cnt (s : State) (off : Nat) : State := s.bump (tileReg t off) 1
  let va := next * 128
  let page := (s.mappingOf e.ctx (e.last * 128)).map (·.va)
  let there := s.mappingOf e.ctx va
  let crosses := decide (there.map (·.va) ≠ page)
  if crosses && !(there.any (·.pf)) then cnt (put s { e with stopped := true }) 0x330
  else
    let e' := { e with fetched := next }
    match s.xlAns (tileDie t) e.ctx va .load .plain with
    | .error _ => cnt (put s e') 0x310
    | .ok x =>
      let s := put (s.xlLookup t e.ctx va) e'
      if !(homed x.ga) then s
      else if s.poisonedAt (x.ga / 128 * 128) 128 then s
      else if ((s.die (gaDie x.ga)).streams.any fun z =>
          decide (z.agent = .tile t ∧ z.region = gaLine x.ga / 2 ^ 23 ∧ 4 ≤ z.count ∧
            (z.last = gaLine x.ga ∨ z.last + 1 = gaLine x.ga ∨ gaLine x.ga + 1 = z.last))) then s
      else
        let s := cnt (s.hcRead (gaDie x.ga) (.tile t) (gaLine x.ga) 0 true).2 0x328
        if x.nce ∧ s.regField (ncReg t 0) 0 0 = 1 ∧ ((s.tile t).ncFind (.ga (x.ga / 128))).isNone then
          s.setTile t ((s.tile t).ncFill (.ga (x.ga / 128)) false 0)
        else s

/-- The next line that a recognised stream would fetch, if it is within DEPTH of the latest demand
read. -/
def RaStream.next (e : RaStream) (depth : Nat) : Option Nat :=
  if e.seen < 3 ∨ e.stopped then none
  else if e.up then
    (let n := max e.fetched e.last + 1
     if n ≤ e.last + depth then some n else none)
  else
    (let f := min e.fetched e.last
     if f = 0 ∨ depth < e.last - (f - 1) then none else some (f - 1))

/-- RUN_AHEAD_FETCH (R252, R253): one fetch for the first stream that has one to make. -/
def execRunAheadFetch (t : TileId) (s : State) : Host.Outcome State Fault Refusal :=
  .next (
    let cfg := s.reg (tileReg t 0x400)
    if !(s.tileOn t) || decide (bits cfg 5 5 = 0) then s
    else
      match (s.tile t).ra.find? fun e => (e.next (bits cfg 4 0)).isSome with
      | none => s
      | some e =>
        match e.next (bits cfg 4 0) with
        | none => s
        | some n =>
          if 256 ≤ (s.tile t).held.length then s else s.raFetch t e n)

/-! ### Near caches -/

/-- NC_GRANULE_INVALIDATE (R256). -/
def execNcGranuleInvalidate (ga : BitVec 40) (s : State) : Host.Outcome State Fault Refusal :=
  .next (if s.on && homed ga.toNat && decide (gaDie ga.toNat < 48) then s.ncInvalidate ga.toNat else s)

/-- NC_DISABLE (R257): EN cleared, every line discarded. -/
def execNcDisable (t : TileId) (s : State) : Host.Outcome State Fault Refusal :=
  .next (
    if s.tileOn t then
      (s.setField (ncReg t 0) 0 0 0).setTile t { s.tile t with nc := [] }
    else s)

/-! ### Flush and pin load -/

/-- HC_FLUSH (Table 7.7): a flush starts (DEDUCED, log entry 60). -/
def execHcFlush (d : CdId) (s : State) : Host.Outcome State Fault Refusal :=
  .next (if s.dieOn d.val then s.regStore none (hcReg d.val 0) (s.reg (hcReg d.val 0) ||| 4) else s)

/-- Every line of a home cache, with its set. -/
def DieSt.lines (x : DieSt) : List HcLine := x.sets.flatMap (·.2)

/-- Dirty lines written back and kept clean; reduction entries written through (Table 7.7). -/
def State.flushAll (s : State) (die : Nat) : State :=
  (s.die die).lines.foldl (fun s h =>
    match h.st with
    | .red _ _ _ _ => s.writeThrough die h
    | .dirty =>
      let x := s.die die
      (s.setDie die (x.putSet h.line ((x.set h.line).map fun g =>
        if g.line = h.line then { g with st := .clean } else g))).bump (hcReg die 0x518) 1
    | .clean => s) s

/-- Pinned lines outside the valid ranges or the pinned ways are written back and drop to normal
priority (R237). -/
def State.pinDrop (s : State) (die : Nat) : State :=
  (s.die die).lines.foldl (fun s h =>
    if h.prio = .pinned ∧ (!(s.inPin die h.line) ∨ s.pinWays die ≤ h.way) then
      let x := s.die die
      let st := if h.st = .dirty then LineSt.clean else h.st
      (s.setDie die (x.putSet h.line ((x.set h.line).map fun g =>
        if g.line = h.line then { g with st := st, prio := .normal } else g))).bump (hcReg die 0x518)
        (if h.st = .dirty then 1 else 0)
    else s) s

/-- A line moved to another way of its set, its place in the order of use kept. -/
def State.hcMove (s : State) (die line way : Nat) : State :=
  let x := s.die die
  s.setDie die (x.putSet line ((x.set line).map fun g =>
    if g.line = line then { g with way := way } else g))

/-- A line that is not pinned leaves a pinned way, which holds pinned lines alone (R235): for a free
unpinned way, or for the way of the line that R227 makes the victim (DEDUCED, log entry 75). -/
def State.leavePinnedWay (s : State) (die : Nat) (h : HcLine) : State :=
  let l := (s.die die).set h.line
  match freeWay l (s.pinWays die) 16 with
  | some w => s.hcMove die h.line w
  | none =>
    match (lruOf l 0 .normal).or (lruOf l 0 .keep) with
    | none => s
    | some v =>
      let s := s.evict die v
      if v.line = h.line then s else s.hcMove die h.line v.way

/-- The lines of a priority that lie in pinned ways, the least recently used of each set first. -/
def State.inPinnedWays (s : State) (die : Nat) (p : Prio) : List HcLine :=
  (s.die die).lines.reverse.filter fun h => decide (h.prio = p ∧ h.way < s.pinWays die)

/-- What a change of PIN_WAYS or of a pin range does to the lines: the pinned lines concerned drop to
normal priority (R237), and the pinned ways are cleared of other lines (R235). -/
def State.pinTidy (s : State) (die : Nat) : State :=
  let s := s.pinDrop die
  let s := (s.inPinnedWays die .normal).foldl (fun s h => s.leavePinnedWay die h) s
  (s.inPinnedWays die .keep).foldl (fun s h => s.leavePinnedWay die h) s

/-- HC_FLUSH_COMPLETE (Table 7.7): the flush under way ends. -/
def execHcFlushComplete (d : CdId) (s : State) : Host.Outcome State Fault Refusal :=
  .next (
    if s.dieOn d.val && (s.die d.val).flushing then
      let s := s.flushAll d.val
      (s.setField (hcReg d.val 0) 3 3 0).setDie d.val { s.die d.val with flushing := false }
    else s)

/-- HC_PIN_LOAD (R236): a fetch of the pinned ranges starts. -/
def execHcPinLoad (d : CdId) (s : State) : Host.Outcome State Fault Refusal :=
  .next (
    if s.dieOn d.val then s.regStore none (hcReg d.val 8) (s.reg (hcReg d.val 8) ||| 16) else s)

/-- The lines of a valid pin range (Table 7.9), as REGION and OFFSET[29:7]. -/
def pinLines (r : Word) : List Nat :=
  let region := bits r 62 62 + 1
  let last := if region = 1 then 3327 else 8191
  if bits r 63 63 = 1 ∧ bits r 13 0 ≤ bits r 45 32 ∧ bits r 45 32 ≤ last then
    (List.range ((bits r 45 32 + 1 - bits r 13 0) * 512)).map fun i =>
      region * 2 ^ 23 + bits r 13 0 * 512 + i
  else []

/-- HC_PIN_LOAD_COMPLETE (R236): every line of the valid ranges that was absent is present. -/
def execHcPinLoadComplete (d : CdId) (s : State) : Host.Outcome State Fault Refusal :=
  .next (
    if s.dieOn d.val && (s.die d.val).pinLoad then
      let ls := (List.range 8).flatMap fun n => pinLines (s.reg (hcReg d.val (0x40 + 8 * n)))
      let s := ls.foldl (fun s l =>
        match (s.die d.val).find l with
        | some _ => s
        | none => s.hcAlloc d.val l .clean .pinned) s
      (s.setField (hcReg d.val 8) 5 5 0).setDie d.val { s.die d.val with pinLoad := false }
    else s)

end Sys2Proof.Machine
end

