-- ==== Sys2Proof/Machine/Sync.lean ====
section
/-!
DEFINITION. Sync words and the synchronisation instructions (R267 to R279).
-/

namespace Sys2Proof.Machine

/-! ### Words and results -/

/-- MODE, GEN and COUNT of a word (Table 8.1). -/
def syMode (w : Word) : Nat := bits w 63 62
def syGen (w : Word) : Nat := bits w 61 54
def syCount (w : Word) : Nat := bits w 31 0

/-- The image of a word. -/
def State.syncWord (s : State) (ga : Nat) : Word := mapGet 0 s.sync ga

/-- The state with a word's image replaced. -/
def State.setSync (s : State) (ga : Nat) (w : Word) : State := { s with sync := mapSet 0 s.sync ga w }

/-- The sync home of a die. -/
def State.home (s : State) (die : Nat) : SyncHome := mapGet SyncHome.reset s.sy.homes die

/-- The state with a sync home replaced. -/
def State.setHome (s : State) (die : Nat) (h : SyncHome) : State :=
  { s with sy := { s.sy with homes := mapSet SyncHome.reset s.sy.homes die h } }

/-- SYNC_ register of a die. -/
def syncReg (die off : Nat) : Nat := regGa die (0x110000 + off)

/-- A result (R268): STATUS in bits [63:56], COUNT in bits [31:0]. -/
def syResult (status count : Nat) : Word := BitVec.ofNat 64 (status % 256 * 2 ^ 56 + count % 2 ^ 32)

/-- How the sequencer takes a status (R324). -/
def State.seqStatus (s : State) (t : TileId) (status : Nat) : State :=
  let q := (s.tile t).seq
  let s := s.setSeq t { q with wait := .none }
  if status = 0 ∨ status = 5 ∨ status = 7 ∨ status = 9 then s
  else if status = 3 then s.setSeq t { (s.tile t).seq with late := true }
  else s.seqFault t 2

/-- A result reaches who waited for it: lanes take it in td and td + 1 (DEDUCED, log entry 10). -/
def State.syncDone (s : State) (w : Waiter) (status count : Nat) : State :=
  match w with
  | .seq t => s.seqStatus t status
  | .lanes t g ls td =>
    let x := (s.tile t).tge
    match x.group g with
    | none => s
    | some gr =>
      let vals := ls.flatMap fun l => toRegs l td 8 false (leBytes 8 (syResult status count).toNat)
      let gr := { gr.write vals with sync := gr.sync.filter fun l => !(ls.contains l) }
      s.tgSettle t { x with groups := mapSet none x.groups g (some gr) }

/-! ### Waits -/

/-- Whether a wait for n is satisfied by a word (R271). -/
def waitOk (w : Word) (n : Nat) : Bool :=
  if n = 0 then decide (1 ≤ syCount w)
  else if syMode w = 2 then decide (syCount w = 1)
  else decide (n ≤ syCount w)

/-- The word after a satisfied wait for n (R271). -/
def waitTake (w : Word) (n : Nat) : Word :=
  if n = 0 then w
  else if syMode w = 2 then putBits w 31 0 0
  else putBits w 31 0 (syCount w - n)

/-- A queued wait leaves the queue. -/
def State.unqueue (s : State) (e : SyncWait) : State :=
  let d := gaDie e.ga
  let h := s.home d
  s.setHome d { h with queue := h.queue.erase e }

/-- A satisfied wait leaves the queue with OK. -/
def State.satisfy (s : State) (e : SyncWait) : State :=
  let w := waitTake (s.syncWord e.ga) e.n
  (((s.unqueue e).setSync e.ga w).bump (syncReg (gaDie e.ga) 0x108) 1).syncDone e.who 0 (syCount w)

/-- Queued consuming waits satisfied in arrival order, stopping at the first that cannot be (R272). -/
def State.serveConsumers : Nat → State → Nat → State
  | 0, s, _ => s
  | fuel + 1, s, ga =>
    match (s.home (gaDie ga)).queue.find? fun e => decide (e.ga = ga ∧ e.n ≠ 0) with
    | none => s
    | some e => if waitOk (s.syncWord ga) e.n then State.serveConsumers fuel (s.satisfy e) ga else s

/-- After a change of a word: observing waits first, then consuming waits (R272). -/
def State.syncSettle (s : State) (ga : Nat) : State :=
  let q := (s.home (gaDie ga)).queue
  let s := (q.filter fun e => decide (e.ga = ga ∧ e.n = 0)).foldl (fun s e =>
    if waitOk (s.syncWord ga) 0 then s.satisfy e else s) s
  State.serveConsumers q.length s ga

/-- Every queued wait of a word completes with a status. -/
def State.flushWaits (s : State) (ga status : Nat) : State :=
  ((s.home (gaDie ga)).queue.filter fun e => decide (e.ga = ga)).foldl (fun s e =>
    (s.unqueue e).syncDone e.who status (syCount (s.syncWord ga))) s

/-- Wait-queue entries of a die (R274). -/
def queueCap (die : Nat) : Nat := if die < 48 then 4096 else 1024

/-- The status that comes before a wait or signal is tried (Table 8.3): UNCONFIGURED, STALE. -/
def syCheck (w : Word) (gen : Nat) : Option Nat :=
  if syMode w = 0 then some 4 else if syGen w ≠ gen then some 2 else none

/-- A stale operation counted (R296). -/
def State.syStale (s : State) (ga status : Nat) : State :=
  s.bump (syncReg (gaDie ga) 0x110) (if status = 2 then 1 else 0)

/-- SY.WAIT at the home (R271, R272, R274): its status and COUNT, or `none` while it waits. -/
def State.syncWait (s : State) (e : SyncWait) : Option (Nat × Nat) × State :=
  let w := s.syncWord e.ga
  let d := gaDie e.ga
  match syCheck w e.gen with
  | some st => (some (st, syCount w), s.syStale e.ga st)
  | none =>
    let h := s.home d
    let behind := decide (e.n ≠ 0) && h.queue.any fun f => decide (f.ga = e.ga ∧ f.n ≠ 0)
    if waitOk w e.n && !behind then
      let w' := waitTake w e.n
      (some (0, syCount w'), (s.setSync e.ga w').bump (syncReg d 0x108) 1)
    else if e.deadline.any fun t => decide (t ≤ s.ftc) then
      (some (3, syCount w), s.bump (syncReg d 0x128) 1)
    else if h.queue.length < queueCap d then (none, s.setHome d { h with queue := h.queue ++ [e] })
    else (none, (s.setHome d { h with retry := h.retry ++ [e] }).bump (syncReg d 0x120) 1)

/-- SY.TRY at the home. -/
def State.syncTry (s : State) (ga gen n : Nat) : (Nat × Nat) × State :=
  let w := s.syncWord ga
  match syCheck w gen with
  | some st => ((st, syCount w), s.syStale ga st)
  | none =>
    let behind := decide (n ≠ 0) && (s.home (gaDie ga)).queue.any fun f => decide (f.ga = ga ∧ f.n ≠ 0)
    if waitOk w n && !behind then
      let w' := waitTake w n
      ((0, syCount w'), (s.setSync ga w').bump (syncReg (gaDie ga) 0x108) 1)
    else ((1, syCount w), s)

/-! ### Signals and initialisation -/

/-- SY.SIG at the home (R270). -/
def State.syncSig (s : State) (ga gen n : Nat) : (Nat × Nat) × State :=
  let w := s.syncWord ga
  match syCheck w gen with
  | some st => ((st, syCount w), s.syStale ga st)
  | none =>
    if n = 0 then ((6, syCount w), s)
    else
      let flag := decide (syMode w = 2)
      let past := if flag then decide (syCount w = 1) else decide (0xFFFFFFFF < syCount w + n)
      let c := if flag then 1 else min (syCount w + n) 0xFFFFFFFF
      let w' := putBits w 31 0 c
      let w' := if past then putBits (putBits w' 53 53 1) 47 32 (min (bits w 47 32 + 1) 0xFFFF) else w'
      let d := gaDie ga
      let s := (s.setSync ga w').bump (syncReg d 0x100) 1
      let s := (s.bump (syncReg d 0x118) (if past then 1 else 0)).syncSettle ga
      ((if past then 5 else 0, syCount (s.syncWord ga)), s)

/-- Whether SY.INIT refuses an image (R269). -/
def syImageBad (w : Word) : Bool :=
  decide (syMode w = 3 ∨ bits w 52 48 ≠ 0 ∨ (syMode w ≠ 0 ∧ syGen w = 0) ∨ (syMode w = 2 ∧ 1 < syCount w) ∨
    (syMode w = 0 ∧ w ≠ 0))

/-- SY.INIT at the home (R269, R273). -/
def State.syncInit (s : State) (ga : Nat) (img : Word) : (Nat × Nat) × State :=
  let w := s.syncWord ga
  if syImageBad img then ((6, syCount w), s)
  else
    let s := s.setSync ga img
    let s := if syGen w ≠ syGen img ∨ syMode w ≠ syMode img then s.flushWaits ga 2 else s.syncSettle ga
    ((0, syCount (s.syncWord ga)), s)

/-- A word set to zero by firmware: queued waits complete with UNCONFIGURED (R277). -/
def State.syncZero (s : State) (ga : Nat) : State := (s.setSync ga 0).flushWaits ga 4

/-- The words that a signal or initialisation reaches: DIE = 63 names the same word on every unfenced
compute die (R188), the lowest of which gives the result. -/
def State.syncTargets (s : State) (ga : Nat) : List Nat :=
  if gaDie ga = 63 then
    ((List.range 48).filter fun d => !(s.dieFenced d)).map fun d => d * 2 ^ 34 + ga % 2 ^ 34
  else [ga]

/-- An operation on every target; the result is the first target's. -/
def State.syncEach (s : State) (ga : Nat) (f : State → Nat → (Nat × Nat) × State) : (Nat × Nat) × State :=
  (s.syncTargets ga).foldl (fun (z : (Nat × Nat) × State) g =>
    let r := f z.2 g
    (if some g = (s.syncTargets ga).head? then r.1 else z.1, r.2)) ((0, 0), s)

/-! ### Issue by a group -/

/-- A lane's result, or that it waits, from one operation at a home. -/
abbrev SyStep := TgGroup → Nat → Nat → State → Option (Nat × Nat) × State

/-- What lanes leave: state, values, lanes that wait, faults. -/
structure SyRes where
  s      : State
  vals   : List (Nat × BitVec 32)
  waits  : List Nat
  faults : List (Nat × Nat × Nat)
  deriving DecidableEq, Repr

/-- One lane of a synchronisation instruction (R268, R276): a misaligned address, a translation fault,
or an address outside region 3 (DEDUCED, log entry 10) faults; else the operation is performed at the home. -/
def syLane (t : TileId) (ctx : CtxId) (g : TgGroup) (k : XKind) (use : XUse) (ta td : BitVec 8)
    (step : SyStep) (z : SyRes) (l : Nat) : SyRes :=
  let va := (g.pair l ta.toNat).toNat % 2 ^ 48
  if va % 8 ≠ 0 then { z with faults := z.faults ++ [(l, 3, va)] }
  else
    match z.s.xlAns (tileDie t) ctx va k use with
    | .error c => { z with faults := z.faults ++ [(l, 0x100 + c, va)] }
    | .ok x =>
      let s := z.s.xlLookup t ctx va
      if gaRegion x.ga ≠ 3 then { z with s := s, faults := z.faults ++ [(l, 1, va)] }
      else
        let r := step g l x.ga s
        match r.1 with
        | none => { z with s := r.2, waits := z.waits ++ [l] }
        | some (st, c) =>
          { z with s := r.2, vals := z.vals ++ toRegs l td 8 false (leBytes 8 (syResult st c).toNat) }

/-- A synchronisation instruction of a group: lanes in ascending order (R276). Lanes that wait keep
the group from issuing. -/
def State.syGroup (s : State) (t : TileId) (g : Fin 48) (k : Nat → XKind) (use : XUse)
    (td ta : BitVec 8) (ok : TgIssue → Bool) (nOf : TgGroup → Nat → Nat) (step : SyStep) : State :=
  s.tgInstr t g.val fun u s =>
    if !(ok u && u.pairOk td.toNat && u.pairOk ta.toNat) then s.tgIllegal t u
    else
      let z := (lanes u.ent.mask).foldl (fun z l =>
        syLane t u.ctx u.g (k (nOf u.g l)) use ta td step z l) ⟨s, [], [], []⟩
      if !z.faults.isEmpty then z.s.laneFaults t u.slot u.ent.pc u.ctx (k 1) z.faults
      else
        let g' := { u.advance with win := none, sync := z.waits,
                                   active := u.g.active && z.waits.isEmpty }
        z.s.putGroup t u.slot (g'.write z.vals)

/-- GEN and N of an operand tb (R268). -/
def tbGen (v : BitVec 64) : Nat := bits v 63 56
def tbN (v : BitVec 64) : Nat := bits v 15 0

/-! ### Issue by a sequencer -/

/-- Whether everything that the tile's engines issued earlier has been performed (R277). -/
def State.tileQuiet (s : State) (t : TileId) : Bool :=
  let x := s.tile t
  x.tge.queue.isEmpty && x.tmv.xfers.all (fun f => f.out.isEmpty)

/-- A synchronisation word on an address (Table 9.4): translated with the given permission, then
performed at its home. -/
def State.sySeq (s : State) (t : TileId) (w : BitVec 120) (resv : Nat) (k : XKind) (use : XUse)
    (f : SeqSt → Nat → State → State) : State :=
  s.seqWord t fun pc s =>
    let q := (s.tile t).seq
    let va := wbits w 47 0
    if resv ≠ 0 ∨ va % 8 ≠ 0 then s.seqFault t 1
    else
      match s.xlAns (tileDie t) q.ctx va k use with
      | .error c => (s.seqStop t 4).xlFault t q.ctx 4 c va pc.toNat k
      | .ok x =>
        let s := s.xlLookup t q.ctx va
        if gaRegion x.ga ≠ 3 then s.seqFault t 1 else f q x.ga s

/-- A sequencer word that must wait until earlier accesses are performed (R277), or what it does. -/
def State.seqRelease (s : State) (t : TileId) (c : Instr) (f : State) : State :=
  if s.seqReady t && !(s.tileQuiet t) then s.wait c else f

/-- A deadline value T converted (R324): `none` for 0, and in dynamic mode (R333). -/
def State.seqDeadline (s : State) (t : TileId) (v : Nat) : Option Nat :=
  let q := (s.tile t).seq
  if v = 0 ∨ s.tileDynamic t then none else some (s.shift q.dom + q.stepBase * 65536 + v)

/-! ### The instructions -/

/-- SY.INIT (R269, R273). -/
def execSyInit (o : SyOp) (s : State) : Host.Outcome State Fault Refusal :=
  .next (match o with
    | .group t g td ta tb _ =>
      s.syGroup t g (fun _ => .store) .syncInitOrSig td ta (fun u => u.pairOk tb.toNat) (fun _ _ => 1)
        fun g l ga s =>
          let r := s.syncEach ga fun s a => s.syncInit a (g.pair l tb.toNat)
          (some r.1, r.2)
    | .seq t w =>
      s.seqRelease t (.syInit o) (s.sySeq t w (wbits w 119 112) .store .syncInitOrSig fun _ ga s =>
        let r := s.syncEach ga fun s a => s.syncInit a (BitVec.ofNat 64 (wbits w 111 48))
        r.2.seqStatus t r.1.1))

/-- SY.SIG (R270). -/
def execSySig (o : SyOp) (s : State) : Host.Outcome State Fault Refusal :=
  .next (match o with
    | .group t g td ta tb _ =>
      s.syGroup t g (fun _ => .store) .syncInitOrSig td ta (fun u => u.pairOk tb.toNat) (fun _ _ => 1)
        fun g l ga s =>
          let v := g.pair l tb.toNat
          let r := s.syncEach ga fun s a => s.syncSig a (tbGen v) (tbN v)
          (some r.1, r.2)
    | .seq t w =>
      s.seqRelease t (.sySig o) (s.sySeq t w (wbits w 119 72) .store .syncInitOrSig fun _ ga s =>
        let r := s.syncEach ga fun s a => s.syncSig a (wbits w 55 48) (wbits w 71 56)
        r.2.seqStatus t r.1.1))

/-- Permission of a wait: R, and W as well when N ≥ 1 (Table 8.2). -/
def waitKind (n : Nat) : XKind := if n = 0 then .load else .atomic

/-- A deadline operand: 0 for none. -/
def deadlineOf (v : BitVec 64) : Option Nat := if v = 0 then none else some v.toNat

/-- SY.WAIT (R271, R272). -/
def execSyWait (o : SyOp) (s : State) : Host.Outcome State Fault Refusal :=
  .next (match o with
    | .group t g td ta tb tc =>
      s.syGroup t g waitKind .syncOther td ta (fun u => u.pairOk tb.toNat && u.pairOk tc.toNat)
        (fun g l => tbN (g.pair l tb.toNat)) fun gr l ga s =>
          let v := gr.pair l tb.toNat
          s.syncWait ⟨ga, tbGen v, tbN v,
            if s.tileDynamic t then none else deadlineOf (gr.pair l tc.toNat), .lanes t g.val [l] td⟩
    | .seq t w =>
      s.sySeq t w (wbits w 119 112) (waitKind (wbits w 71 56)) .syncOther fun _ ga s =>
        let r := s.syncWait ⟨ga, wbits w 55 48, wbits w 71 56, s.seqDeadline t (wbits w 111 72), .seq t⟩
        match r.1 with
        | some (st, _) => r.2.seqStatus t st
        | none => r.2.setSeq t { (r.2.tile t).seq with wait := .sync ga })

/-- SY.TRY. The sequencer has no such word (Table 9.4). -/
def execSyTry (o : SyOp) (s : State) : Host.Outcome State Fault Refusal :=
  .next (match o with
    | .group t g td ta tb _ =>
      s.syGroup t g waitKind .syncOther td ta (fun u => u.pairOk tb.toNat)
        (fun g l => tbN (g.pair l tb.toNat)) fun gr l ga s =>
          let v := gr.pair l tb.toNat
          let r := s.syncTry ga (tbGen v) (tbN v)
          (some r.1, r.2)
    | .seq t _ => s.seqWord t fun _ s => s.seqFault t 1)

/-- SY.POLL (R269): COUNT in td, the image in the pair after it. The sequencer has no such word. -/
def execSyPoll (o : SyOp) (s : State) : Host.Outcome State Fault Refusal :=
  .next (match o with
    | .group t g td ta _ _ =>
      s.tgInstr t g.val fun u s =>
        if !(u.pairOk td.toNat && u.pairOk (td.toNat + 2) && u.pairOk ta.toNat) then s.tgIllegal t u
        else
          let step : SyStep := fun _ _ ga s =>
            let w := s.syncWord ga
            (some (if syMode w = 0 then 4 else 0, syCount w), s)
          let z := (lanes u.ent.mask).foldl (fun (z : SyRes) l =>
            let r := syLane t u.ctx u.g .load .syncOther ta td step z l
            let va := (u.g.pair l ta.toNat).toNat % 2 ^ 48
            match z.s.xlAns (tileDie t) u.ctx va .load .syncOther with
            | .error _ => r
            | .ok x =>
              let img := toRegs l (td + 2) 8 false (leBytes 8 (z.s.syncWord x.ga).toNat)
              { r with vals := r.vals ++ img }) ⟨s, [], [], []⟩
          if !z.faults.isEmpty then z.s.laneFaults t u.slot u.ent.pc u.ctx .load z.faults
          else z.s.putGroup t u.slot ({ u.advance with win := none }.write z.vals)
    | .seq t _ => s.seqWord t fun _ s => s.seqFault t 1)

/-! ### Companion signals -/

/-- The mailbox bound to a context (MBX0 is context 0's). -/
def State.mbxOf (s : State) (ctx : CtxId) : Nat :=
  if ctx = 0 then 0
  else ((List.range 8).find? fun m => decide ((mapGet MboxSt.reset s.mboxes m).ctx = some ctx)).getD 0

/-- The port on which a mailbox's traffic travels: its own, or the other when that one is down
(R448, R449). -/
def State.mbxPort (s : State) (m : Nat) : Fin 2 :=
  let p := s.mbPort m
  if s.cclActive p then p else if s.cclActive (if p = 0 then 1 else 0) then (if p = 0 then 1 else 0) else p

/-- An interrupt message sent and counted (R448). -/
def State.interrupt (s : State) (p : Fin 2) (source ctx vector : Nat) : State :=
  (s.send (.cclInterrupt p (BitVec.ofNat 4 source) (BitVec.ofNat 10 ctx) (BitVec.ofNat 11 vector))).cclBump
    0x330 1

/-- SY.CSIG by a context (R279): its status. -/
def State.companionSig (s : State) (ctx : CtxId) (idx gen n : Nat) : Nat × State :=
  let k := ctx.val * 16 + idx
  let a := s.reg (syncReg 48 (0x4000 + 0x10 * k))
  let b := s.reg (syncReg 48 (0x4008 + 0x10 * k))
  if bits b 63 56 ≠ gen then (2, s.bump (syncReg 48 0x110) 1)
  else if n = 0 ∨ bits a 63 63 = 0 then (6, s)
  else
    let p := s.mbxPort (s.mbxOf ctx)
    let s := s.bump (syncReg 48 0x138) 1
    let s := if bits a 62 62 = 1 then
        s.send (.cclAtomic p (BitVec.ofNat 52 (bits a 51 3 * 8)) (BitVec.ofNat 64 n)) else s
    (0, if bits a 61 61 = 1 then s.interrupt p 2 ctx.val (bits b 10 0) else s)

/-- SY.CSIG (R279). -/
def execSyCsig (o : SyOp) (s : State) : Host.Outcome State Fault Refusal :=
  .next (match o with
    | .group t g td ta tb _ =>
      s.tgInstr t g.val fun u s =>
        if !(u.pairOk td.toNat && u.pairOk ta.toNat && u.pairOk tb.toNat) then s.tgIllegal t u
        else
          let z := (lanes u.ent.mask).foldl (fun (z : State × List (Nat × BitVec 32)) l =>
            let v := u.g.pair l tb.toNat
            let r := z.1.companionSig u.ctx ((u.g.pair l ta.toNat).toNat % 16) (tbGen v) (tbN v)
            (r.2, z.2 ++ toRegs l td 8 false (leBytes 8 (syResult r.1 0).toNat))) (s, [])
          z.1.putGroup t u.slot ({ u.advance with win := none }.write z.2)
    | .seq t w =>
      s.seqRelease t (.syCsig o) (s.seqWord t fun _ s =>
        if wbits w 47 4 ≠ 0 ∨ wbits w 119 72 ≠ 0 then s.seqFault t 1
        else
          let r := s.companionSig (s.tile t).seq.ctx (wbits w 3 0) (wbits w 55 48) (wbits w 71 56)
          r.2.seqStatus t r.1))

/-! ### Timeouts and retries -/

/-- SYNC_WAIT_TIMEOUT (R272): queued waits of a die whose deadline has passed leave with TIMEOUT, each
a change of its word. -/
def execSyncWaitTimeout (d : DieId) (s : State) : Host.Outcome State Fault Refusal :=
  .next (
    if !s.on then s
    else
      ((s.home d.val).queue.filter fun e => e.deadline.any fun t => decide (t ≤ s.ftc)).foldl (fun s e =>
        if (s.home d.val).queue.contains e then
          let s := ((s.unqueue e).bump (syncReg d.val 0x128) 1).syncDone e.who 3
            (syCount (s.syncWord e.ga))
          s.syncSettle e.ga
        else s) s)

/-- SYNC_WAIT_RETRY (R274): waits that found no queue entry are tried again; one whose deadline has
passed completes with TIMEOUT. -/
def execSyncWaitRetry (d : DieId) (s : State) : Host.Outcome State Fault Refusal :=
  .next (
    if !s.on then s
    else
      (s.home d.val).retry.foldl (fun s e =>
        let h := s.home d.val
        let gone (s : State) : State := s.setHome d.val { s.home d.val with retry := h.retry.erase e }
        let r := s.syncTry e.ga e.gen e.n
        if r.1.1 ≠ 1 then (gone r.2).syncDone e.who r.1.1 r.1.2
        else if e.deadline.any fun t => decide (t ≤ s.ftc) then
          ((gone s).bump (syncReg d.val 0x128) 1).syncDone e.who 3 r.1.2
        else s) s)

end Sys2Proof.Machine
end

