-- ==== Sys2Proof/Machine/Hold.lean ====
section
/-!
DEFINITION. Steps, schedule time and holds of a domain (R311 to R315, R334 to R337).
-/

namespace Sys2Proof.Machine

/-- Hold cause's bit in CAUSES, by its row of Table 9.6. -/
def causeBit (c : HoldCause) : Nat :=
  match c with
  | .power => 0
  | .jobHold => 1
  | .rerun => 2
  | .fallback => 3
  | .hotFence => 4
  | .slice => 5
  | .timeLoss => 6

/-- STEP_LEN of a slot in ft. -/
def State.stepLen (s : State) (d : Nat) : Nat := 65536 * s.regField (domReg d 0) 23 0

/-- A unit committed in the slot's step. When all of the step's units have, its lists are fresh for the
next step (R55: widenings and repeats belong to one step). -/
def State.unitDone (s : State) (d : Fin 2) (u : Nat) : State :=
  let x := s.dom d
  let done := if x.done.contains u then x.done else x.done ++ [u]
  if x.units.all fun r => done.contains r.id then
    s.setDom d { x with stepNo := x.stepNo + 1, done := [], repeats := 0, widens := [], specials := [] }
  else s.setDom d { x with done := done }

/-- Job step of a slot's present step. -/
def State.jobStep (s : State) (d : Fin 2) : Nat := ((s.dom d).step0.toNat + (s.dom d).stepNo) % 2 ^ 32

/-- FTC of the first step boundary of a domain, in schedule time, that is not earlier than an FTC. -/
def State.stepBoundary (s : State) (d : Fin 2) (f : Nat) : Nat :=
  let n := s.stepLen d.val
  let a := (s.dom d).start + s.shift d.val
  if n = 0 ∨ f ≤ a then max a (frameUp f) else a + (f - a + n - 1) / n * n

/-- The domain slot of a context's job. -/
def State.slotOf (s : State) (ctx : CtxId) : Option (Fin 2) :=
  if (s.dom 0).loaded ∧ (s.dom 0).ctx = ctx then some 0
  else if (s.dom 1).loaded ∧ (s.dom 1).ctx = ctx then some 1
  else none

/-- The domain slot that holds a domain id. -/
def State.slotById (s : State) (id : Nat) : Option (Fin 2) :=
  if (s.dom 0).loaded ∧ s.regField (domReg 0 0) 63 56 = id then some 0
  else if (s.dom 1).loaded ∧ s.regField (domReg 1 0) 63 56 = id then some 1
  else none

/-- The FTC at which a slot's pending hold begins: the earliest B of its causes. -/
def State.holdB (s : State) (d : Fin 2) : Nat :=
  match (s.dom d).hold.reqs with
  | [] => 0
  | r :: rest => rest.foldl (fun m q => min m (s.reqB d.val q)) (s.reqB d.val r)

/-- FAB_HOLD_STATUS of a slot written from its hold, on every fabric die. A fallback shows its cause
until static mode resumes; B_FRAME keeps the last hold's B. -/
def State.showHold (s : State) (d : Fin 2) : State :=
  let x := s.dom d
  let h := x.hold
  let causes := h.reqs.foldl (fun m r => m ||| 2 ^ r.bit) (if x.dyn = .fallback then 8 else 0)
  let s := s.setDomField d.val 16 63 63 (if !h.active && !h.reqs.isEmpty then 1 else 0)
  let s := s.setDomField d.val 16 62 62 (if h.active then 1 else 0)
  let s := s.setDomField d.val 16 53 47 causes
  if h.reqs = [] then s else s.setDomField d.val 16 46 0 ((if h.active then h.b else s.holdB d) / 65536)

/-- STATE of a slot written on every fabric die (Table 9.12). -/
def State.showMode (s : State) (d : Fin 2) : State :=
  let x := s.dom d
  let m := if !x.started then 0
    else if x.dyn ≠ .none ∧ !(s.paused d) then 3
    else if x.hold.active then 2 else 1
  s.setDomField d.val 0 55 54 m

/-- A slot's hold replaced and shown. -/
def State.setHold (s : State) (d : Fin 2) (h : HoldSt) : State :=
  ((s.setDom d { s.dom d with hold := h }).showHold d).showMode d

/-- A cause joined to another of the same row (R336): the earlier B, the later end. -/
def HoldReq.join (a b : HoldReq) : HoldReq :=
  let open_ := decide (a.frames = 0 ∨ b.frames = 0)
  let first := if b.atStep = a.atStep ∧ b.b < a.b then b else a
  { first with frames := if open_ then 0 else max a.frames b.frames,
               ends := match a.ends, b.ends with
                 | some x, some y => if open_ then none else some (max x y)
                 | _, _ => none }

/-- A cause added to what is pending or active (R336). Answers whether a notice is due: a new hold, or
an earlier B of a pending one, each with a new hold generation. -/
def State.askHold (s : State) (d : Fin 2) (r : HoldReq) : Bool × State :=
  let h := (s.dom d).hold
  let r := if r.frames ≠ 0 ∧ !r.atStep then { r with ends := some (r.b + r.frames * 65536) } else r
  let reqs := if h.reqs.any (fun q => decide (q.bit = r.bit)) then
      h.reqs.map fun q => if q.bit = r.bit then q.join r else q
    else h.reqs ++ [r]
  let due := !h.active && (h.reqs.isEmpty || decide (s.reqB d.val r < s.holdB d))
  let s := if due then
      s.setDomField d.val 16 61 54 (nextGen (s.regField (domReg d.val 16) 61 54)) else s
  (due, s.setHold d { h with reqs := reqs })

/-- Whether this module is the master (R303, Table 9.11). -/
def State.isMaster (s : State) : Bool := decide (s.regField (regGa 48 0x8010) 63 62 = 1)

/-- A hold notice sent to the modules of the domain (R334). -/
def State.sendNotice (s : State) (d : Fin 2) : State :=
  let h := (s.dom d).hold
  let open_ := h.reqs.any fun r => decide (r.frames = 0)
  s.send (.holdNotice (BitVec.ofNat 8 (s.regField (domReg d.val 0) 63 56))
    (BitVec.ofNat 8 (s.regField (domReg d.val 16) 61 54)) (BitVec.ofNat 64 (s.holdB d))
    (BitVec.ofNat 32 (if open_ then 0 else h.reqs.foldl (fun m r => max m r.frames) 0))
    (BitVec.ofNat 7 (s.regField (domReg d.val 16) 53 47)))

/-- A cause added by this module as master, with the notice that it calls for. -/
def State.masterHold (s : State) (d : Fin 2) (r : HoldReq) : State :=
  let z := s.askHold d r
  if z.1 then z.2.sendNotice d else z.2

/-- Whether a hold cause begins at a step boundary (Table 9.6). -/
def startsAtStep (cause : HoldCause) (asked : Bool) : Bool :=
  decide (cause = .hotFence) || (asked && decide (cause = .jobHold))

/-- A hold request at the master's FD0 (R334): B is the first frame boundary at or after receipt +
HOLD_LEAD, or the first step boundary in schedule time that is not earlier. On another module it goes
to the master. A tenant slice begins at the domain's next slice point or step boundary (R340). -/
def State.requestHold (s : State) (d : Fin 2) (cause : HoldCause) (frames : Nat) (atStep : Bool) :
    State :=
  if !(s.dom d).started then s
  else if cause = .slice then s.setDom d { s.dom d with slices := true }
  else if s.isMaster then
    let f := frameUp (s.ftc + s.holdLead d.val)
    let st := startsAtStep cause atStep
    s.masterHold d ⟨causeBit cause, st, if st then s.stepBoundary d f - s.shift d.val else f, frames, none⟩
  else s.send (.holdRequest (BitVec.ofNat 8 (s.regField (domReg d.val 0) 63 56)) cause
    (BitVec.ofNat 32 frames) atStep)

/-- Every domain that the module belongs to takes an open-ended hold (R307, R308). -/
def State.holdAll (s : State) (cause : HoldCause) : State :=
  (s.requestHold 0 cause 0 false).requestHold 1 cause 0 false

/-- What ends an open-ended cause has come about: the hold may end from an FTC on. -/
def State.letEnd (s : State) (d : Fin 2) (bit f : Nat) : State :=
  let h := (s.dom d).hold
  s.setHold d { h with reqs := h.reqs.map fun r => if r.bit = bit then { r with ends := some f } else r }

/-- A FAB_ counter advanced on every fabric die (R343). -/
def State.fabBump (s : State) (off n : Nat) : State :=
  (List.range 4).foldl (fun s f => s.bump (regGa (48 + f) (0x8000 + off)) n) s

/-- Deadlines of timed phases in a held domain move by n ticks (R289): open phases, NEXT, arrivals
held at the unit, and those of module contexts. -/
def State.moveDeadlines (s : State) (ctx : CtxId) (n : Nat) : State :=
  let s := s.sy.bars.foldl (fun s e =>
    let d := e.1 / 32
    let b := e.2
    let a := regGa d (0x120000 + 0x20 * (e.1 % 32))
    if s.regField a 46 41 ≠ ctx.val then s
    else
      let b' : BarSt :=
        { b with deadline := if b.isOpen && !b.untimed then b.deadline + n else b.deadline,
                 nextD := if b.nextD = 0 then 0 else b.nextD + n,
                 found := b.found.map fun e => (e.1, e.2 + n),
                 held := b.held.map fun h => { h with deadline := h.deadline + n } }
      { s with sy := { s.sy with bars := mapSet BarSt.reset s.sy.bars e.1 b' } }.setReg (a + 0x10)
        (if b'.isOpen && !b'.untimed then BitVec.ofNat 64 b'.deadline else 0)) s
  s.sy.mbcs.foldl (fun s e =>
    let m := e.2
    if s.regField (syncReg 48 (0x1000 + 0x20 * e.1)) 53 48 ≠ ctx.val then s
    else
      let m' : MbcSt :=
        { m with deadline := if m.isOpen && !m.untimed then m.deadline + n else m.deadline,
                 lastD := if m.lastD = 0 then 0 else m.lastD + n }
      { s with sy := { s.sy with mbcs := mapSet MbcSt.reset s.sy.mbcs e.1 m' } }) s

/-- n ticks of a hold (R289, R314): the shift advances and timed deadlines move, and with them the commit
point of a unit that awaits it in static mode (R336). -/
def State.holdTicks (s : State) (d : Fin 2) (n : Nat) : State :=
  if n = 0 then s
  else
    let x := s.dom d
    let s := if x.dyn = .none then
        s.setDom d { x with decided := x.decided.map fun k => { k with k := k.k + n } } else s
    (s.setDomField d.val 8 63 0 (s.shift d.val + n)).moveDeadlines x.ctx n

end Sys2Proof.Machine
end

