-- ==== Sys2Proof/Machine/Barrier.lean ====
section
/-!
DEFINITION. Die barriers, module barrier contexts and the master's decision on a collection (R280 to
R293, R329 to R331, R634).
-/

namespace Sys2Proof.Machine

/-! ### Flags of a unit -/

/-- One layer's flags joined to a list. -/
def orLayer (l : List LayerFlags) (f : LayerFlags) : List LayerFlags :=
  if l.any (fun g => decide (g.layer = f.layer)) then
    l.map fun g =>
      if g.layer = f.layer then
        ⟨g.layer, g.wovf || f.wovf, g.rovf || f.rovf, g.eovf || f.eovf, g.special || f.special,
          g.noWider || f.noWider⟩
      else g
  else l ++ [f]

/-- OR of two reports' flags (R329). -/
def orFlags (a b : UnitFlags) : UnitFlags :=
  ⟨b.layers.foldl orLayer a.layers, a.fault || b.fault, a.skew || b.skew, a.late || b.late⟩

/-- What a tile brings to its collection (R329): flags with their layers, FAULT, TIMEOUT. -/
def SeqSt.report (q : SeqSt) : UnitFlags :=
  ⟨q.flags.map fun g => ⟨BitVec.ofNat 32 g.layer, g.wovf, g.rovf, g.eovf, g.special, g.noWider⟩,
    q.fault, false, q.late⟩

/-- Flags that units outside the tiles raised for a context, taken into its report (R329). -/
def State.takeNoted (s : State) (ctx : CtxId) : UnitFlags × State :=
  let mine := s.noted.filter fun e => decide (e.1 = ctx)
  let f := mine.foldl (fun (f : UnitFlags) e => { f with layers := orLayer f.layers e.2 }) noFlags
  ({ f with fault := s.faults.contains (ctx, false), skew := s.faults.contains (ctx, true) },
    { s with noted := s.noted.filter fun e => decide (e.1 ≠ ctx)
             faults := s.faults.filter fun e => decide (e.1 ≠ ctx) })

/-! ### Die counters -/

/-- BAR_ register n of a die at an offset (Table 8.8). -/
def barReg (d n off : Nat) : Nat := regGa d (0x120000 + 0x20 * n + off)

/-- BAR_ counter of a die (Table 8.12). -/
def barCnt (d off : Nat) : Nat := regGa d (0x120000 + off)

/-- A counter's state. -/
def State.bar (s : State) (d n : Nat) : BarSt := mapGet BarSt.reset s.sy.bars (d * 32 + n)

/-- The state with a counter replaced, and BAR_DEADLINE showing the open phase's deadline. -/
def State.setBar (s : State) (d n : Nat) (b : BarSt) : State :=
  { s with sy := { s.sy with bars := mapSet BarSt.reset s.sy.bars (d * 32 + n) b } }.setReg
    (barReg d n 0x10) (if b.isOpen && !b.untimed then BitVec.ofNat 64 b.deadline else 0)

/-- MODE of a counter. -/
def State.barMode (s : State) (d n : Nat) : Nat := s.regField (barReg d n 0) 62 61

/-- TILE_MASK of a counter. -/
def State.barMask (s : State) (d n : Nat) : Nat := s.regField (barReg d n 0) 11 0

/-- ARRIVED of a counter. -/
def State.arrived (s : State) (d n : Nat) : Nat := s.regField (barReg d n 8) 11 0

/-- CTX of a counter. -/
def State.barCtx (s : State) (d n : Nat) : Nat := s.regField (barReg d n 0) 46 41

/-- The late-arrival event of a tile (R288). -/
def State.lateEvent (s : State) (d n i deadline : Nat) : State :=
  s.raise { cls := .contained, code := 0x3001, die := d, kind := 2, inst := 0, ctx := s.barCtx d n,
            tile := some (tileOf (d * 12 + i)), location := deadline, step := 0, layer := 0, detail := n }

/-- A report from a die to FD0 on its way (R281). -/
def State.dieReport (s : State) (d n : Nat) (deadline : Option Nat) (f : UnitFlags) : State :=
  let c := Fin.ofNat 64 (s.regField (barReg d n 0) 52 47)
  { s with sy := { s.sy with msgs := s.sy.msgs ++ [.report (Fin.ofNat 48 d) c deadline f] } }

/-- After a release or a check: EPOCH advances, and NEXT becomes ARRIVED with its deadline and flags
(R283, R288). Waiters and held arrivals are the caller's. -/
def State.barNext (s : State) (d n : Nat) : State :=
  let b := s.bar d n
  let a := barReg d n 8
  let w := s.reg a
  let s := s.setReg a (putBits (putBits (putBits w 63 48 (bits w 63 48 + 1)) 11 0 (bits w 35 24)) 35 24 0)
  s.setBar d n { b with isOpen := decide (bits w 35 24 ≠ 0), untimed := false, deadline := b.nextD,
                        nextD := 0, reported := false, waiting := [], held := [], flags := b.nextF,
                        nextF := noFlags }

/-- A timed arrival by the first case of R288 that applies, R634's open untimed phase among them: its
status, or `none` while it waits. Whether the phase is now to be tried for completion comes last. -/
def State.timedArrive (s : State) (d n : Nat) (h : HeldArrival) : Option Nat × State :=
  let b := s.bar d n
  let i := tileIdx h.tile
  let a := barReg d n 8
  let f := orFlags b.flags (h.flags.getD noFlags)
  let record (s : State) (b : BarSt) : State :=
    (s.setField a 11 0 (s.arrived d n ||| 2 ^ i)).setBar d n b
  let double (s : State) : State := s.bump (barCnt d 0x810) 1
  if h.deadline ≤ s.ftc ∨ (b.isOpen ∧ !b.untimed ∧ h.deadline < b.deadline) then
    (some 9,
      if b.found.contains (i, h.deadline) then s else s.lateEvent d n i h.deadline)
  else if !b.isOpen then
    (some 0, record s { b with isOpen := true, untimed := false, deadline := h.deadline, flags := f })
  else if b.untimed ∨ h.deadline = b.deadline then
    if (s.arrived d n).testBit i then
      if b.untimed then (none, (double s).setBar d n { b with waiting := b.waiting ++ [(h.who, 7)] })
      else (some 7, double s)
    else (some 0, record s { b with flags := f })
  else if s.regField a 35 24 = 0 ∨ h.deadline = b.nextD then
    if (s.regField a 35 24).testBit i then (some 7, double s)
    else
      (some 0, (s.setField a 35 24 (s.regField a 35 24 ||| 2 ^ i)).setBar d n
        { b with nextD := h.deadline, nextF := orFlags b.nextF (h.flags.getD noFlags) })
  else (none, s.setBar d n { b with held := b.held ++ [h] })

/-- Held arrivals treated again (R288). -/
def State.retreat (s : State) (d n : Nat) (held : List HeldArrival) : State :=
  held.foldl (fun s h =>
    let r := s.timedArrive d n h
    match r.1 with
    | some st => r.2.syncDone h.who st 0
    | none => r.2) s

/-- The chorus release (R283): the counter moves on, and every waiter gets its status. -/
def State.chorus (s : State) (d n : Nat) : State :=
  let b := s.bar d n
  let s := (s.barNext d n).bump (barCnt d 0x800) 1
  let s := b.waiting.foldl (fun s w => s.syncDone w.1 w.2 0) s
  s.retreat d n b.held

/-- A phase without check completes once every tile of TILE_MASK has arrived (R281, R634): a local
counter releases, an up counter reports, once. -/
def State.barTry (s : State) (d n : Nat) : State :=
  let b := s.bar d n
  let m := s.barMask d n
  if !(b.isOpen && b.untimed) || b.reported || decide (m &&& s.arrived d n ≠ m) then s
  else if s.barMode d n % 2 = 1 then (s.setBar d n { b with reported := true }).dieReport d n none b.flags
  else s.chorus d n

/-- An arrival (R282, R284, R288, R634): its status, or `none` while its issuer waits. -/
def State.arrive (s : State) (t : TileId) (ctx : CtxId) (n gen : Nat) (deadline : Option Nat)
    (who : Waiter) (f : Option UnitFlags) : Option Nat × State :=
  let d := tileDie t
  let i := tileIdx t
  if s.regField (barReg d n 0) 63 63 = 0 then (some 4, s)
  else if s.regField (barReg d n 0) 60 53 ≠ gen then (some 2, s.bump (barCnt d 0x808) 1)
  else if !((s.barMask d n).testBit i) ∨ s.barCtx d n ≠ ctx.val then (some 8, s.bump (barCnt d 0x818) 1)
  else
    match (if s.barMode d n < 2 ∨ s.tileDynamic t then none else deadline) with
    | some dl =>
      let r := s.timedArrive d n ⟨t, dl, who, f⟩
      (r.1, r.2.barTry d n)
    | none =>
      let b := s.bar d n
      if b.isOpen ∧ (s.arrived d n).testBit i then
        let s := s.bump (barCnt d 0x810) 1
        (none, (s.setBar d n { b with untimed := true, waiting := b.waiting ++ [(who, 7)] }).barTry d n)
      else
        let a := barReg d n 8
        let s := s.setField a 11 0 (s.arrived d n ||| 2 ^ i)
        let s := s.setBar d n { b with isOpen := true, untimed := true, waiting := b.waiting ++ [(who, 0)],
                                       flags := orFlags b.flags (f.getD noFlags) }
        (none, s.barTry d n)

/-- A sequencer's arrival: it goes on at once, or waits for the release. -/
def State.seqArrive (s : State) (t : TileId) (n gen : Nat) (deadline : Option Nat)
    (f : Option UnitFlags) : State :=
  let s := s.setSeq t { (s.tile t).seq with wait := .barrier }
  let r := s.arrive t (s.tile t).seq.ctx n gen deadline (.seq t) f
  match r.1 with
  | some st => r.2.seqStatus t st
  | none => r.2

/-- SY.BAR (R282): one arrival per issue; every active lane takes the result (DEDUCED, log entry 10). -/
def execSyBar (o : SyOp) (s : State) : Host.Outcome State Fault Refusal :=
  .next (match o with
    | .group t g td ta tb _ =>
      s.tgInstr t g.val fun u s =>
        if !(u.pairOk td.toNat && u.pairOk ta.toNat && u.pairOk tb.toNat) then s.tgIllegal t u
        else
          let ls := lanes u.ent.mask
          let l := lowLane u.ent.mask
          let v := u.g.pair l ta.toNat
          let s := s.putGroup t u.slot { u.advance with win := none, sync := ls, active := false }
          let w := Waiter.lanes t g.val ls td
          let r := s.arrive t u.ctx (bits v 4 0) (bits v 63 56) (deadlineOf (u.g.pair l tb.toNat)) w none
          (match r.1 with
           | some st => r.2.syncDone w st 0
           | none => r.2)
    | .seq t w =>
      s.seqRelease t (.syBar o) (s.seqWord t fun _ s =>
        if wbits w 47 5 ≠ 0 ∨ wbits w 71 56 ≠ 0 ∨ wbits w 119 112 ≠ 0 then s.seqFault t 1
        else s.seqArrive t (wbits w 4 0) (wbits w 55 48) (s.seqDeadline t (wbits w 111 72)) none))

/-- BARRIER_PHASE_CHECK (R288): at the open phase's deadline, tiles of TILE_MASK not arrived are late.
A late tile whose stream stopped on a fault brings FAULT (R326). -/
def execBarrierPhaseCheck (d : CdId) (n : Fin 32) (s : State) : Host.Outcome State Fault Refusal :=
  .next (
    let b := s.bar d.val n.val
    if !s.on || !b.isOpen || b.untimed || decide (s.ftc < b.deadline) then s
    else
      let late := (List.range 12).filter fun i =>
        (s.barMask d.val n.val).testBit i && !((s.arrived d.val n.val).testBit i)
      let fault := late.any fun i => (s.tile (tileOf (d.val * 12 + i))).seq.fault
      let s := s.setField (barReg d.val n.val 8) 23 12 (late.foldl (fun m i => m ||| 2 ^ i) 0)
      let s := s.bump (barCnt d.val 0x820) late.length
      let s := late.foldl (fun s i => s.lateEvent d.val n.val i b.deadline) s
      let f := orFlags b.flags ⟨[], fault, false, decide (late ≠ [])⟩
      let s := if s.barMode d.val n.val = 3 then s.dieReport d.val n.val (some b.deadline) f else s
      let s := s.barNext d.val n.val
      (s.setBar d.val n.val { s.bar d.val n.val with found := b.found ++ late.map fun i => (i, b.deadline) }).retreat d.val n.val b.held)

/-- BAR_CFGn written by firmware (R280): BAR_STATE clears, and waits complete with STALE. -/
def State.writeBarCfg (s : State) (d n : Nat) (v : Word) : State :=
  let b := s.bar d n
  let s := s.regStore none (barReg d n 0) v
  let s := (s.setReg (barReg d n 8) 0).setBar d n BarSt.reset
  let s := b.waiting.foldl (fun s w => s.syncDone w.1 2 0) s
  b.held.foldl (fun s h => s.syncDone h.who 2 0) s

/-- BAR_CFG_WRITE (R280). -/
def execBarCfgWrite (d : CdId) (n : Fin 32) (v : Word) (s : State) : Host.Outcome State Fault Refusal :=
  .next (if s.on && !(s.die d.val).tripped then s.writeBarCfg d.val n.val v else s)

/-- A fenced tile leaves every TILE_MASK of its die (R285). -/
def State.barFenceTile (s : State) (t : TileId) : State :=
  (List.range 32).foldl (fun s n =>
    let a := barReg (tileDie t) n 0
    if s.regField a (tileIdx t) (tileIdx t) = 1 then
      (s.setField a (tileIdx t) (tileIdx t) 0).barTry (tileDie t) n
    else s) s

/-! ### The decision on a collection -/

/-- A record of the schedule master (kind 0x0C of FD0) against the context of a slot's job. -/
def State.raiseMaster (s : State) (d : Fin 2) (cls : EvClass) (code layer detail : Nat) : State :=
  s.raise { cls := cls, code := code, die := 48, kind := 12, inst := s.regField (domReg d.val 0) 63 56,
            ctx := (s.dom d).ctx.val, tile := none, location := 0, step := s.jobStep d, layer := layer,
            detail := detail }

/-- Whether a layer's flags call for a wider format. -/
def layerWide (f : LayerFlags) : Bool := f.wovf || f.rovf || f.eovf

/-- The outcome of a collection, the first row of Table 9.5 that applies, given the repeats already
made in the step. -/
def outcomeOf (f : UnitFlags) (repeats : Nat) : Outcome :=
  let wide := f.layers.any layerWide
  if f.fault then .openHold 0
  else if f.skew then .openHold 3
  else if f.layers.any (·.noWider) then .openHold 1
  else if 4 ≤ repeats ∧ (wide ∨ f.late) then .openHold 2
  else if wide ∨ f.late then .repeated
  else .commit

/-- Widening of a layer after its flags (R54, R55). -/
def widenLayer (l : List LayerWiden) (f : LayerFlags) : List LayerWiden :=
  if !(layerWide f) then l
  else
    let n := f.layer.toNat
    let a := if f.wovf then 1 else 0
    if l.any (fun w => decide (w.layer = n)) then
      l.map fun w => if w.layer = n then ⟨n, w.a + a, w.r || f.rovf, w.e || f.eovf⟩ else w
    else l ++ [⟨n, a, f.rovf, f.eovf⟩]

/-- Flag kinds of a layer as record 0x1001 shows them. -/
def layerKinds (f : LayerFlags) : Nat :=
  (if f.wovf then 1 else 0) + (if f.rovf then 2 else 0) + (if f.eovf then 4 else 0)

/-- SPECIAL records of a final outcome (R57): once for each layer and step. -/
def State.noteSpecials (s : State) (d : Fin 2) (f : UnitFlags) : State :=
  f.layers.foldl (fun s l =>
    let x := s.dom d
    if l.special && !(x.specials.contains l.layer.toNat) then
      (s.setDom d { x with specials := x.specials ++ [l.layer.toNat] }).raiseMaster d .contained 0x1002
        l.layer.toNat 0
    else s) s

/-- The decision at C_u (R331): outcome, records, and for a repeat or an open-ended hold the pending hold at K, in
schedule time (R334, R336); a repeat that is clean ends its hold at K (R332). -/
def State.decideUnit (s : State) (d : Fin 2) (u : RepUnit) (f : UnitFlags) : State :=
  let x := s.dom d
  let k := frameUp (s.ftc + s.holdLead d.val)
  let o := outcomeOf f x.repeats
  let s := s.setDom d { x with decided := some ⟨u.id, o, f, k⟩ }
  match o with
  | .commit =>
    let s := if x.dyn = .repeated [u.id] then s.letEnd d 2 k else s
    s.noteSpecials d f
  | .repeated =>
    let flagged := f.layers.filter layerWide
    let s := s.setDom d { s.dom d with widens := f.layers.foldl widenLayer x.widens }
    let s := flagged.foldl (fun s l =>
      s.raiseMaster d .corrected 0x1001 l.layer.toNat (layerKinds l + (x.repeats + 1) * 256)) s
    let s := if flagged = [] then s.raiseMaster d .corrected 0x3003 u.id 0 else s
    s.masterHold d ⟨2, true, k - s.shift d.val, 0, none⟩
  | .openHold c =>
    let s := f.layers.foldl (fun s l =>
      if l.noWider || (decide (c = 2) && layerWide l) then s.raiseMaster d .contained 0x1003 l.layer.toNat 0
      else s) s
    let s := (s.raiseMaster d .contained 0x3006 u.id c).noteSpecials d f
    s.masterHold d ⟨2, true, k - s.shift d.val, 0, none⟩

/-- The unit that a module context collects (R329): the first of its job's table with that context that
has not committed in the step. -/
def State.unitOf (s : State) (c : Nat) (ctx : CtxId) : Option (Fin 2 × RepUnit) :=
  match s.slotOf ctx with
  | none => none
  | some d =>
    let x := s.dom d
    (x.units.find? fun u => decide (u.mctx.val = c) && !(x.done.contains u.id)).map fun u => (d, u)

/-- PHASE of every update layer of a unit (R413): valid descriptors of the context whose UNIT is the
unit's, but for a frozen layer that has not started. -/
def State.uePhases (s : State) (ctx : CtxId) (unit : Nat) : List Nat :=
  (List.range 4).flatMap fun f => (List.range 128).filterMap fun l =>
    let w0 := s.reg (regGa (48 + f) (0x21000 + 0x80 * l))
    let w3 := s.reg (regGa (48 + f) (0x21018 + 0x80 * l))
    let ph := s.regField (regGa (48 + f) (0x25000 + 8 * l)) 63 61
    if w0.getLsbD 63 ∧ bits w3 19 14 = ctx.val ∧ bits w3 13 0 = unit ∧ !(w0.getLsbD 62 ∧ ph = 0) then
      some ph
    else none

/-- What the update cores add to a context's report (R413): whether every layer of the unit is ready,
and STEP_SKEW and FAULT. -/
def State.ueReport (s : State) (c : Nat) (ctx : CtxId) : Bool × UnitFlags :=
  match s.unitOf c ctx with
  | none => (true, noFlags)
  | some u =>
    let ps := s.uePhases ctx u.2.id
    (ps.all fun p => decide (4 ≤ p), ⟨[], ps.contains 7, ps.contains 6, false⟩)

/-- A module's part of a unit's report beyond what its dies and ports brought (R329): flags of home
caches, reduction units and update cores. Only a context that collects a unit takes them. -/
def State.unitNotes (s : State) (c : Nat) (ctx : CtxId) : UnitFlags × State :=
  match s.unitOf c ctx with
  | none => (noFlags, s)
  | some _ =>
    let r := s.takeNoted ctx
    (orFlags r.1 (s.ueReport c ctx).2, r.2)

/-- A root context's collection completes (R329) and the master decides its unit. -/
def State.collect (s : State) (c : Nat) (ctx : CtxId) (f : UnitFlags) : State :=
  if !s.isMaster then s
  else
    match s.unitOf c ctx with
    | none => s
    | some u => s.decideUnit u.1 u.2 f

/-! ### Module barrier contexts -/

/-- SYNC_MBCc register at an offset (Table 8.19). -/
def mbcReg (c off : Nat) : Nat := syncReg 48 (0x1000 + 0x20 * c + off)

/-- A module context's state. -/
def State.mbc (s : State) (c : Nat) : MbcSt := mapGet MbcSt.reset s.sy.mbcs c

/-- The state with a module context replaced. -/
def State.setMbc (s : State) (c : Nat) (b : MbcSt) : State :=
  { s with sy := { s.sy with mbcs := mapSet MbcSt.reset s.sy.mbcs c b } }

/-- Context, ROOT and ports of a module context. -/
def State.mbcCtx (s : State) (c : Nat) : CtxId := Fin.ofNat 64 (s.regField (mbcReg c 0) 53 48)
def State.mbcRoot (s : State) (c : Nat) : Bool := decide (s.regField (mbcReg c 8) 15 15 = 1)
def State.mbcKids (s : State) (c : Nat) : List Nat :=
  (List.range 8).filter fun p => (s.regField (mbcReg c 8) 7 0).testBit p
def State.mbcDies (s : State) (c : Nat) : List Nat :=
  (List.range 48).filter fun d => (s.regField (mbcReg c 0) 47 0).testBit d

/-- Whether a context's domain runs dynamically, so that the context acts with TIMED = 0 (R333). -/
def State.ctxDynamic (s : State) (ctx : CtxId) : Bool :=
  match s.slotOf ctx with
  | none => false
  | some d => decide ((s.dom d).dyn ≠ .none)

/-- Dies and child ports of a context that have not reported. -/
def State.mbcMissing (s : State) (c : Nat) : List Nat × List Nat :=
  let w := s.reg (mbcReg c 0x10)
  ((s.mbcDies c).filter fun d => !(w.getLsbD d), (s.mbcKids c).filter fun p => !(w.getLsbD (56 + p)))

/-- A phase of a context ends: EPOCH advances, STATE clears. -/
def State.mbcEnd (s : State) (c : Nat) : State :=
  let b := s.mbc c
  let s := s.setField (mbcReg c 0x18) 55 48 (s.regField (mbcReg c 0x18) 55 48 + 1)
  (s.setReg (mbcReg c 0x10) 0).setMbc c
    ⟨false, false, 0, if b.untimed then b.lastD else b.deadline, false, noFlags⟩

/-- A release passed on by a context (R291): to every child port and every die of DIE_MASK. -/
def State.mbcRelease (s : State) (c : Nat) : State :=
  let gen := BitVec.ofNat 8 (s.regField (mbcReg c 0) 61 54)
  let s := (s.mbcKids c).foldl (fun s p => s.send (.barRelease (Fin.ofNat 8 p) (Fin.ofNat 64 c) gen)) s
  let m := (s.mbcDies c).map fun d => BarMsg.release (Fin.ofNat 48 d) (Fin.ofNat 64 c)
  let s := { s with sy := { s.sy with msgs := s.sy.msgs ++ m } }
  (s.bump (syncReg 48 0x140) 1).mbcEnd c

/-- A report upward on PARENT_PORT (R291, R292). -/
def State.mbcUp (s : State) (c : Nat) (deadline : Option Nat) (f : UnitFlags) : State :=
  s.send (.barReport (Fin.ofNat 8 (s.regField (mbcReg c 8) 19 16)) (Fin.ofNat 64 c)
    (BitVec.ofNat 8 (s.regField (mbcReg c 0) 61 54)) (deadline.map (BitVec.ofNat 64)) f)

/-- A phase without check completes once everyone has reported, the update cores among them (R291,
R413). -/
def State.mbcTry (s : State) (c : Nat) : State :=
  let b := s.mbc c
  if !(b.isOpen && b.untimed) || b.reported || decide (s.mbcMissing c ≠ ([], [])) ||
      !(s.ueReport c (s.mbcCtx c)).1 then s
  else
    let r := s.unitNotes c (s.mbcCtx c)
    let f := orFlags b.flags r.1
    let s := r.2
    if s.mbcRoot c then (s.mbcRelease c).collect c (s.mbcCtx c) f
    else (s.setMbc c { b with reported := true, flags := f }).mbcUp c none f

/-- Whether a report can be recorded now: a timed report of a later phase waits for the check of the
open one, and one whose phase has been checked has no effect. -/
def State.mbcFits (s : State) (c : Nat) (deadline : Option Nat) : Bool :=
  let b := s.mbc c
  match deadline with
  | some t => !b.isOpen || b.untimed || decide (t ≤ b.deadline)
  | none => true

/-- A report recorded in STATE: of a die, or of a child port (R291, R634). -/
def State.mbcRecord (s : State) (c bit : Nat) (deadline : Option Nat) (f : UnitFlags) : State :=
  let b := s.mbc c
  let dl := if s.regField (mbcReg c 0) 62 62 = 1 ∧ !(s.ctxDynamic (s.mbcCtx c)) then deadline else none
  if (match dl with | some t => !b.untimed && decide (t ≤ b.lastD) | none => false) then s
  else
    let s := s.setReg (mbcReg c 0x10) (s.reg (mbcReg c 0x10) ||| BitVec.ofNat 64 (2 ^ bit))
    let b' : MbcSt :=
      { b with isOpen := true, untimed := b.untimed || decide (dl = none),
               deadline := if b.isOpen then b.deadline else dl.getD 0, flags := orFlags b.flags f }
    (s.setMbc c b').mbcTry c

/-- DIE_BARRIER_REPORT (R291, R293): the die's first report to the context reaches FD0. -/
def execDieBarrierReport (d : CdId) (c : Fin 64) (s : State) : Host.Outcome State Fault Refusal :=
  .next (
    match s.sy.msgs.find? fun m => match m with
        | .report d' c' _ _ => decide (d' = d ∧ c' = c)
        | _ => false with
    | some (.report d' c' dl f) =>
      if !s.on || !(s.mbcFits c.val dl) then s
      else
        let s := { s with sy := { s.sy with msgs := s.sy.msgs.erase (.report d' c' dl f) } }
        if s.regField (mbcReg c.val 0) 63 63 = 0 ∨ !((s.mbcDies c.val).contains d.val) then
          s.bump (syncReg 48 0x110) 1
        else s.mbcRecord c.val d.val dl f
    | _ => s)

/-- MODULE_BARRIER_REPORT (R291, R293): a child module's report from a port. -/
def execModuleBarrierReport (p : PortId) (c : Fin 64) (gen : BitVec 8) (deadline : Option (BitVec 64))
    (flags : UnitFlags) (s : State) : Host.Outcome State Fault Refusal :=
  .next (
    if !s.on then s
    else if s.regField (mbcReg c.val 0) 63 63 = 0 ∨ s.regField (mbcReg c.val 0) 61 54 ≠ gen.toNat ∨
        !((s.mbcKids c.val).contains p.val) then s.bump (syncReg 48 0x110) 1
    else if !(s.mbcFits c.val (deadline.map (·.toNat))) then
      s.wait (.moduleBarrierReport p c gen deadline flags)
    else s.mbcRecord c.val (56 + p.val) (deadline.map (·.toNat)) flags)

/-- MODULE_BARRIER_RELEASE (R291, R293): the parent's release, for the phase reported. -/
def execModuleBarrierRelease (p : PortId) (c : Fin 64) (gen : BitVec 8) (s : State) :
    Host.Outcome State Fault Refusal :=
  .next (
    if !s.on then s
    else if s.regField (mbcReg c.val 0) 63 63 = 0 ∨ s.regField (mbcReg c.val 0) 61 54 ≠ gen.toNat ∨
        s.mbcRoot c.val ∨ s.regField (mbcReg c.val 8) 19 16 ≠ p.val then s.bump (syncReg 48 0x110) 1
    else if !(s.mbc c.val).reported then s
    else s.mbcRelease c.val)

/-- DIE_BARRIER_RELEASE (R291, R293): FD0's release reaches a die and is applied to each of its up
counters that names the context and has reported; else it is dropped. -/
def execDieBarrierRelease (d : CdId) (c : Fin 64) (s : State) : Host.Outcome State Fault Refusal :=
  .next (
    if !s.on || !(s.sy.msgs.contains (.release d c)) then s
    else
      let s := { s with sy := { s.sy with msgs := s.sy.msgs.erase (.release d c) } }
      let hit := (List.range 32).filter fun n =>
        decide (s.regField (barReg d.val n 0) 63 63 = 1 ∧ s.barMode d.val n % 2 = 1 ∧
          s.regField (barReg d.val n 0) 52 47 = c.val) && (s.bar d.val n).reported
      if hit = [] then s.bump (barCnt d.val 0x808) 1
      else hit.foldl (fun s n => s.chorus d.val n) s)

/-- Whether a stream that a context collects from on a die has stopped on a fault (R326). -/
def State.dieFault (s : State) (c die : Nat) : Bool :=
  (List.range 32).any fun n =>
    decide (s.regField (barReg die n 0) 63 63 = 1 ∧ s.barMode die n % 2 = 1 ∧ s.regField (barReg die n 0) 52 47 = c) &&
    (List.range 12).any fun i => (s.barMask die n).testBit i && (s.tile (tileOf (die * 12 + i))).seq.fault

/-- MBC_TIMED_CHECK (R292): at the deadline plus MARGIN, dies and child ports that have not reported
are late, with FAULT for a stream of such a die that stopped on one (R326); the context reports upward what it has, or
at the root the collection completes. -/
def execMbcTimedCheck (c : Fin 64) (s : State) : Host.Outcome State Fault Refusal :=
  .next (
    let b := s.mbc c.val
    if !s.on || !b.isOpen || b.untimed || decide (s.ftc < b.deadline + s.regField (mbcReg c.val 8) 63 48)
    then s
    else
      let m := s.mbcMissing c.val
      let ctx := s.mbcCtx c.val
      let s := s.setField (mbcReg c.val 0x18) 47 0 (m.1.foldl (fun x d => x ||| 2 ^ d) 0)
      let s := s.setField (mbcReg c.val 0x18) 63 56 (m.2.foldl (fun x p => x ||| 2 ^ p) 0)
      let s := s.bump (syncReg 48 0x148) (m.1.length + m.2.length)
      let s := (m.1 ++ m.2.map (48 + ·)).foldl (fun (s : State) i =>
        s.raise { cls := .contained, code := 0x3001, die := 48, kind := 3, inst := c.val, ctx := ctx.val,
                  tile := none, location := b.deadline, step := 0, layer := 0, detail := i }) s
      let late : UnitFlags := ⟨[], m.1.any (s.dieFault c.val), false, decide (m ≠ ([], [])) || !(s.ueReport c.val ctx).1⟩
      let r := s.unitNotes c.val ctx
      let f := orFlags (orFlags b.flags r.1) late
      let s := r.2.mbcEnd c.val
      if s.mbcRoot c.val then s.collect c.val ctx f else s.mbcUp c.val (some b.deadline) f)

/-- SYNC_MBCc_CFG written by firmware (R290): the phase in progress is discarded. -/
def State.writeMbcCfg (s : State) (c : Nat) (v : Word) : State :=
  ((s.regStore none (mbcReg c 0) v).setReg (mbcReg c 0x10) 0).setMbc c MbcSt.reset

/-- SYNC_MBC_CFG_WRITE (R290). -/
def execSyncMbcCfgWrite (c : Fin 64) (v : Word) (s : State) : Host.Outcome State Fault Refusal :=
  .next (if s.on then s.writeMbcCfg c.val v else s)

end Sys2Proof.Machine
end

