-- ==== Sys2Proof/Machine/Sched.lean ====
section
/-!
DEFINITION. The sequencer's own words (R321 to R325, R329, R339 to R341) and hold requests and notices
(R334, R336).
-/

namespace Sys2Proof.Machine

/-! ### Planned ticks -/

/-- Whether a TSQ.HOLD passes: its schedule time has come, and no hold stands at it (R315, R323,
R335). -/
def State.holdPasses (s : State) (t : TileId) (target : Nat) : Bool :=
  let d := (s.tile t).seq.dom
  s.tileDynamic t ||
  (if (s.dom d).hold.active then decide (target < s.sched d.val) else decide (target ≤ s.sched d.val))

/-- TILE_TSQ_LATE after a word that was n ticks late (R323, R575). -/
def State.noteLate (s : State) (t : TileId) (n : Nat) : State :=
  let a := tileReg t 0x510
  let w := s.reg a
  s.setReg a (putBits (putBits w 63 32 (min (bits w 63 32 + 1) 0xFFFFFFFF)) 31 0
    (min (max (bits w 31 0) n) 0xFFFFFFFF))

/-- TSQ.HOLD (R315, R323). -/
def execTsqHold (t : TileId) (w : BitVec 120) (s : State) : Host.Outcome State Fault Refusal :=
  .next (s.seqWord t fun _ s =>
    if wbits w 119 40 ≠ 0 then s.seqFault t 1
    else
      let q := (s.tile t).seq
      let target := q.stepBase * 65536 + wbits w 39 0
      if s.tileDynamic t then s
      else if target < s.sched q.dom.val then s.noteLate t (s.sched q.dom.val - target)
      else if s.holdPasses t target then s
      else s.setSeq t { q with wait := .hold target })

/-- TSQ_HOLD_TARGET (R323): the target has come and no hold stands at it, or dynamic mode. -/
def execTsqHoldTarget (t : TileId) (s : State) : Host.Outcome State Fault Refusal :=
  .next (
    let q := (s.tile t).seq
    match q.wait with
    | .hold target =>
      if s.tileOn t && q.running && s.domLets t && s.holdPasses t target then
        s.setSeq t { q with wait := .none }
      else s
    | _ => s)

/-- TSQ.JOIN (Table 9.4). -/
def execTsqJoin (t : TileId) (w : BitVec 120) (s : State) : Host.Outcome State Fault Refusal :=
  .next (s.seqWord t fun _ s =>
    if wbits w 119 4 ≠ 0 then s.seqFault t 1
    else if s.joined t (wbits w 3 0) then s
    else s.setSeq t { (s.tile t).seq with wait := .join (wbits w 3 0) })

/-! ### Steps and slices -/

/-- Poisoned-page events of a context at its step boundary (R224): pages mapped SRO and without a
backing copy that hold a poisoned granule, each told once while it stays poisoned. -/
def State.tellPages (s : State) (ctx : CtxId) : State :=
  let bad (m : Mapping) : Bool :=
    let n := if m.big then 2 ^ 21 else 2 ^ 16
    s.poison.any fun e => decide (m.ga ≤ e.1 ∧ e.1 < m.ga + n)
  let pages := (s.xl.maps.filter fun m => decide (m.ctx = ctx) && m.sro && !m.backed && bad m).map (·.ga)
  let fresh := pages.filter fun g => !(s.xl.told.contains (ctx, g))
  let kept := s.xl.told.filter fun e => decide (e.1 ≠ ctx) || pages.contains e.2
  let s := { s with xl := { s.xl with told := kept ++ fresh.map fun g => (ctx, g) } }
  fresh.foldl (fun (s : State) g => s.raiseHome (gaDie g) .contained 0x2004 ctx.val g 0) s

/-- A slice hold that is due begins at a slice point or a step boundary (R340): an open-ended hold of
cause "tenant slice" whose B is the first frame boundary that is not earlier than a tick. -/
def State.takeSlice (s : State) (d : Fin 2) (f : Nat) : State :=
  let x := s.dom d
  if !x.slices then s
  else
    let s := s.setDom d { x with slices := false }
    (s.askHold d ⟨5, false, frameUp f, 0, none⟩).2

/-- Tiles that the job of a slot gave a stream. -/
def State.jobTiles (s : State) (d : Fin 2) : List TileId := (s.dom d).firsts.map fun e => tileOf e.1

/-- In a fallback, once every running tile of the job has reached the end of the step, static mode
resumes at the first frame boundary at or after this release plus HOLD_LEAD (R339). -/
def State.stepEndMet (s : State) (d : Fin 2) : State :=
  let x := s.dom d
  let waits (t : TileId) : Bool :=
    let q := (s.tile t).seq
    !q.running || decide (q.wait = .stepEnd)
  if x.dyn = .fallback ∧ x.static = none ∧ (s.jobTiles d).all waits then
    s.setDom d { x with static := some (frameUp (s.ftc + s.holdLead d.val)) }
  else s

/-- TSQ.NEXT (R325): the step ends; STEP and STEP_BASE advance and the stream goes on at the word
named. In a fallback the tile waits at the end of the step (R339). -/
def execTsqNext (t : TileId) (w : BitVec 120) (s : State) : Host.Outcome State Fault Refusal :=
  .next (s.seqWord t fun _ s =>
    if wbits w 119 48 ≠ 0 then s.seqFault t 1
    else
      let q := (s.tile t).seq
      let d := q.dom
      let base := q.stepBase + s.regField (domReg d.val 0) 23 0
      let wait := if (s.dom d).dyn = .fallback then SeqWait.stepEnd else .none
      let s := s.setSeq t { q with step := q.step + 1, stepBase := base,
                                   pc := BitVec.ofNat 48 (wbits w 47 0), wait := wait }
      let x := s.dom d
      let at_ : StepAt := ⟨q.step + 1, BitVec.ofNat 48 (wbits w 47 0), base⟩
      let words := mapSet [] x.stepWord t.val ((at_ :: mapGet [] x.stepWord t.val).take 3)
      let s := (s.setDom d { x with stepWord := words }).stepEndMet d
      (s.tellPages q.ctx).takeSlice d (base * 65536 + s.shift d.val))

/-- TSQ.MARK (R340, R341). -/
def execTsqMark (t : TileId) (w : BitVec 120) (s : State) : Host.Outcome State Fault Refusal :=
  .next (s.seqWord t fun _ s =>
    let k := wbits w 1 0
    if wbits w 119 2 ≠ 0 ∨ k = 3 then s.seqFault t 1
    else
      let q := (s.tile t).seq
      let s := s.setSeq t { q with mark := k }
      if k = 0 then s.takeSlice q.dom s.ftc
      else s.setDom q.dom { s.dom q.dom with window := decide (k = 1) })

/-- TSQ.REQ (R339): a dynamic fallback is requested when the word is not zero. -/
def execTsqReq (t : TileId) (w : BitVec 120) (s : State) : Host.Outcome State Fault Refusal :=
  .next (s.seqWord t fun _ s =>
    if wbits w 23 22 ≠ 0 ∨ wbits w 119 24 ≠ 0 ∨ wbits w 21 0 % 8 ≠ 0 then s.seqFault t 1
    else
      let d := (s.tile t).seq.dom
      if (s.bytesAt (tmGa t (wbits w 21 0)) 8).all (· = 0) ∨ (s.dom d).dyn = .fallback then s
      else s.requestHold d .fallback 0 false)

/-! ### Units and layers -/

/-- The output-digest log entry at TSQ.LAYER and TSQ.UEND (R593), when any element has been added. -/
def State.digestLog (s : State) (t : TileId) : State :=
  let q := (s.tile t).seq
  if q.odigElems = 0 then s
  else
    let cfg := s.reg (tileReg t 0x600)
    let lo := tileReg t 0x608
    let n := 2 ^ (bits cfg 47 44 + 8)
    let ga := bits cfg 39 0 + 32 * (q.odigPos % n)
    let partner := if cfg.getLsbD 62 then bits cfg 57 48 else 0xFFFF
    let entry := leBytes 4 q.step.toNat ++ leBytes 4 q.layer ++ leBytes 8 (s.reg lo).toNat ++
      leBytes 8 (s.reg (lo + 8)).toNat ++ leBytes 2 t.val ++ leBytes 2 partner ++ leBytes 4 q.odigElems
    let s := if gaRegion ga = 1 ∧ s.gaCause (tileDie t) ga = none then s.putLines ga entry else s
    ((s.setReg lo 0).setReg (lo + 8) 0).setSeq t { q with odigElems := 0, odigPos := (q.odigPos + 1) % n }

/-- TSQ.UNIT (R329): a unit begins; its flags are gathered from here. -/
def execTsqUnit (t : TileId) (w : BitVec 120) (s : State) : Host.Outcome State Fault Refusal :=
  .next (s.seqWord t fun _ s =>
    if wbits w 119 16 ≠ 0 then s.seqFault t 1
    else
      let q := (s.tile t).seq
      let u := wbits w 15 0
      let m : UnitMark := ⟨u, q.pc, q.step, q.stepBase⟩
      s.setSeq t { q with unit := some u, flags := [], marks := m :: q.marks.filter (·.unit ≠ u) })

/-- TSQ.UEND (R329): the unit's flags go with the arrival at the named barrier. -/
def execTsqUend (t : TileId) (w : BitVec 120) (s : State) : Host.Outcome State Fault Refusal :=
  .next (s.seqWord t fun _ s =>
    if wbits w 47 21 ≠ 0 ∨ wbits w 71 56 ≠ 0 ∨ wbits w 119 112 ≠ 0 then s.seqFault t 1
    else
      let s := s.digestLog t
      let q := (s.tile t).seq
      let f := q.report
      let s := s.setSeq t { q with unit := none, flags := [], fault := false, late := false }
      s.seqArrive t (wbits w 20 16) (wbits w 55 48) (s.seqDeadline t (wbits w 111 72)) (some f))

/-- TSQ.LAYER: the layer of the words that follow, with the widenings in force for it (R332). -/
def execTsqLayer (t : TileId) (w : BitVec 120) (s : State) : Host.Outcome State Fault Refusal :=
  .next (s.seqWord t fun _ s =>
    if wbits w 119 32 ≠ 0 then s.seqFault t 1
    else
      let s := s.digestLog t
      let q := (s.tile t).seq
      let l := wbits w 31 0
      let v := ((s.dom q.dom).widens.find? (·.layer = l)).getD ⟨l, 0, false, false⟩
      s.setSeq t { q with layer := l, arrayIdx := 0, wideA := v.a, wideR := v.r, wideE := v.e })

/-! ### Hold requests and notices -/

/-- HOLD_REQUEST (R334, Table 9.6). A fallback's request ends the same way as TSQ.REQ's. -/
def execHoldRequest (d : Fin 2) (cause : HoldCause) (frames : BitVec 32) (atStep : Bool) (s : State) :
    Host.Outcome State Fault Refusal :=
  .next (if s.on then s.requestHold d cause frames.toNat atStep else s)

/-- HOLD_NOTICE (R334, R336): a stale notice is dropped and counted; a notice after its B holds at the
next frame boundary and raises record 0x3002. -/
def execHoldNotice (dom gen : BitVec 8) (b : BitVec 64) (frames : BitVec 32) (cause : HoldCause)
    (s : State) : Host.Outcome State Fault Refusal :=
  .next (
    if !s.on then s
    else
      match s.slotById dom.toNat with
      | none => s
      | some d =>
        let h := (s.dom d).hold
        let now := s.regField (domReg d.val 16) 61 54
        let pending := !h.active && !h.reqs.isEmpty
        if !(s.dom d).started then s
        else if gen.toNat ≠ nextGen now ∧ !(pending && decide (gen.toNat = now)) then s.fabBump 0x120 1
        else
          let late := decide (b.toNat < s.ftc)
          let s := if late then
              s.raise { cls := .contained, code := 0x3002, die := 48, kind := 12, inst := dom.toNat, ctx := 0,
                        tile := none, location := b.toNat, step := s.jobStep d, layer := 0, detail := 0 }
            else s
          let at_ := if late then frameUp s.ftc else b.toNat
          (s.askHold d ⟨causeBit cause, false, at_, frames.toNat, none⟩).2.setDomField d.val 16 61 54
            gen.toNat)

end Sys2Proof.Machine
end

