-- ==== Sys2Proof/Machine/Link.lean ====
section
/-!
DEFINITION. Links: flits with retry (R351 to R356), credits (R361), port states, training and sparing
(R348, R357 to R360, R425 to R430, R607 to R612), and the routing of dynamic packets (R362 to R368).
-/

namespace Sys2Proof.Machine

/-- A hot-fence hold requested for every started domain (R360, R579). -/
def State.hotHold (s : State) : State := s.holdAll .hotFence

/-- A flit passes through now (R553). -/
def State.forwarded (s : State) (p : Nat) : State :=
  ({ s with pwr := { s.pwr with fwdAt := s.ftc } } : State).portBump p 0x110 1

/-- A dynamic flit that passes through (R364): its first flit's header chooses the way, which the
packet's other flits follow. -/
def State.forward (s : State) (p : Nat) (f : Flit) : State :=
  let key := p * 8 + f.hdr.vc.toNat
  let bs := payBytes f.pay
  let out := if f.hdr.first then s.nextPort (field bs 2 2 % 4096) (field bs 0 2 % 4096) (field bs 5 1 / 2 % 8)
    else (match mapGet 0 s.fab.way key with | 0 => none | k + 1 => some k)
  match out with
  | none => s
  | some o =>
    let way := if f.hdr.last then 0 else o + 1
    let s := { s with fab := { s.fab with way := mapSet 0 s.fab.way key way } }
    let vc := s.vcOut f.hdr.vc.toNat (some p) o
    let pay := if f.hdr.first then
        let flags := field bs 5 1
        let flags := flags - flags / 16 % 2 * 16 + (if vc % 2 = 1 ∧ vc < 4 then 16 else 0)
        payOf (bs.take 5 ++ leBytes 1 flags ++ bs.drop 6)
      else f.pay
    (s.forwarded p).linkSend o ⟨{ f.hdr with vc := BitVec.ofNat 3 vc }, pay, false⟩

/-- A flit accepted for this module, kept until the unit it is for takes it. -/
def State.keepRx (s : State) (p : Nat) (f : Flit) : State :=
  { s with fab := { s.fab with rx := s.fab.rx ++ [(p, f)] } }

/-- An accepted flit (R364, R367, R373, R380): delivered here or passed on. -/
def State.deliver (s : State) (p : Nat) (f : Flit) : State :=
  match f.hdr.kind.toNat with
  | 1 => if f.hdr.tag.toNat % 4096 = s.selfIndex.toNat then s.keepRx p f else (s.forward p f).creditBack p f
  | 2 =>
    let e := mapGet 0 s.fab.streams (p / 2 * 16384 + f.hdr.tag.toNat % 16384)
    let f : Flit := { f with fixed_ := true }
    (match e / 2 ^ 13 with
     | 1 | 2 | 4 => s.keepRx p f
     | 3 => ((s.forwarded p).linkSend (e / 2 ^ 10 % 8) f).creditBack p f
     | 5 => ((s.forwarded p).linkSend (e / 2 ^ 10 % 8) f).keepRx p f
     | _ => (s.portBump p 0x158 1).creditBack p f)
  | 3 | 4 | 5 => s.keepRx p f
  | _ => s

/-- FLIT_RECEIVE (R354, R355): an idle flit is not sequenced; a flit with a good CRC and the SEQ
expected is accepted; any other is dropped, with one NAK until that SEQ arrives or 64 ft pass. -/
def execFlitReceive (l : LinkId) (h : FlitHdr) (payload : BitVec 1952) (crcOk fecOk : Bool) (s : State) :
    Host.Outcome State Fault Refusal :=
  .next (
    if !s.on || decide (s.linkState l.val ≠ 4) then s
    else
      let x := s.link l.val
      if fecOk && crcOk && decide (h.kind = 0) then s
      else if fecOk && crcOk && decide (h.seq.toNat = x.expect) then
        let n := x.since + 1
        let y : LinkSt := { x with expect := (x.expect + 1) % 4096, nakAt := none, since := n }
        let s := (s.setLink l.val y).portBump l.val 0x108 1
        let s := if 64 ≤ n then s.sendAck l.val false else s
        if l.val < 8 then s.deliver l.val ⟨h, payload, false⟩ else s
      else
        let s := if !fecOk then s.portBump l.val 0x120 1 else if !crcOk then s.portBump l.val 0x128 1 else s
        if x.nakAt.any fun t => decide (s.ftc < t + 64) then s else s.sendAck l.val true)

/-- ACK_SEND (R354). -/
def execAckSend (l : LinkId) (s : State) : Host.Outcome State Fault Refusal :=
  .next (if s.on && decide (s.linkState l.val = 4) then s.sendAck l.val false else s)

/-! ### Port states -/

/-- A link takes a state; the capability map shows it (Table 14.23). -/
def State.setLinkState (s : State) (l v : Nat) : State :=
  if s.linkState l = v then s else (s.setField (linkReg l 8) 63 60 v).capBump

/-- Mailboxes whose port is not ACTIVE move to the other one if that is (R449): fetches under way are
dropped and made again at the next doorbell. -/
def State.mbxSettle (s : State) : State :=
  (List.range 8).foldl (fun s m =>
    let a (f : Nat) : Nat := regGa (48 + f) (0x30200 + 16 * m)
    let p := s.mbPort m
    let o : Fin 2 := if p = 0 then 1 else 0
    if s.regField (a 0) 63 63 = 1 ∧ !(s.cclActive p) ∧ s.cclActive o then
      let s := (s.setField (a 0) 62 62 o.val).setField (a 1) 62 62 o.val
      let mine (r : OutReq) : Bool := match r.who with
        | .slot b _ => decide (b.val = m)
        | .command b _ _ _ => decide (b.val = m)
        | _ => false
      let s := { s with fab := { s.fab with creqs := s.fab.creqs.filter fun r => !(mine r) } }
      let b := mapGet MboxSt.reset s.mboxes m
      { s with mboxes := mapSet MboxSt.reset s.mboxes m { b with fetch := false } }
    else s) s

/-- A port goes to FENCED (R348, R357, R426): record 0x4002, the fence's own record for a torus port,
and a hot-fence hold (R360). -/
def State.fencePort (s : State) (l : Nat) : State :=
  let s := (s.setLinkState l 6).raisePort l .contained 0x4002 0 0 0
  if l < 8 then (s.raiseFence 0x8001 5 l 0 0).hotHold else s.mbxSettle

/-- Width of a torus direction from its good lanes (R348). -/
def widthOf (good : BitVec 64) : Nat :=
  let n := ((List.range 64).filter fun k => good.getLsbD k).length
  if 64 ≤ n then 64 else if 56 ≤ n then 56 else if 48 ≤ n then 48 else if 32 ≤ n then 32 else 0

/-- Least width accepted, by MINW (Table 10.16). -/
def minWidth (code : Nat) : Nat := match code with | 0 => 32 | 1 => 48 | 2 => 56 | _ => 64

/-- WIDTH of a companion link from the lanes good in both directions (R426, Table 12.13). -/
def cclWidth (good : Nat) : Nat :=
  if good % 2 ^ 16 = 2 ^ 16 - 1 then 3
  else if good % 2 ^ 8 = 2 ^ 8 - 1 then 1
  else if good / 2 ^ 8 % 2 ^ 8 = 2 ^ 8 - 1 then 2 else 0

/-- The neighbour that R20 gives for a port: module index and port. `none` where the port has none. -/
def State.neighbour (s : State) (p : Nat) : Option (Nat × Nat) :=
  let r := regGa 48 0x2000
  if 6 ≤ p ∧ s.regField r 63 62 ≠ 2 then none
  else
    let d := s.portDim p
    let n := s.torusSize d.1
    let self := s.selfIndex.toNat
    let c := coord self d.1
    let c' := if d.2 then (c + 1) % n else (c + n - 1) % n
    if n < 2 then none
    else some (self - c * 16 ^ d.1 + c' * 16 ^ d.1, if p % 2 = 0 then p + 1 else p - 1)

/-- Whether the partner that LANE named is the expected neighbour (R611). Ports E0 and E1 outside a
doubled dimension have no neighbour that R20 gives; nor has any before MASTER_SET. -/
def State.partnerOk (s : State) (l : Nat) : Bool :=
  let w := s.reg (linkReg l 8)
  if 8 ≤ l ∨ s.regField (regGa 48 0x8010) 53 52 = 0 then true
  else if bits w 36 25 = s.selfIndex.toNat then false
  else
    match s.neighbour l with
    | none => decide (6 ≤ l)
    | some n =>
      decide (bits w 36 25 = n.1) && (decide (bits w 24 22 = n.2) || decide (s.torusSize (s.portDim l).1 = 2))

/-- A link takes its widths from its good lanes and the partner's (R348, R358, R426): ACTIVE, or FENCED
when too few are left. -/
def State.becomeActive (s : State) (l : Nat) : State :=
  let x := s.link l
  let rx := x.good.getD 0
  let tx := x.partner.getD 0
  let a := linkReg l 8
  if l < 8 then
    let s := (s.setReg (linkReg l 0x10) rx).setReg (linkReg l 0x18) tx
    let m := minWidth (s.regField (linkReg l 0) 5 4)
    let r := widthOf rx
    let t := widthOf tx
    let s := if s.regField a 51 45 ≠ r ∨ s.regField a 58 52 ≠ t then s.capBump else s
    let s := (s.setField a 51 45 r).setField a 58 52 t
    if r < m ∨ t < m ∨ !(s.partnerOk l) then s.fencePort l
    else
      let s := (s.setLinkState l 4).pump l
      if r < x.planned ∨ t < x.planned then s.hotHold else s
  else
    let g := (rx &&& tx).toNat % 2 ^ 16
    let w := cclWidth g
    let s := (s.setField a 48 33 g).setField a 58 57 w
    if w = 0 then s.fencePort l else ((s.setLinkState l 4).pump l).mbxSettle

/-- ALIGN ends once this end's lanes are settled and the partner's are known. -/
def State.tryActive (s : State) (l : Nat) : State :=
  if s.linkState l = 3 ∧ (s.link l).good.isSome ∧ (s.link l).partner.isSome then s.becomeActive l else s

/-- LANE (R358, R611): the partner's good lanes, and for a torus port who it is. -/
def execLane (l : LinkId) (lgen : BitVec 8) (m : BitVec 112) (s : State) :
    Host.Outcome State Fault Refusal :=
  .next (
    let k := l.val
    if !s.on || !(decide (s.linkState k = 3 ∨ s.linkState k = 4 ∨ s.linkState k = 5)) then s
    else if lgen.toNat ≠ s.linkGen k then s.portBump k 0x150 1
    else
      let tx : BitVec 64 := BitVec.ofNat 64 (wbits m 96 33)
      let s := s.setLink k { s.link k with partner := some tx }
      let a := linkReg k 8
      let s := if k < 8 then
          (((s.setField a 36 25 (wbits m 111 100)).setField a 24 22 (wbits m 99 97)).setReg (linkReg k 0x18)
            tx)
        else s
      if s.linkState k = 4 then (if s.partnerOk k then s else s.fencePort k) else s.tryActive k)

/-- PORT_DETECT (R357, R608, R612, R616): a partner's signal moves the port to TRAIN, when a cable is
seated, EN = 1 and REFCLK has been present. -/
def execPortDetect (l : LinkId) (s : State) : Host.Outcome State Fault Refusal :=
  .next (
    if s.on && decide (s.linkState l.val = 1) && (s.link l.val).present && s.time.refBoot &&
        decide (s.regField (linkReg l.val 0) 0 0 = 1) then s.setLinkState l.val 2
    else s)

/-- TRAIN_COMPLETE (R357, R358, R427): the higher common rate; a failure leaves the port in TRAIN, the
third fences it. `partnerRates` has bit 1 for 224 or generation 3, bit 0 for 112 or generation 2. -/
def execTrainComplete (l : LinkId) (ok : Bool) (partnerRates : BitVec 2) (good : BitVec 64) (s : State) :
    Host.Outcome State Fault Refusal :=
  .next (
    let k := l.val
    if !s.on || decide (s.linkState k ≠ 2) then s
    else
      let x := s.link k
      let r := s.regField (linkReg k 0) 7 6
      let hi := partnerRates.getLsbD 1 && decide (r ≠ 2)
      let lo := partnerRates.getLsbD 0 && decide (r ≠ 1)
      if ok && (hi || lo) then
        let s := s.setField (linkReg k 8) 59 59 (if hi then 1 else 0)
        let bad := x.bad ||| ~~~good
        (s.setLink k { x with fails := 0, bad := bad, good := none, partner := none }).setLinkState k 3
      else
        let s := s.setLink k { x with fails := x.fails + 1 }
        if 3 ≤ x.fails + 1 then (s.setLink k { s.link k with fails := 0 }).fencePort k else s)

/-- ALIGN_COMPLETE (R357, R358): this end's good receive lanes declared in a LANE message; a lane that
fails deskew is bad (R359). -/
def execAlignComplete (l : LinkId) (good : BitVec 64) (s : State) : Host.Outcome State Fault Refusal :=
  .next (
    let k := l.val
    if !s.on || decide (s.linkState k ≠ 3) then s
    else
      let x := s.link k
      let bad := x.bad ||| ~~~good
      ((s.setLink k { x with bad := bad, good := some (~~~bad) }).sendLane k).tryActive k)

/-- A lane becomes bad (R359): counted and reported, and its fence of grain 4. -/
def State.laneLost (s : State) (l k : Nat) : State :=
  let x := s.link l
  let bit : BitVec 64 := 1#64 <<< k
  let s := s.setLink l { x with bad := x.bad ||| bit, good := x.good.map fun g => g &&& ~~~bit }
  let s := if l < 8 then s.setReg (linkReg l 0x10) (s.reg (linkReg l 0x10) &&& ~~~bit) else
    s.setField (linkReg l 8) (33 + k % 16) (33 + k % 16) 0
  let s := ((s.portBump l 0x148 1).capBump).raisePort l .corrected 0x4001 0 0 k
  if l < 8 then s.raiseFence 0x8001 4 l 1 k else s

/-- A port goes to RETRAIN (R355, R359). -/
def State.toRetrain (s : State) (l : Nat) : State :=
  let s := (s.setLinkState l 5).portBump l 0x140 1
  if l < 8 then s else s.mbxSettle

/-- LANE_BAD (R359). -/
def execLaneBad (l : LinkId) (k : Fin 64) (_cause : LaneCause) (s : State) :
    Host.Outcome State Fault Refusal :=
  .next (
    if s.on && decide (s.linkState l.val = 4) && decide (l.val < 8 ∨ k.val < 16) &&
        !((s.link l.val).bad.getLsbD k.val) then
      (s.laneLost l.val k.val).toRetrain l.val
    else s)

/-- RETRAIN_COMPLETE (R356, R357): LGEN advances and the flits held go again once the partner's first
ACK names where; a failure falls back to a full training. -/
def execRetrainComplete (l : LinkId) (ok : Bool) (s : State) : Host.Outcome State Fault Refusal :=
  .next (
    let k := l.val
    if !s.on || decide (s.linkState k ≠ 5) then s
    else if !ok then s.setLinkState k 2
    else
      let s := s.setField (linkReg k 8) (genHi k) (genHi k - 7) (nextGen (s.linkGen k))
      let s := s.setLink k { s.link k with resync := true, againN := 0 }
      let s := s.becomeActive k
      if s.linkState k = 4 then s.sendAck k false else s)

/-- CABLE_PRESENT_CHANGE (R608, R612): with no cable the port stays in DETECT; the lanes of an ACTIVE
port are handled as lost. -/
def execCablePresentChange (l : LinkId) (present : Bool) (s : State) : Host.Outcome State Fault Refusal :=
  .next (
    let k := l.val
    let st := s.linkState k
    let s := s.setLink k { s.link k with present := present }
    if !s.on || present || decide (st = 0 ∨ st = 6 ∨ st = 1) then s
    else
      let lost := if st = 4 then
          (List.range (if k < 8 then 64 else 16)).filter fun i => ((s.link k).good.getD 0).getLsbD i
        else []
      let s := lost.foldl (fun s i => s.laneLost k i) s
      let s := s.setLinkState k 1
      if k < 8 then s else s.mbxSettle)

/-- Full training requested (R357, R359, Tables 10.16 and 12.12): bad lanes are cleared. -/
def State.trainPort (s : State) (l : Nat) : State :=
  let x := s.link l
  let s := s.setLink l { x with bad := 0, good := none, partner := none, fails := 0 }
  if s.regField (linkReg l 0) 0 0 = 0 then s.setLinkState l 0
  else s.setLinkState l (if x.present then 2 else 1)

/-- PORT_TRAIN_REQUEST. -/
def execPortTrainRequest (l : LinkId) (s : State) : Host.Outcome State Fault Refusal :=
  .next (if s.on then s.trainPort l.val else s)

/-! ### Acknowledgements and credits -/

/-- Flits sent again from a SEQ onward (R355, R356). -/
def State.sendAgain (s : State) (l : Nat) : State :=
  let fs := (s.link l).retry
  let s := s.portBump l 0x138 fs.length
  fs.foldl (fun s f => s.send (.flit (Fin.ofNat 10 l) f.hdr f.pay)) s

/-- ACK (R354 to R356): flits below the SEQ named are released; a NAK sends the others again, and the
port goes to RETRAIN when one SEQ has been sent again 8 times. A SEQ that lies outside what has been
sent releases nothing. -/
def execAck (l : LinkId) (lgen : BitVec 8) (m : BitVec 112) (s : State) : Host.Outcome State Fault Refusal :=
  .next (
    let k := l.val
    if !s.on || decide (s.linkState k ≠ 4) then s
    else if lgen.toNat ≠ s.linkGen k then s.portBump k 0x150 1
    else
      let x := s.link k
      let n := wbits m 111 100
      let unacked := x.retry.length
      let first := (x.next + 4096 - unacked) % 4096
      let gone := (n + 4096 - first) % 4096
      if unacked < gone then s
      else
        let y : LinkSt := { x with retry := x.retry.drop gone, againN := if gone = 0 then x.againN else 0 }
        let s := s.setLink k y
        let nak := decide (wbits m 99 99 = 1)
        if y.retry = [] ∨ !(nak || x.resync) then (s.setLink k { y with resync := false }).pump k
        else if x.resync then ((s.setLink k { y with resync := false }).sendAgain k).pump k
        else
          let times := if y.againSq = n then y.againN else 0
          if 8 ≤ times then s.toRetrain k
          else ((s.setLink k { y with againSq := n, againN := times + 1 }).sendAgain k).pump k)

/-- CREDIT (R352, R361): credits of the six VCs and of the static buffer return. A companion link has no
such message (R429). -/
def execCredit (l : LinkId) (lgen : BitVec 8) (m : BitVec 112) (s : State) :
    Host.Outcome State Fault Refusal :=
  .next (
    let k := l.val
    if !s.on || decide (s.linkState k ≠ 4) || decide (8 ≤ k) then s
    else if lgen.toNat ≠ s.linkGen k then s.portBump k 0x150 1
    else
      let x := s.link k
      let add := (List.range 6).map (fun v => wbits m (71 + 8 * v) (64 + 8 * v)) ++ [wbits m 63 56]
      (s.setLink k { x with credits := (x.credits.zip add).map fun c => c.1 + c.2 }).pump k)

/-! ### Power states -/

/-- PSTATE of a compute die and of its tiles (Tables 15.13 and 15.14). -/
def State.setDiePs (s : State) (d v : Nat) : State :=
  (List.range 12).foldl (fun s i => s.setField (regGa d (0x130208 + 0x10 * i)) 63 61 v)
    (s.setField (regGa d 0x130100) 63 61 v)

/-- Compute dies and ports come back from PS5, or the dies from PS4 (R551): their storage reads as zero. -/
def State.leaveDeep (s : State) : State :=
  if s.pwr.ps = 0 then s
  else
    let five := decide (s.pwr.ps = 5)
    let s : State := { s with pwr := { s.pwr with ps := 0 } }
    let s := (List.range 48).foldl (fun s d =>
      let s := s.bump (regGa d 0x130430) 1
      s.setDiePs d 0) s
    if five then
      (List.range 10).foldl (fun s l => if s.regField (linkReg l 0) 0 0 = 1 then s.setLinkState l 1 else s) s
    else s

end Sys2Proof.Machine
end

