-- ==== Sys2Proof/Machine/MbxBase.lean ====
section
/-!
DEFINITION. Mailboxes: rings, completions and announcements (R444 to R448, R489), and what every mailbox
command goes through (R485 to R493).
-/

namespace Sys2Proof.Machine

/-! ### Registers -/

/-- A register of FD0 and FD1 that holds the same value on both (R450, R511), set on both (DEDUCED, log entry 38). -/
def State.setBoth (s : State) (off hi lo v : Nat) : State :=
  (s.setField (regGa 48 off) hi lo v).setField (regGa 49 off) hi lo v

/-- A counter that FD0 and FD1 hold alike, advanced. -/
def State.bumpBoth (s : State) (off n : Nat) : State := (s.bump (regGa 48 off) n).bump (regGa 49 off) n

/-- An MBX_ counter (Table 14.19). -/
def State.mbxBump (s : State) (off : Nat) : State := s.bumpBoth (0x50000 + off) 1

/-- Fields of CCL_MBm_SQ and CCL_MBm_CQ (Table 12.15). -/
def sqOff (m : Nat) : Nat := 0x30200 + 16 * m
def cqOff (m : Nat) : Nat := 0x30208 + 16 * m
def State.ringsOn (s : State) (m : Nat) : Bool := decide (s.regField (regGa 48 (sqOff m)) 63 63 = 1)
def State.ringK (s : State) (m : Nat) : Nat := s.regField (regGa 48 (sqOff m)) 11 8
def State.ringLen (s : State) (m : Nat) : Nat := 2 ^ s.ringK m
def State.sqBase (s : State) (m : Nat) : Nat := s.regField (regGa 48 (sqOff m)) 51 12 * 4096
def State.cqBase (s : State) (m : Nat) : Nat := s.regField (regGa 48 (cqOff m)) 51 12 * 4096

/-- A mailbox beyond its registers. -/
def State.mbox (s : State) (m : Nat) : MboxSt := mapGet MboxSt.reset s.mboxes m

/-- The state with a mailbox replaced. -/
def State.setMbox (s : State) (m : Nat) (b : MboxSt) : State :=
  { s with mboxes := mapSet MboxSt.reset s.mboxes m b }

/-- Context that a mailbox's commands belong to (Table 14.5). -/
def State.mboxCtx (s : State) (m : Nat) : CtxId := if m = 0 ∨ 8 ≤ m then 0 else ((s.mbox m).ctx).getD 0

/-! ### Completions -/

/-- Lap parity of a ring position (R446): the first lap has parity 1. -/
def lapParity (n pos : Nat) : Nat := if pos / n % 2 = 0 then 1 else 0

/-- The interrupt of a mailbox's completions not announced (R448). -/
def State.mbxAnnounce (s : State) (m : Nat) : State :=
  let a := s.reg (regGa 48 (cqOff m))
  (s.interrupt (s.mbxPort m) 1 (s.mboxCtx m).val (bits a 11 1)).setMbox m { s.mbox m with unann := 0 }

/-- A completion written into the next slot (R447, Table 12.10). -/
def State.putDone (s : State) (m : Nat) (bytes : List Byte) : State :=
  let b := s.mbox m
  let n := s.ringLen m
  let s := s.send (.cclWrite (s.mbxPort m) (BitVec.ofNat 52 (s.cqBase m + 32 * (b.cqTail % n)))
    (bytes ++ leBytes 1 (lapParity n b.cqTail)))
  let s := s.setMbox m { b with cqTail := b.cqTail + 1, unann := b.unann + 1,
                                oldest := if b.unann = 0 then s.ftc else b.oldest }
  let k := s.imodN m
  if k ≠ 0 ∧ k ≤ (s.mbox m).unann then s.mbxAnnounce m else s

/-- Whether the completion ring has a free slot (R447). -/
def State.doneRoom (s : State) (m : Nat) : Bool :=
  let b := s.mbox m
  decide (b.cqTail - b.cqHead < s.ringLen m)

/-- A completion of a ring mailbox: written, or held while the ring is full; without rings it goes
nowhere. -/
def State.mbxDone (s : State) (m : Nat) (bytes : List Byte) : State :=
  if !(s.ringsOn m) then s
  else if (s.mbox m).held.isEmpty && s.doneRoom m then s.putDone m bytes
  else s.setMbox m { s.mbox m with held := (s.mbox m).held ++ [⟨bytes⟩] }

/-- Held completions written as far as the ring has room. -/
def State.flushDone : Nat → State → Nat → State
  | 0, s, _ => s
  | fuel + 1, s, m =>
    match (s.mbox m).held with
    | [] => s
    | h :: rest =>
      if s.doneRoom m then State.flushDone fuel ((s.putDone m h.bytes).setMbox m
        { (s.putDone m h.bytes).mbox m with held := rest }) m
      else s

/-- The next slot fetched, when rings are on, the port is up, the ring of completions has room and the
recorded tail lies ahead (R447). -/
def State.fetchNext (s : State) (m : Fin 8) : State :=
  let b := s.mbox m.val
  let n := s.ringLen m.val
  if !(s.ringsOn m.val) || b.fetch || !b.held.isEmpty || !(s.doneRoom m.val) || decide (b.sqHead % n = b.sqTail) ||
      !(s.cclActive (s.mbxPort m.val)) || s.pwr.vacant then s
  else
    (s.setMbox m.val { b with fetch := true }).cclAsk (s.mbxPort m.val) (.slot m b.sqHead)
      (BitVec.ofNat 52 (s.sqBase m.val + 32 * (b.sqHead % n))) 32

/-! ### Headers and sessions -/

/-- Bytes of a header (Table 14.6). -/
def mbxHdrBytes (h : MbxHdr) (code : Nat) : List Byte :=
  leBytes 2 code ++ leBytes 1 h.major.toNat ++ leBytes 1 h.minor.toNat ++ leBytes 2 h.seq.toNat ++
  leBytes 1 h.seqGen.toNat ++ leBytes 1 h.flags.toNat ++ leBytes 2 h.plen.toNat ++ leBytes 1 h.ctx.toNat ++
  leBytes 1 h.mbx.toNat ++ leBytes 1 h.status.toNat ++ leBytes 1 h.state.toNat ++
  leBytes 2 (h.reserved.toNat % 2 ^ 16) ++ leBytes 8 h.serial.toNat ++ leBytes 8 h.session.toNat ++
  leBytes 8 h.counter.toNat ++ leBytes 1 h.owner.toNat ++ leBytes 23 (h.reserved.toNat / 2 ^ 16)

/-- A mailbox's session (8 is MBXM). -/
def State.session (s : State) (m : Nat) : Session := mapGet Session.reset s.fw.sessions m

/-- The state with a session replaced. -/
def State.setSession (s : State) (m : Nat) (x : Session) : State :=
  { s with fw := { s.fw with sessions := mapSet Session.reset s.fw.sessions m x } }

/-- Whether a job is loaded. -/
def State.anyJob (s : State) : Bool := (s.dom 0).loaded || (s.dom 1).loaded

/-- A session ends (R497); with the last one of MBX0 and MBXM and no job loaded the module is LOCKED
(Table 14.4). -/
def State.endSession (s : State) (m : Nat) : State :=
  let s := s.setSession m { s.session m with live := false }
  if !(s.session 0).live && !(s.session 8).live && !s.anyJob && decide (4 ≤ s.modState ∧ s.modState ≤ 6) then
    s.toState 3
  else s

/-- Whether mailbox firmware runs (R483). -/
def State.fwOn (s : State) : Bool := s.on && s.fw.images.isSome && decide (3 ≤ s.modState)

/-! ### Answers -/

/-- A command's completion (R485, R487, R489): on a ring mailbox the response payload goes to RSP_ADDR, cut
to RSP_LEN, and the completion into its ring; on MBXM both go in a datagram, kept for a retransmission. -/
def State.complete (s : State) (c : MbxCmd) (code status : Nat) (result resp : List Byte) : State :=
  let m := c.mb.val
  let s := s.mbxBump 0x100
  let s := if status = 3 then s.mbxBump 0x110 else s
  let s := if status = 8 then s.mbxBump 0x118 else s
  let result := if status = 3 then leBytes 1 s.modState else result
  let gen := (s.session m).gen
  if m < 8 then
    let out := resp.take c.rspLen.toNat
    let s := if out = [] then s else s.send (.cclWrite (s.mbxPort m) c.rspAddr out)
    s.mbxDone m (leBytes 2 c.hdr.seq.toNat ++ leBytes 1 gen ++ leBytes 1 status ++ leBytes 4 out.length ++
      leBytes 2 ((s.mbox m).sqHead % s.ringLen m) ++ leBytes 1 s.modState ++ slice result 0 20)
  else
    let h : MbxHdr :=
      { c.hdr with flags := (c.hdr.flags &&& 0xFC) ||| 1, plen := BitVec.ofNat 16 (20 + resp.length),
                   seqGen := BitVec.ofNat 8 gen, status := BitVec.ofNat 8 status, state := BitVec.ofNat 8 s.modState }
    let bytes := mbxHdrBytes h code ++ slice result 0 20 ++ resp
    let s := s.send (.datagram c.via c.srcIp c.srcPort bytes)
    { s with fw := { s.fw with mLast := some (c, bytes) } }

/-- What a command's own part answers: a completion with status, RESULT and response payload; that it
completes later, once something has come about; that it must wait, for what the state answered has asked for;
or that its completion is written already. -/
inductive MbxAns where
  | done (status : Nat) (result resp : List Byte)
  | later (k : Later)
  | wait
  | said
  deriving DecidableEq, Repr

/-- A row of Table 14.7: code; from MBX0, tenants, MBXM; signed on MBXM; legal in READY, ACTIVE, HELD,
DRAINING, SERVICE and FAULTED; answered without a session. -/
structure MbxRow where
  code  : Nat
  from0 : Bool
  fromT : Bool
  fromM : Bool
  sig   : Bool
  legal : List Bool
  free  : Bool
  deriving DecidableEq, Repr

/-- A column of Table 14.7 that holds ✓ in each state named. -/
def legalIn (ready active held draining service faulted : Bool) : List Bool :=
  [ready, active, held, draining, service, faulted]

/-- Whether a command is legal in the module's state (R491): with a session open in LOCKED, as in READY. -/
def State.mbxLegal (s : State) (r : MbxRow) : Bool :=
  r.legal.getD ((if s.modState = 3 then 4 else s.modState) - 4) false

/-- The header rules (R485, R486): reserved bits, lengths, the fields that are zero outside MBXM. -/
def headerBad (c : MbxCmd) : Bool :=
  let h := c.hdr
  decide (h.reserved ≠ 0 ∨ h.flags.toNat / 4 ≠ 0 ∨ h.flags.getLsbD 0 = true ∨ h.status ≠ 0 ∨ h.state ≠ 0 ∨
    4096 < h.plen.toNat ∨ h.plen.toNat ≠ c.payload.length ∨ h.mbx.toNat ≠ c.mb.val ∨ h.major = 0 ∨ 2 < h.major.toNat ∨
    3 < h.owner.toNat ∨ ((c.mb = 0 ∨ c.mb = 8) ∧ h.ctx ≠ 0) ∨
    (c.mb = 8 ∧ h.flags.getLsbD 1 = false ∧ (h.session ≠ 0 ∨ h.counter ≠ 0 ∨ h.owner ≠ 0)) ∨
    (c.mb ≠ 8 ∧ (h.serial ≠ 0 ∨ h.session ≠ 0 ∨ h.counter ≠ 0 ∨ h.owner ≠ 0)) ∨
    (h.flags.getLsbD 1 = true ∧ c.trailer.length ≠ 132))

/-- Whether an MBXM command's signature is in order (R490). -/
def State.sigOk (s : State) (r : MbxRow) (c : MbxCmd) : Bool :=
  match s.fw.images with
  | none => false
  | some im =>
    (im.owners.any fun o => decide (o.slot = c.hdr.owner.toNat ∧ o.perms / 2 % 2 = 1) &&
      Config.verifies o.pub (mbxHdrBytes c.hdr r.code ++ c.payload) c.trailer) &&
    decide (c.hdr.session = s.fw.mValue ∧ s.fw.mCounter < c.hdr.counter)

/-- Steps 1 to 5 of R492 that do not depend on the payload: the status that refuses, if any; whether the
command consumes its SEQ (R487) (DEDUCED, log entry 55). -/
def State.mbxEarly (s : State) (r : MbxRow) (c : MbxCmd) : Option Nat × Bool :=
  let x := s.session c.mb.val
  let hello := decide (r.code = 1)
  if !hello && decide (c.hdr.seqGen.toNat ≠ x.gen) then (some 9, false)
  else if !hello && decide (c.hdr.seq.toNat ≠ x.seq) then (some 4, false)
  else if headerBad c then (some 4, !hello)
  else if !x.live && !r.free then (some 6, !hello)
  else if x.live && !hello && decide (c.hdr.major.toNat ≠ x.major) then (some 6, true)
  else if !(if c.mb = 0 then r.from0 else if c.mb = 8 then r.fromM else r.fromT) then (some 5, !hello)
  else if decide (c.mb ≠ 0 ∧ c.mb ≠ 8 ∧ (s.mbox c.mb.val).ctx.map (·.val) ≠ some c.hdr.ctx.toNat) then (some 5, !hello)
  else if decide (c.mb = 8 ∧ c.hdr.serial ≠ Config.serial) then (some 5, !hello)
  else (none, !hello)

/-- A command taken from where it arrived: of a ring, or of MBXM, where at most 16 are held (R489). -/
def State.mbxTake (s : State) (c : MbxCmd) (code : Nat) : State :=
  if c.mb.val < 8 then
    let b := s.mbox c.mb.val
    s.setMbox c.mb.val { b with arrived := b.arrived.erase (mbxHdrBytes c.hdr code ++ c.payload) }
  else s

/-- The mailbox of a mailbox command. -/
def mbOf (i : Instr) : Option (Fin 9) :=
  match i with
  | .hello c => some c.mb
  | .getInfo c => some c.mb
  | .getState c => some c.mb
  | .capmapRead c => some c.mb
  | .ringRelease c => some c.mb
  | .ctxCreate c => some c.mb
  | .ctxDestroy c => some c.mb
  | .map c => some c.mb
  | .unmap c => some c.mb
  | .registerBacking c => some c.mb
  | .jobLoad c => some c.mb
  | .jobStart c => some c.mb
  | .jobHold c => some c.mb
  | .jobResume c => some c.mb
  | .jobDrain c => some c.mb
  | .replicaSet c => some c.mb
  | .digestPolicy c => some c.mb
  | .setLatTol c => some c.mb
  | .setPowerCap c => some c.mb
  | .fence c => some c.mb
  | .unfenceRequest c _ => some c.mb
  | .testRun c _ _ => some c.mb
  | .testPackageBegin c => some c.mb
  | .testPackageData c => some c.mb
  | .testPackageCommit c => some c.mb
  | .testPackageDelete c => some c.mb
  | .fwStageBegin c => some c.mb
  | .fwStageData c => some c.mb
  | .fwStageCommit c => some c.mb
  | .fwStageAbort c => some c.mb
  | .fwShed c => some c.mb
  | .attest c => some c.mb
  | .getCerts c => some c.mb
  | .evtSubscribe c => some c.mb
  | .evtUnsubscribe c => some c.mb
  | .evtReplay c => some c.mb
  | .countersRead c => some c.mb
  | .masterSet c => some c.mb
  | .timeStatus c => some c.mb
  | _ => none

/-- A mailbox command that must wait; MBXM holds up to 16 and drops a further one (R489). -/
def State.mbxWait (s : State) (cmd : Instr) : State :=
  if mbOf cmd = some 8 ∧ 16 ≤ (s.waits.filter fun i => decide (mbOf i = some 8)).length then s else s.wait cmd

/-- Domain that a later completion waits for. -/
def Later.dom (k : Later) : Option (Fin 2) :=
  match k with
  | .held d => some d
  | .ended d => some d
  | .fenced d => some d
  | .copies d => some d
  | .backing _ _ => none
  | .shed => none

/-- Whether an earlier command stands before a mailbox's next one (R488): one of its own, or one on the same
job. -/
def State.mbxBehind (s : State) (m : Nat) (job : Option (Fin 2)) : Bool :=
  s.fw.later.any fun e => decide (e.1.mb.val = m) || (job.isSome && decide (e.2.dom = job))

/-- A command consumed where it arrived, and with it its SEQ where it consumes one (R487). -/
def State.mbxEat (s : State) (r : MbxRow) (c : MbxCmd) : State :=
  let e := s.mbxEarly r c
  let s := s.mbxTake c r.code
  if e.2 then
    let x := s.session c.mb.val
    s.setSession c.mb.val { x with seq := (x.seq + 1) % 65536 }
  else s

/-- Whether a command's signature counts (R490). -/
def mbxSigned (r : MbxRow) (c : MbxCmd) : Bool := decide (c.mb = 8) && (r.sig || c.hdr.flags.getLsbD 1)

/-- The state that a command's own part begins in: the command consumed, and its signature's counter (R490). -/
def State.mbxTaken (s : State) (r : MbxRow) (c : MbxCmd) : State :=
  let s := s.mbxEat r c
  if mbxSigned r c then { s with fw := { s.fw with mCounter := c.hdr.counter } } else s

/-- A mailbox command (R485 to R493): the checks in the order of R492, then its own part, given whether its
payload is well formed. The command is consumed unless it must wait; a refusal has no other effect. -/
def State.mbxRun (s : State) (r : MbxRow) (c : MbxCmd) (cmd : Instr) (job : State → Option (Fin 2))
    (bad : State → Bool) (act : State → MbxAns × State) : State :=
  let m := c.mb.val
  let s := if s.pwr.ps = 5 ∧ c.mb = 8 ∧ s.fwOn then s.leaveDeep else s
  if !s.fwOn || decide (m < 8 ∧ !(s.ringsOn m)) then s
  else if c.mb = 8 ∧ s.fw.mLast.map (·.1) = some c then
    ((s.mbxBump 0x158).send (.datagram c.via c.srcIp c.srcPort ((s.fw.mLast.map (·.2)).getD [])))
  else if s.pwr.vacant || s.mbxBehind m (job s) then s.mbxWait cmd
  else
    let e := s.mbxEarly r c
    match e.1 with
    | some 9 => ((s.mbxEat r c).mbxBump 0x108).complete c r.code 9 [] []
    | some st => (s.mbxEat r c).complete c r.code st [] []
    | none =>
      if mbxSigned r c && !(c.hdr.flags.getLsbD 1 && s.sigOk r c) then ((s.mbxEat r c).mbxBump 0x150).complete c r.code 5 [] []
      else
        let s1 := s.mbxTaken r c
        if bad s then s1.complete c r.code 4 [] []
        else if !(s.mbxLegal r) then s1.complete c r.code 3 [] []
        else
          let z := act s1
          match z.1 with
          | .done st res resp => z.2.complete c r.code st res resp
          | .later k => { z.2 with fw := { z.2.fw with later := z.2.fw.later ++ [(c, k)] } }
          | .wait => ({ z.2 with fw := { z.2.fw with sessions := s.fw.sessions, mCounter := s.fw.mCounter },
                                  mboxes := s.mboxes } : State).mbxWait cmd
          | .said => z.2

/-- The code of a command that completes later. -/
def Later.code (k : Later) : Nat :=
  match k with
  | .held _ => 0x22
  | .ended _ => 0x24
  | .fenced _ => 0x50
  | .copies _ => 0x20
  | .backing _ _ => 0x14
  | .shed => 0x61

/-- Commands that waited for something complete (Table 14.9). -/
def State.settleLater (s : State) (k : Later) (status : Nat) (result : List Byte) : State :=
  let mine := s.fw.later.filter fun e => decide (e.2 = k)
  let s := { s with fw := { s.fw with later := s.fw.later.filter fun e => decide (e.2 ≠ k) } }
  mine.foldl (fun s e => s.complete e.1 k.code status result []) s

end Sys2Proof.Machine
end

