-- ==== Sys2Proof/Machine/Routine0.lean ====
section
/-!
DEFINITION. Routine 0 of the update cores (R403, R405 to R408) and the weight digest (R418), as functions
of tensors and parameters.
-/

namespace Sys2Proof.Machine

/-- A result rounded to binary32 (R26, R405). -/
def r32 (v : FVal) : FVal := fmt32.decode (fmt32.encode v)

/-- An exact value converted to binary32 under R39 with RNE (R405). -/
def f32 (v : FVal) : FVal := fmt32.decode (fmt32.readout .rne v).1

/-- The operators of R405. -/
def f32add (a b : FVal) : FVal := r32 (FVal.add a b)
def f32sub (a b : FVal) : FVal := r32 (FVal.add a b.neg)
def f32mul (a b : FVal) : FVal := r32 (FVal.mul a b)
def f32div (a b : FVal) : FVal := r32 (FVal.div a b)
def f32sqrt (a : FVal) : FVal := r32 a.sqrt

/-- A whole number, and a power of two. -/
def fNat (n : Nat) : FVal := .fin false n 0
def fPow2 (k : Int) : FVal := .fin false 1 k

/-- The larger of two values that are no NaN. -/
def fMax (a b : FVal) : FVal := FVal.pick true a b

/-- Whether a value is a NaN or an infinity. -/
def FVal.odd (v : FVal) : Bool :=
  match v with
  | .fin _ _ _ => false
  | _ => true

/-- xsum of R403: the exact sum of terms rounded onto the grid, and WOVF. A special term makes the sum
special. -/
def xsum (terms : List FVal) (anchor : Int) (headroom : Nat) : FVal × Bool :=
  let z := terms.foldl (fun (z : Int × Bool × Bool) v =>
    match v with
    | .fin neg m x =>
      let p := windowProduct anchor headroom neg m x
      (z.1 + p.1, z.2.1 || p.2, z.2.2)
    | _ => (z.1, z.2.1, true)) (0, false, false)
  (if z.2.2 then .nan else .fin (decide (z.1 < 0)) z.1.natAbs anchor, z.2.1)

/-- What routine 0 reads: sizes, NORES, the gradient as exact values, the tensors of the live bank as
their bits, residues, and parameters; `rnd` is R408's rounding of a flat index. -/
structure UeIn where
  rows  : Nat
  cols  : Nat
  nores : Bool
  g     : List FVal
  w     : List Nat
  res   : List Int
  m     : List Nat
  rs    : List Nat
  cs    : List Nat
  t     : Nat
  beta1 : FVal
  beta2 : FVal
  eps   : FVal
  wd    : FVal
  lr    : FVal
  sched : FVal
  scale : Int
  aS    : Int
  aN    : Int
  hS    : Nat
  hN    : Nat
  rnd   : Nat → Rounding

/-- What routine 0 leaves: the tensors of the next bank, sc, the ratio and the two norms as binary32
bits, and the flags of R411. -/
structure UeRun where
  w       : List Nat
  res     : List Int
  m       : List Nat
  rs      : List Nat
  cs      : List Nat
  sc      : Int
  ratio   : Nat
  nd      : Nat
  nw      : Nat
  wovfS   : Bool
  wovfN   : Bool
  rovf    : Bool
  special : Bool
  deriving DecidableEq, Repr

/-- Gradient element of a row and column. -/
def UeIn.el (x : UeIn) (i j : Nat) : FVal := x.g.getD (i * x.cols + j) .nan

/-- A conversion to binary16 under R39 with SR at a flat index: bits and ROVF. -/
def UeIn.sr16 (x : UeIn) (v : FVal) (k : Nat) : Nat × Bool := fmt16.readout (x.rnd k) v

/-- Row sums of squares and column sums of squares (R405). -/
def UeIn.rowSum (x : UeIn) (i : Nat) : FVal × Bool :=
  xsum ((List.range x.cols).map fun j => FVal.mul (x.el i j) (x.el i j)) x.aS x.hS
def UeIn.colSum (x : UeIn) (j : Nat) : FVal × Bool :=
  xsum ((List.range x.rows).map fun i => FVal.mul (x.el i j) (x.el i j)) x.aS x.hS

/-- One statistic: the decayed old value and the new mean (R405). -/
def UeIn.stat (x : UeIn) (old : Nat) (sum : FVal) (n : Nat) : FVal :=
  f32add (f32mul x.beta2 (f32mul (fmt16.decode old) (fPow2 x.scale)))
    (f32mul (f32sub (fNat 1) x.beta2) (f32div (f32 sum) (fNat n)))

/-- sc of R405: SCALE where every statistic is 0. A negative maximum has no logarithm: `none`. -/
def scaleOf (scale : Int) (mx : FVal) : Option Int :=
  match mx with
  | .fin neg m e =>
    if m = 0 then some scale
    else if neg then none
    else some (max (-128) (min 127 (e + (Nat.log2 m : Int) - 14)))
  | _ => none

/-- One element's update (R405): bits of W1, RES1 and M1, d, w, whether a stored value saturates, and
whether a value is special. -/
def UeIn.update (x : UeIn) (bc1 bc2 lr rbar rsv csv : FVal) (i j : Nat) :
    (Nat × Int × Nat) × FVal × FVal × Bool × Bool :=
  let e := i * x.cols + j
  let wb := x.w.getD e 0
  let w := fmt16.decode wb
  let v := if rbar.isZero then .fin false 0 0 else f32div (f32mul rsv csv) rbar
  let u := f32div (x.el i j) (f32add (f32sqrt (f32div v bc2)) x.eps)
  let m := f32add (f32mul x.beta1 (fmt16.decode (x.m.getD e 0))) (f32mul (f32sub (fNat 1) x.beta1) u)
  let m1 := x.sr16 m e
  let d := (f32mul lr (f32add (f32div m bc1) (f32mul x.wd w))).neg
  let r : (Nat × Bool) × Int :=
    if x.nores then (x.sr16 (f32add w d) (2 ^ 42 + e), 0)
    else
      let nv := FVal.add (residueValue wb (x.res.getD e 0)) d
      let w1 := fmt16.readout .rne nv
      (w1, residueOf nv w1.1 w1.2)
  ((r.1.1, r.2, m1.1), d, w, m1.2 || r.1.2, w.odd || v.odd || u.odd || m.odd || d.odd)

/-- Routine 0 (R405) (DEDUCED, log entry 16). -/
def routine0 (x : UeIn) : UeRun :=
  let t := fNat x.t
  let one := fNat 1
  let bc1 := f32sub one (r32 (f32mul t (r32 x.beta1.log)).exp)
  let bc2 := f32sub one (r32 (f32mul t (r32 x.beta2.log)).exp)
  let lr := f32mul x.lr x.sched
  let rsum := (List.range x.rows).map x.rowSum
  let csum := (List.range x.cols).map x.colSum
  let r := (List.range x.rows).map fun i => x.stat (x.rs.getD i 0) ((rsum.map (·.1)).getD i .nan) x.cols
  let c := (List.range x.cols).map fun j => x.stat (x.cs.getD j 0) ((csum.map (·.1)).getD j .nan) x.rows
  let mx := (r ++ c).foldl (fun a b => fMax a b) ((r ++ c).headD (fNat 0))
  let sc := scaleOf x.scale mx
  let k := sc.getD x.scale
  let s1 := fPow2 k
  let rs1 := (List.range x.rows).map fun i => x.sr16 (f32div (r.getD i .nan) s1) (2 ^ 40 + i)
  let cs1 := (List.range x.cols).map fun j => x.sr16 (f32div (c.getD j .nan) s1) (2 ^ 41 + j)
  let rsv := rs1.map fun b => f32mul (fmt16.decode b.1) s1
  let csv := cs1.map fun b => f32mul (fmt16.decode b.1) s1
  let rbar := f32div (f32 (xsum rsv (k - 23) 24).1) (fNat x.rows)
  let up := (List.range (x.rows * x.cols)).map fun e =>
    x.update bc1 bc2 lr rbar (rsv.getD (e / x.cols) .nan) (csv.getD (e % x.cols) .nan) (e / x.cols) (e % x.cols)
  let nd := xsum (up.map fun z => FVal.mul z.2.1 z.2.1) x.aN x.hN
  let nw := xsum (up.map fun z => FVal.mul z.2.2.1 z.2.2.1) x.aN x.hN
  let sd := f32sqrt (f32 nd.1)
  let sw := f32sqrt (f32 nw.1)
  let nwZero := match nw.1 with | .fin _ 0 _ => true | _ => false
  { w := up.map (·.1.1), res := up.map (·.1.2.1), m := up.map (·.1.2.2), rs := rs1.map (·.1), cs := cs1.map (·.1),
    sc := k, ratio := fmt32.encode (if nwZero then .inf false else f32div sd sw), nd := fmt32.encode sd,
    nw := fmt32.encode sw, wovfS := rsum.any (·.2) || csum.any (·.2), wovfN := nd.2 || nw.2,
    rovf := rs1.any (·.2) || cs1.any (·.2) || up.any (·.2.2.2.1),
    special := sc.isNone || bc1.odd || bc2.odd || lr.odd || (r ++ c).any FVal.odd || rbar.odd ||
      up.any (·.2.2.2.2) }

/-! ### Digest (R418) -/

/-- The term of one element: its counter through the generator under DIGEST_KEY. -/
def digestTerm (key : BitVec 128) (layer e w res : Nat) : BitVec 128 :=
  cbg128 key (BitVec.ofNat 128 (layer * 2 ^ 96 + (res % 256 * 2 ^ 16 + w % 2 ^ 16) * 2 ^ 64 + e % 2 ^ 48 * 2 ^ 16))

/-- Lane pairs added: no carry passes between lanes. -/
def laneAdd (a b : BitVec 128) : BitVec 128 :=
  (a.extractLsb' 64 64 + b.extractLsb' 64 64) ++ (a.extractLsb' 0 64 + b.extractLsb' 0 64)

/-- The digest of elements numbered from e. -/
def digestOf (key : BitVec 128) (layer : Nat) (ws : List Nat) (rs : List Int) : BitVec 128 :=
  ((List.range ws.length).map fun e => digestTerm key layer e (ws.getD e 0) (toTwos 8 (rs.getD e 0))).foldl laneAdd 0

end Sys2Proof.Machine
end

