-- ==== Sys2Proof/Machine/Remote.lean ====
section
/-!
DEFINITION. Accesses at their home by agents other than tiles (R209, R225, R256): other modules, the
companion, the fabric dies and the controllers; and a request from another module (R368 to R370).
-/

namespace Sys2Proof.Machine

/-- A range cut at multiples of a size, as (address, bytes). -/
def cuts (size ga n : Nat) : List (Nat × Nat) :=
  if n = 0 then []
  else
    (List.range ((ga + n - 1) / size + 1 - ga / size)).map fun k =>
      let b := (ga / size + k) * size
      (max ga b, min (ga + n) (b + size) - max ga b)

/-- Size of the accesses that a range of a region is performed in. -/
def cutSize (ga : Nat) : Nat := if gaRegion ga = 3 ∨ gaRegion ga = 4 then 8 else 128

/-- One access of a read by an agent that is no tile: bytes, poison, state. -/
def State.foreignReadOne (s : State) (a : Agent) (ctx ga n hint : Nat) : List Byte × Bool × State :=
  match gaRegion ga with
  | 0 =>
    let p := s.poisonedAt ga n
    (s.bytesAt ga n, p, if p then s.bump (hcReg (gaDie ga) 0xF10) 1 else s)
  | 3 => (slice (leBytes 8 (s.syncWord (ga / 8 * 8)).toNat) (ga % 8) n, false, s)
  | 4 => let r := s.regRead ga n; (r.1, false, r.2)
  | _ => s.homeRead a ctx ga n hint false none

/-- A read by an agent that is no tile. -/
def State.foreignRead (s : State) (a : Agent) (ctx ga n hint : Nat) : List Byte × Bool × State :=
  (cuts (cutSize ga) ga n).foldl (fun (z : List Byte × Bool × State) c =>
    let r := z.2.2.foreignReadOne a ctx c.1 c.2 hint
    (z.1 ++ r.1, z.2.1 || r.2.1, r.2.2)) ([], false, s)

/-- One access of a write by an agent that is no tile; with `poison`, each granule that it touches is
poisoned (R215). -/
def State.foreignWriteOne (s : State) (ctx ga : Nat) (bs : List Byte) (hint : Nat) (poison : Bool) : State :=
  match gaRegion ga with
  | 0 =>
    let s := s.putBytes ga bs
    if poison then (granulesOf ga bs.length).foldl (fun s g => s.makePoison g) s else s
  | 3 => s.badSyncWrite ga ctx none (gaDie ga)
  | 4 => s.regStoreBytes (some ctx) ga bs
  | _ =>
    let s := s.beforeForeignWrite ga
    let s := (s.hcStore (gaDie ga) (gaLine ga) (effHint hint false) (decide (bs.length = 128))).putBytes ga bs
    if poison then (granulesOf ga bs.length).foldl (fun s g => s.makePoison g) s else s

/-- A write by an agent that is no tile. -/
def State.foreignWrite (s : State) (ctx ga : Nat) (bs : List Byte) (hint : Nat) (poison : Bool) : State :=
  (cuts (cutSize ga) ga bs.length).foldl (fun s c =>
    s.foreignWriteOne ctx c.1 (slice bs (c.1 - ga) c.2) hint poison) s

/-- The lines of a range that an access must make ready, read or written. -/
def readyList (ga n : Nat) (write : Bool) : List (Nat × Bool) := (linesOf ga n).map fun l => (l, write)

/-- Whether a range lies at addresses that exist and can be reached (R187, R188): its first and last byte, on a
die that is not in PS4 (R552). -/
def State.rangeOk (s : State) (src ga n : Nat) : Bool :=
  !(decide (4 ≤ s.pwr.ps ∧ gaDie ga < 48)) &&
  (s.gaCause src ga).isNone && (s.gaCause src (ga + n - 1)).isNone && decide (gaDie ga = gaDie (ga + n - 1) ∧
    gaRegion ga = gaRegion (ga + n - 1))

/-! ### Requests from other modules -/

/-- An export window (Table 10.20) that permits a request (R369). -/
def State.exported (s : State) (key ga n : Nat) (write : Bool) : Bool :=
  (List.range 16).any fun w =>
    let a := s.reg (regGa 48 (0x3000 + 0x10 * w))
    let b := s.reg (regGa 48 (0x3008 + 0x10 * w))
    decide (bits a 63 63 = 1 ∧ bits a 15 0 = key ∧ bits b 23 0 ≤ ga / 65536 ∧
      (ga + n - 1) / 65536 ≤ bits b 47 24) && (!write || decide (bits a 62 62 = 1))

/-- The response to a request (R370). -/
def State.respond (s : State) (h : PktHdr) (status : Nat) (poison : Bool) (data : List Byte) : State :=
  s.sendPacket { h with dst := h.src, src := s.selfIndex, op := 5, status := BitVec.ofNat 8 status,
                        flags := (h.flags &&& 0x0E) ||| (if poison then 1 else 0) } data

/-- Flits of a packet for this module, from one input port, that its delivery takes from where they were
kept (R361). -/
def State.takePacket (s : State) (p : Nat) (h : PktHdr) : State :=
  let first (e : Nat × Flit) : Bool :=
    decide (e.1 = p ∧ e.2.hdr.kind = 1 ∧ e.2.hdr.first ∧ (payBytes e.2.pay).take 32 = pktBytes h)
  match s.fab.rx.find? first with
  | none => s
  | some e =>
    let vc := e.2.hdr.vc
    let mine (x : Nat × Flit) : Bool := decide (x.1 = p ∧ x.2.hdr.kind = 1 ∧ x.2.hdr.vc = vc)
    let n := ((s.fab.rx.filter mine).dropWhile fun x => x ≠ e).takeWhile (fun x => !x.2.hdr.last) |>.length
    let gone := (((s.fab.rx.filter mine).dropWhile fun x => x ≠ e).take (n + 1))
    let s : State := { s with fab := { s.fab with rx := gone.foldl (fun l x => l.erase x) s.fab.rx } }
    gone.foldl (fun s x => s.creditBack p x.2) s

/-- A request with a GA that this module performs (R370): what it answers. -/
def State.performRemote (s : State) (h : PktHdr) (ctx : CtxId) (data : List Byte) : State :=
  let ga := h.ga.toNat
  let n := h.len.toNat
  match h.op.toNat with
  | 1 =>
    let r := s.foreignRead .remote ctx.val ga n 0
    r.2.2.respond h 0 r.2.1 r.1
  | 2 => (s.foreignWrite ctx.val ga (slice data 0 n) 0 (h.flags.getLsbD 0)).respond h 0 false []
  | 3 =>
    let fmt := h.fmt.toNat
    if redRefusedFmt fmt && s.ctxDet ctx then (s.redRefuse (gaDie ga) ctx ga).respond h 0x0B false []
    else
      (s.redArrive false ctx 0 ga fmt h.operand (BitVec.ofNat 1024 (leNat (slice data 0 128)))).respond h 0
        false []
  | _ => (s.syncEach ga fun s a => s.syncSig a (bits h.operand 63 56) (bits h.operand 15 0)).2.respond h 0 false []

/-- REMOTE_REQUEST (R368 to R370): checked against the export windows, then performed at its home and
answered. A signal names a sync word; a reduce-write covers one line, its element mask in OPERAND (log
entry 15). A line that must wait for a snoop or a heal makes the request wait. -/
def execRemoteRequest (p : PortId) (h : PktHdr) (data : List Byte) (s : State) :
    Host.Outcome State Fault Refusal :=
  .next (
    let op := h.op.toNat
    if !s.on || decide (h.dst ≠ s.selfIndex) || !(decide (1 ≤ op ∧ op ≤ 4)) then s
    else
      let ga := h.ga.toNat
      let n := if op = 4 then 8 else h.len.toNat
      let ctx : CtxId := Fin.ofNat 64 h.ctx.toNat
      let s' := s.takePacket p.val h
      if !(s.exported h.jobkey.toNat ga n (decide (op ≠ 1))) then
        (s'.raisePort p.val .contained 0x4003 0 ga h.src.toNat).respond h 5 false []
      else
        let formed := match op with
          | 3 => decide (n = 128) && redFormed ga h.fmt.toNat
          | 4 => decide (ga % 8 = 0 ∧ gaRegion ga = 3)
          | _ => decide (1 ≤ n ∧ n ≤ 4096)
        let reach := if op = 4 then (s.xCause (48 + p.val / 2) ga .store .syncInitOrSig).isNone else s.rangeOk (48 + p.val / 2) ga n
        if !formed || !reach then s'.respond h 0x0B false []
        else
          let w := s'.readyLines (readyList ga n (decide (op ≠ 1)))
          if op ≠ 4 ∧ w.1 then w.2.wait (.remoteRequest p h data)
          else (if op = 4 then s' else w.2).performRemote h ctx data)

end Sys2Proof.Machine
end

