-- ==== Sys2Proof/Machine/Red.lean ====
section
/-!
DEFINITION. The reduction and multicast units of the fabric dies (R371 to R382).
-/

namespace Sys2Proof.Machine

/-- RED_ register of a fabric die (Table 10.22). -/
def redReg (fd off : Nat) : Nat := regGa (48 + fd) (0x10000 + off)

/-- Word k of a bucket descriptor (Tables 10.26 to 10.31). -/
def bktReg (fd b k : Nat) : Nat := redReg fd (0x1000 + 0x40 * b + 8 * k)

/-- RED_BKTb_STATE. -/
def bktState (fd b : Nat) : Nat := redReg fd (0x6000 + 8 * b)

/-- Word k of a multicast descriptor (Table 10.33). -/
def mcReg (fd m k : Nat) : Nat := redReg fd (0x8000 + 0x20 * m + 8 * k)

/-- A field of a bucket descriptor. -/
def State.bktF (s : State) (fd b k hi lo : Nat) : Nat := s.regField (bktReg fd b k) hi lo

/-- A bucket beyond its registers. -/
def State.bkt (s : State) (fd b : Nat) : BktSt := mapGet BktSt.reset s.fab.bkts (fd * 256 + b)

/-- The state with a bucket replaced. -/
def State.setBkt (s : State) (fd b : Nat) (x : BktSt) : State :=
  { s with fab := { s.fab with bkts := mapSet BktSt.reset s.fab.bkts (fd * 256 + b) x } }

/-- Context of the job that a bucket belongs to. -/
def State.bktCtx (s : State) (fd b : Nat) : CtxId :=
  (s.dom (Fin.ofNat 2 (mapGet 0 s.fab.bktDom (fd * 256 + b)))).ctx

/-- PHASE of a bucket: 0 IDLE, 1 RECEIVING, 2 REFUSED, 3 SKEW (Table 10.32). -/
def State.bktPhase (s : State) (fd b : Nat) : Nat := s.regField (bktState fd b) 63 61

/-- The valid descriptor of a unit that carries a BID (R371). -/
def State.bktOf (s : State) (fd bid : Nat) : Option Nat :=
  (List.range 256).find? fun b => decide (s.bktF fd b 0 63 63 = 1 ∧ s.bktF fd b 0 47 32 = bid)

/-- Inputs of a bucket: ports, and bit 8 for the local one. -/
def State.bktInputs (s : State) (fd b : Nat) : Nat := s.bktF fd b 0 15 8 + 256 * s.bktF fd b 0 58 58

/-- Element groups of a bucket (R371): 240 bytes each (DEDUCED, log entry 68). -/
def State.bktGroups (s : State) (fd b : Nat) : Nat := (s.bktF fd b 3 63 48 * 65536 + 239) / 240

/-- Bytes of an element group; the last may be short. -/
def State.groupBytes (s : State) (fd b k : Nat) : Nat := min 240 (s.bktF fd b 3 63 48 * 65536 - 240 * k)

/-- A flag of RED_FLAGS set, with the first flagged bucket and its STEP (Table 10.24). -/
def State.redFlagSet (s : State) (fd b bit : Nat) : State :=
  let a := redReg fd 8
  let s := if s.regField a 63 59 = 0 then
      (s.setField a 47 32 (s.bktF fd b 0 47 32)).setField a 31 0 (s.bktF fd b 2 63 32) else s
  s.setField a bit bit 1

/-- An event of a reduction unit (kind 0x06). -/
def State.raiseRed (s : State) (fd b code detail : Nat) : State :=
  s.raise { cls := .contained, code := code, die := 48 + fd, kind := 6, inst := 0, ctx := (s.bktCtx fd b).val,
            tile := none, location := 0, step := s.bktF fd b 2 63 32, layer := s.bktF fd b 0 47 32,
            detail := detail }

/-- A bucket refused (R374). -/
def State.bktRefuse (s : State) (fd b : Nat) : State :=
  let s := (s.setField (bktState fd b) 63 61 2).setBkt fd b BktSt.reset
  let s := (s.redFlagSet fd b 63).bump (redReg fd 0x120) 1
  (s.raiseRed fd b 0x4004 0).noteFault (s.bktCtx fd b) false

/-- A notice sent to the update-engine cluster of the unit's fabric die (R394). -/
def State.sendNoticeTo (s : State) (fd : Nat) (n : Notice) : State :=
  { s with fab := { s.fab with notices := s.fab.notices ++ [(Fin.ofNat 4 fd, n)] } }

/-- The notice of a bucket (R394). -/
def State.bktNotice (s : State) (fd b : Nat) (skew : Bool) (stepRecv : Nat) : Notice :=
  let x := s.bkt fd b
  { skew := skew, bid := BitVec.ofNat 16 (s.bktF fd b 0 47 32), gen := BitVec.ofNat 8 (s.bktF fd b 0 55 48),
    step := BitVec.ofNat 32 (s.bktF fd b 2 63 32), stepRecv := BitVec.ofNat 32 stepRecv,
    layerFirst := BitVec.ofNat 32 (s.bktF fd b 1 63 32), layerLast := BitVec.ofNat 32 (s.bktF fd b 1 31 0),
    anchor := BitVec.ofNat 8 (s.bktF fd b 0 31 24), fmt64 := decide (s.bktF fd b 0 60 60 = 1),
    destGa := BitVec.ofNat 40 (s.bktF fd b 6 39 0), poison := x.poison, eovf := x.eovf, special := x.sp }

/-- A bucket goes to PHASE SKEW (R377): the root reports it and sends a skew notice. -/
def State.bktSkew (s : State) (fd b received : Nat) : State :=
  if s.bktPhase fd b = 3 then s
  else
    let s := ((s.setField (bktState fd b) 63 61 3).redFlagSet fd b 62).bump (redReg fd 0x128) 1
    if s.bktF fd b 0 59 59 = 0 then s
    else
      let s := s.raiseRed fd b 0x4005 (received % 2 ^ 32)
      (s.noteFault (s.bktCtx fd b) true).sendNoticeTo fd (s.bktNotice fd b true received)

/-- Flags that the unit's output brings about: RED_FLAGS, and the collection for every layer of the bucket
(R375). -/
def State.bktFlags (s : State) (fd b : Nat) (poison eovf sp : Bool) : State :=
  let s := if poison then s.redFlagSet fd b 61 else s
  let s := if eovf then s.redFlagSet fd b 60 else s
  let s := if sp then s.redFlagSet fd b 59 else s
  if !(eovf || sp) then s
  else
    let lo := s.bktF fd b 1 63 32
    (List.range (s.bktF fd b 1 31 0 + 1 - lo)).foldl (fun s i =>
      s.note (s.bktCtx fd b) ⟨BitVec.ofNat 32 (lo + i), false, false, eovf, sp, false⟩) s

/-- Flag byte of a flit (R373). -/
def flitFlags (poison sp eovf skew : Bool) : Nat :=
  (if poison then 1 else 0) + (if sp then 2 else 0) + (if eovf then 4 else 0) + (if skew then 8 else 0)

/-- A flit of a bucket or multicast sent on a port: in its stream's slots, or on VC5 (Table 10.4). -/
def State.sendUnit (s : State) (p kind tag offset : Nat) (first last static_ : Bool) (bs : List Byte) : State :=
  s.linkSend p ⟨⟨BitVec.ofNat 4 kind, if static_ then 0 else 5, 0, first, last, BitVec.ofNat 16 tag,
    BitVec.ofNat 27 offset⟩, payOf bs, static_⟩

/-- The header flit of a unit's output (Table 10.12); it counts FANIN contributors. -/
def State.bktHeader (s : State) (fd b : Nat) : List Byte :=
  leBytes 2 (s.bktF fd b 0 47 32) ++ leBytes 1 (s.bktF fd b 0 55 48) ++
  leBytes 1 (if s.bktPhase fd b = 3 then 8 else 0) ++ leBytes 4 (s.bktF fd b 2 63 32) ++
  leBytes 4 (s.bktF fd b 1 63 32) ++ leBytes 4 (s.bktF fd b 1 31 0) ++ leBytes 1 (s.bktF fd b 0 31 24) ++
  leBytes 1 (s.bktF fd b 0 23 18) ++ leBytes 1 (s.bktF fd b 0 60 60) ++ leBytes 1 0 ++
  leBytes 2 (s.bktF fd b 2 31 16)

/-- A data flit of a bucket (R373). -/
def State.bktData (s : State) (fd b flags : Nat) (data : List Byte) : List Byte :=
  slice data 0 240 ++ leBytes 1 (s.bktF fd b 0 55 48) ++ leBytes 1 flags ++
  leBytes 2 (s.bktF fd b 2 63 32 % 65536)

/-- A bucket's flit sent on ports: its header before its first data flit. -/
def State.bktSend (s : State) (fd b kind : Nat) (ports : List Nat) (k flags : Nat) (data : List Byte) : State :=
  let bid := s.bktF fd b 0 47 32
  let st := decide (s.bktF fd b 2 13 0 ≠ 0)
  let hd := s.bktHeader fd b
  let opening := decide ((s.bkt fd b).outs = 0)
  ports.foldl (fun s p =>
    let s := if opening then s.sendUnit p kind bid 0 true false st hd else s
    s.sendUnit p kind bid (k + 1) false (decide (k + 1 = s.bktGroups fd b)) st (s.bktData fd b flags data)) s

/-- Ports of a mask. -/
def portsOf (m : Nat) : List Nat := (List.range 8).filter fun p => m.testBit p

/-- One element fitted to the format (R375): its bits, and whether it saturated. -/
def esfFit (wide special : Bool) (v : Int) : Nat × Bool :=
  let w := if wide then 64 else 32
  let top : Int := 2 ^ (w - 1) - 1
  if special then (2 ^ (w - 1), false)
  else if top < v then (top.toNat, true)
  else if v < -top then ((2 ^ w - top : Int).toNat, true)
  else ((v % 2 ^ w).toNat, false)

/-- An element group whose inputs have all contributed leaves the unit (R375, R378). -/
def State.bktOut (s : State) (fd b k : Nat) (g : BktGroup) : State :=
  let wide := decide (s.bktF fd b 0 60 60 = 1)
  let fit := (g.sums.zip g.spec).map fun e => esfFit wide e.2 e.1
  let data := fit.flatMap fun e => leBytes (if wide then 8 else 4) e.1
  let sat := (fit.filter (·.2)).length
  let sp := g.sp || g.spec.any id
  let eovf := g.eovf || decide (sat ≠ 0)
  let skew := g.skew || decide (s.bktPhase fd b = 3)
  let flags := flitFlags g.poison sp eovf skew
  let s := ((s.bump (redReg fd 0x130) sat).bump (redReg fd 0x108) 1).bktFlags fd b g.poison
    (decide (sat ≠ 0)) (g.spec.any id)
  let ctx := (s.bktCtx fd b).val
  let s := if s.bktF fd b 0 59 59 = 1 then
      if skew then s
      else
        let s := s.foreignWrite ctx (s.bktF fd b 6 39 0 + 240 * k) (slice data 0 (s.groupBytes fd b k)) 0 g.poison
        if s.bktF fd b 0 62 61 = 1 then s.bktSend fd b 4 (portsOf (s.bktF fd b 4 55 48)) k flags data else s
    else s.bktSend fd b 3 [s.bktF fd b 0 7 4] k flags data
  let x := s.bkt fd b
  let y : BktSt := { x with outs := x.outs + 1, poison := x.poison || g.poison, eovf := x.eovf || eovf,
                            sp := x.sp || sp, groups := mapSet BktGroup.reset x.groups k BktGroup.reset }
  (s.setBkt fd b y).setField (bktState fd b) 31 0 y.outs

/-- Elements of a group's bytes: integers, and which are the special code (R42). -/
def esfElems (wide : Bool) (bs : List Byte) : List (Int × Bool) :=
  let es := if wide then 8 else 4
  (List.range (240 / es)).map fun i =>
    let v := field bs (es * i) es
    let sp := decide (v = 2 ^ (8 * es - 1))
    (if sp then 0 else ofTwos (8 * es) v, sp)

/-- One input's contribution to an element group (R374, R375). -/
def State.bktAdd (s : State) (fd b input k : Nat) (bs : List Byte) (flags : Nat) : State :=
  let x := s.bkt fd b
  let g := mapGet BktGroup.reset x.groups k
  if g.got.testBit input then s.bktRefuse fd b
  else
    let e := esfElems (decide (s.bktF fd b 0 60 60 = 1)) bs
    let g' : BktGroup :=
      { got := g.got + 2 ^ input,
        sums := if g.got = 0 then e.map (·.1) else (g.sums.zip e).map fun z => z.1 + z.2.1,
        spec := if g.got = 0 then e.map (·.2) else (g.spec.zip e).map fun z => z.1 || z.2.2,
        poison := g.poison || flags.testBit 0, sp := g.sp || flags.testBit 1, eovf := g.eovf || flags.testBit 2,
        skew := g.skew || flags.testBit 3 }
    let s := s.setBkt fd b { x with groups := mapSet BktGroup.reset x.groups k g' }
    if g'.got = s.bktInputs fd b then s.bktOut fd b k g' else s

/-- HDR_SEEN of a bucket gains an input; the first one starts the phase (Table 10.32). Once every input
has, their contributors must add up to FANIN (R374). -/
def State.bktSeen (s : State) (fd b input contributors : Nat) : State :=
  let a := bktState fd b
  let s := if s.bktPhase fd b = 0 then s.setField a 63 61 1 else s
  let s := s.setField a 60 52 (s.regField a 60 52 ||| 2 ^ input)
  let x := s.bkt fd b
  let s := s.setBkt fd b { x with hdrs := (input, contributors) :: x.hdrs }
  let ports := s.bktF fd b 0 15 8
  let all := (s.regField a 60 52) % 256 &&& ports = ports
  let total := ((s.bkt fd b).hdrs.filter fun h => decide (h.1 < 8)).foldl (fun n h => n + h.2) 0
  if all ∧ total + s.bktF fd b 0 58 58 ≠ s.bktF fd b 2 31 16 then s.bktRefuse fd b else s

/-- A flit of an input port (R373, R374, R377). -/
def State.bktUp (s : State) (fd b p : Nat) (h : FlitHdr) (bs : List Byte) : State :=
  let step := s.bktF fd b 2 63 32
  if !((s.bktF fd b 0 15 8).testBit p) then s
  else if h.first then
    let s := s.bump (redReg fd 0x100) 1
    if field bs 16 1 ≠ s.bktF fd b 0 31 24 ∨ field bs 17 1 ≠ s.bktF fd b 0 23 18 ∨
        field bs 18 1 ≠ s.bktF fd b 0 60 60 then s.bktRefuse fd b
    else
      let s := s.bktSeen fd b p (field bs 20 2)
      if s.bktPhase fd b = 2 then s
      else if field bs 4 4 ≠ step ∨ (field bs 3 1).testBit 3 then s.bktSkew fd b (field bs 4 4) else s
  else if !((s.regField (bktState fd b) 59 52).testBit p) then (s.bump (redReg fd 0x100) 1).bktRefuse fd b
  else if h.offset = 0 ∨ s.bktGroups fd b < h.offset.toNat then s
  else
    let s := s.bump (redReg fd 0x100) 1
    let flags := field bs 241 1
    let s := if field bs 242 2 ≠ step % 65536 ∨ flags.testBit 3 then
        s.bktSkew fd b (step / 65536 * 65536 + field bs 242 2) else s
    s.bktAdd fd b p (h.offset.toNat - 1) bs flags

/-- A result flit from the parent of an all-reduce (Table 10.13): passed on, and written to DEST_GA. -/
def State.bktDown (s : State) (fd b : Nat) (h : FlitHdr) (bs : List Byte) : State :=
  let s := s.bump (redReg fd 0x100) 1
  let st := decide (s.bktF fd b 2 13 0 ≠ 0)
  let s := (portsOf (s.bktF fd b 4 55 48)).foldl (fun s q =>
    s.sendUnit q 4 h.tag.toNat h.offset.toNat h.first h.last st bs) s
  if h.first ∨ h.offset = 0 ∨ s.bktGroups fd b < h.offset.toNat then s
  else
    let k := h.offset.toNat - 1
    let flags := field bs 241 1
    let s := s.foreignWrite (s.bktCtx fd b).val (s.bktF fd b 6 39 0 + 240 * k)
      (slice bs 0 (s.groupBytes fd b k)) 0 (flags.testBit 0)
    let s := s.bump (redReg fd 0x108) 1
    let x := s.bkt fd b
    s.setBkt fd b { x with down := setPut x.down k true, poison := x.poison || flags.testBit 0,
                           sp := x.sp || flags.testBit 1, eovf := x.eovf || flags.testBit 2 }

/-- A flit taken from where accepted flits are kept (DEDUCED, log entry 69). -/
def State.takeFlit (s : State) (p : Nat) (h : FlitHdr) (payload : BitVec 1952) : State :=
  match s.fab.rx.find? fun e => decide (e.1 = p ∧ e.2.hdr = h ∧ e.2.pay = payload) with
  | none => s
  | some e => ({ s with fab := { s.fab with rx := s.fab.rx.erase e } } : State).creditBack p e.2

/-- Whether a fabric die can act. -/
def State.fdOn (s : State) (fd : Nat) : Bool := s.on && !(s.fdTripped fd)

/-- Lines that a data flit's output group may write at this module. -/
def State.bktNeeds (s : State) (fd b : Nat) (h : FlitHdr) : List (Nat × Bool) :=
  let writes := decide (s.bktF fd b 0 59 59 = 1 ∨ (s.bktF fd b 0 62 61 = 1 ∧ h.kind = 4))
  if !writes || h.first || decide (h.offset = 0) then []
  else
    let k := h.offset.toNat - 1
    readyList (s.bktF fd b 6 39 0 + 240 * k) (s.groupBytes fd b k) true

/-- BUCKET_FLIT (R371 to R378): a flit of no valid descriptor, or of another generation, is stale (DEDUCED, log entry 61). -/
def execBucketFlit (fd : FdId) (p : PortId) (h : FlitHdr) (payload : BitVec 1952) (s : State) :
    Host.Outcome State Fault Refusal :=
  .next (
    if !(s.fdOn fd.val) || !(decide (h.kind = 3 ∨ h.kind = 4)) then s
    else
      let bs := payBytes payload
      let stale := (s.takeFlit p.val h payload).bump (redReg fd.val 0x110) 1
      match s.bktOf fd.val h.tag.toNat with
      | none => stale
      | some b =>
        let w := s.readyLines (s.bktNeeds fd.val b h)
        if field bs (if h.first then 2 else 240) 1 ≠ s.bktF fd.val b 0 55 48 then stale
        else if w.1 then w.2.wait (.bucketFlit fd p h payload)
        else
          let s := w.2.takeFlit p.val h payload
          if s.bktPhase fd.val b = 2 then s
          else if h.kind = 3 then s.bktUp fd.val b p.val h bs
          else if s.bktF fd.val b 0 59 59 = 0 ∧ s.bktF fd.val b 0 62 61 = 1 ∧ s.bktF fd.val b 0 7 4 = p.val then
            s.bktDown fd.val b h bs
          else s)

/-- BUCKET_LOCAL_INPUT (R376): once SRC_SYNC has counted the signals awaited, which a consuming wait takes,
the local input is read. A line that must wait for a snoop or a heal makes the command wait. -/
def execBucketLocalInput (fd : FdId) (b : Fin 256) (s : State) : Host.Outcome State Fault Refusal :=
  .next (
    let f := fd.val
    let ga := s.bktF f b.val 3 39 0
    let n := s.bktF f b.val 3 63 48 * 65536
    if !(s.fdOn f) || !(decide (s.bktF f b.val 0 63 63 = 1 ∧ s.bktF f b.val 0 58 58 = 1 ∧ s.bktPhase f b.val ≠ 2)) ||
        decide (s.regField (bktState f b.val) 60 60 = 1) then s
    else
      let w := s.readyLines (readyList ga n false ++
        (if s.bktF f b.val 0 59 59 = 1 then readyList (s.bktF f b.val 6 39 0) n true else ([] : List (Nat × Bool))))
      if w.1 then w.2.wait (.bucketLocalInput fd b)
      else
        let r := w.2.syncTry (s.bktF f b.val 4 39 0) (s.bktF f b.val 4 63 56) (s.bktF f b.val 3 47 40)
        if r.1.1 ≠ 0 then r.2.wait (.bucketLocalInput fd b)
        else
          let s := r.2.bktSeen f b.val 8 1
          (List.range (s.bktGroups f b.val)).foldl (fun s k =>
            if s.bktPhase f b.val = 2 then s
            else
              let z := s.foreignRead (.fabric fd) (s.bktCtx f b.val).val (ga + 240 * k) (s.groupBytes f b.val k) 0
              (z.2.2.bump (redReg f 0x100) 1).bktAdd f b.val 8 k (slice z.1 0 240) (if z.2.1 then 1 else 0)) s)

/-- Whether a bucket's mode calls for a signal and a notice at this module (Table 10.13, R394). -/
def State.bktTells (s : State) (fd b : Nat) : Bool × Bool :=
  let root := decide (s.bktF fd b 0 59 59 = 1)
  match s.bktF fd b 0 62 61 with
  | 0 => (root, root)
  | 1 => (true, true)
  | _ => (root, false)

/-- BUCKET_COMPLETE (R378, R394): every output flit of the module has been performed or sent on. -/
def execBucketComplete (fd : FdId) (b : Fin 256) (s : State) : Host.Outcome State Fault Refusal :=
  .next (
    let f := fd.val
    let x := s.bkt f b.val
    let n := s.bktGroups f b.val
    let down := decide (s.bktF f b.val 0 59 59 = 0 ∧ s.bktF f b.val 0 62 61 = 1)
    if !(s.fdOn f) || decide (s.bktPhase f b.val ≠ 1 ∨ s.bktF f b.val 0 63 63 = 0 ∨ x.outs ≠ n) ||
        (down && decide (x.down.length ≠ n)) then s
    else
      let t := s.bktTells f b.val
      let s := if t.1 then
          (s.syncEach (s.bktF f b.val 5 39 0) fun s a => s.syncSig a (s.bktF f b.val 5 63 56) 1).2 else s
      let s := if t.2 then s.sendNoticeTo f (s.bktNotice f b.val false 0) else s
      let s := s.setField (bktReg f b.val 2) 63 32 ((s.bktF f b.val 2 63 32 + 1) % 2 ^ 32)
      ((s.setReg (bktState f b.val) 0).setBkt f b.val BktSt.reset).bump (redReg f 0x118) 1)

/-- A bucket's descriptor is made invalid: its partial sums are discarded (R379). -/
def State.bktDrop (s : State) (fd b : Nat) : State :=
  ((s.setField (bktReg fd b 0) 63 63 0).setReg (bktState fd b) 0).setBkt fd b BktSt.reset

/-- BUCKET_DISCARD (R379). -/
def execBucketDiscard (fd : FdId) (b : Fin 256) (s : State) : Host.Outcome State Fault Refusal :=
  .next (if s.fdOn fd.val then s.bktDrop fd.val b.val else s)

/-! ### Multicast -/

/-- Flits of one 64 KiB unit of a multicast: 240 bytes each (DEDUCED, log entry 13). -/
def mcFlits : Nat := 274

/-- A field of a multicast descriptor. -/
def State.mcF (s : State) (fd m k hi lo : Nat) : Nat := s.regField (mcReg fd m k) hi lo

/-- The valid descriptor of a unit that carries a MID, as source or as relay (R380). -/
def State.mcOf (s : State) (fd mid : Nat) (relay : Bool) : Option Nat :=
  (List.range 64).find? fun m => decide (s.mcF fd m 0 63 63 = 1 ∧ s.mcF fd m 0 47 32 = mid ∧
    (s.mcF fd m 0 62 62 = 1 ↔ relay))

/-- One GO of a multicast performed at this module and not yet signalled. -/
def State.mcPerformed (s : State) (fd m : Nat) : State :=
  let k := fd * 64 + m
  { s with fab := { s.fab with mcDone := mapSet 0 s.fab.mcDone k (mapGet 0 s.fab.mcDone k + 1) } }

/-- The multicast that a write of RED_MC_GO starts (R381, R382), given the descriptor, the first unit and
the units. -/
def State.mcRun (s : State) (fd : FdId) (m start count : Nat) (ctx : CtxId) : State :=
  let f := fd.val
  let src := s.mcF f m 1 39 0
  let dst := s.mcF f m 2 39 0
  let st := decide (s.mcF f m 0 13 0 ≠ 0)
  let out := portsOf (s.mcF f m 0 27 20)
  let own := decide (s.mcF f m 0 61 61 = 1)
  let s := (List.range (count * mcFlits)).foldl (fun s i =>
    let k := start * mcFlits + i
    let off := k / mcFlits * 65536 + k % mcFlits * 240
    let n := min 240 (65536 - k % mcFlits * 240)
    let r := s.foreignRead (.fabric fd) ctx.val (src + off) n 0
    let bs := slice r.1 0 240 ++ leBytes 1 (s.mcF f m 0 55 48) ++ leBytes 1 (if r.2.1 then 1 else 0)
    let s := r.2.2.bump (redReg f 0x138) 1
    let s := out.foldl (fun s p => s.sendUnit p 5 (s.mcF f m 0 47 32) k (decide (i = 0))
      (decide (i + 1 = count * mcFlits)) st bs) s
    if own then s.foreignWrite ctx.val (dst + off) r.1 0 r.2.1 else s) s
  if own then s.mcPerformed f m else s

/-- What a word written to RED_MC_GO names (R381): the descriptor, the first unit and the units; `none`
unless MID, GEN and the range match a valid source descriptor. -/
def State.mcNamed (s : State) (f : Nat) (v : Word) : Option (Nat × Nat × Nat) :=
  match s.mcOf f (bits v 55 40) false with
  | none => none
  | some m =>
    let size := s.mcF f m 1 63 48
    let start := bits v 19 0
    let count := if bits v 39 20 = 0 then size else bits v 39 20
    if bits v 63 56 ≠ s.mcF f m 0 55 48 ∨ size < start + count then none else some (m, start, count)

/-- Lines that a multicast reads and writes at this module. -/
def State.mcLines (s : State) (f : Nat) (z : Nat × Nat × Nat) : List (Nat × Bool) :=
  readyList (s.mcF f z.1 1 39 0 + z.2.1 * 65536) (z.2.2 * 65536) false ++
    (if s.mcF f z.1 0 61 61 = 1 then readyList (s.mcF f z.1 2 39 0 + z.2.1 * 65536) (z.2.2 * 65536) true else [])

/-- A write of RED_MC_GO (R381); one that names nothing is dropped as stale. `none` when a line must
wait. -/
def State.mcGo (s : State) (fd : FdId) (v : Word) (ctx : CtxId) : Option State × State :=
  match s.mcNamed fd.val v with
  | none => (some (s.bump (redReg fd.val 0x110) 1), s)
  | some z =>
    let w := s.readyLines (s.mcLines fd.val z)
    if w.1 then (none, w.2) else (some (w.2.mcRun fd z.1 z.2.1 z.2.2 ctx), w.2)

/-- RED_MC_GO (R381). -/
def execRedMcGo (fd : FdId) (v : Word) (s : State) : Host.Outcome State Fault Refusal :=
  .next (
    if !(s.fdOn fd.val) then s
    else
      let r := s.mcGo fd v 0
      match r.1 with
      | some s' => s'
      | none => r.2.wait (.redMcGo fd v))

/-- MULTICAST_FLIT (R380, R382): a relay passes the flit on at once and writes it to its own memory. -/
def execMulticastFlit (fd : FdId) (p : PortId) (h : FlitHdr) (payload : BitVec 1952) (s : State) :
    Host.Outcome State Fault Refusal :=
  .next (
    let f := fd.val
    if !(s.fdOn f) || decide (h.kind ≠ 5) then s
    else
      let bs := payBytes payload
      match s.mcOf f h.tag.toNat true with
      | none => s
      | some m =>
        if s.mcF f m 0 31 28 ≠ p.val then s
        else if field bs 240 1 ≠ s.mcF f m 0 55 48 then (s.takeFlit p.val h payload).bump (redReg f 0x110) 1
        else
          let k := h.offset.toNat
          let off := k / mcFlits * 65536 + k % mcFlits * 240
          let n := min 240 (65536 - k % mcFlits * 240)
          let ga := s.mcF f m 2 39 0 + off
          let w := s.readyLines (readyList ga n true)
          if w.1 then w.2.wait (.multicastFlit fd p h payload)
          else
            let s := (w.2.takeFlit p.val h payload).bump (redReg f 0x138) 1
            let s := (portsOf (s.mcF f m 0 27 20)).foldl (fun s q =>
              s.sendUnit q 5 h.tag.toNat k h.first h.last (decide (s.mcF f m 0 13 0 ≠ 0)) bs) s
            let s := s.foreignWrite 0 ga (slice bs 0 n) 0 ((field bs 241 1).testBit 0)
            if h.last then s.mcPerformed f m else s)

/-- MULTICAST_COMPLETE (R382): every flit of one GO has been performed, and DEST_SYNC is signalled. -/
def execMulticastComplete (fd : FdId) (m : Fin 64) (s : State) : Host.Outcome State Fault Refusal :=
  .next (
    let k := fd.val * 64 + m.val
    let n := mapGet 0 s.fab.mcDone k
    if !(s.fdOn fd.val) || decide (n = 0) then s
    else
      let s := { s with fab := { s.fab with mcDone := mapSet 0 s.fab.mcDone k (n - 1) } }
      (s.syncEach (s.mcF fd.val m.val 3 39 0) fun s a => s.syncSig a (s.mcF fd.val m.val 3 63 56) 1).2)

end Sys2Proof.Machine
end

