-- ==== Sys2Proof/Machine/UeBase.lean ====
section
/-!
DEFINITION. The update-engine clusters: their registers and layers (R388 to R401), the address spaces and
windows of the cores (R390, R391), flags and faults (R411, R422).
-/

namespace Sys2Proof.Machine

/-- UE_ register of a fabric die (Table 11.15). -/
def ueReg (fd off : Nat) : Nat := regGa (48 + fd) (0x20000 + off)

/-- Word k of a layer descriptor (Tables 11.6 to 11.9). -/
def ldReg (fd l k : Nat) : Nat := ueReg fd (0x1000 + 0x80 * l + 8 * k)

/-- UE_LDl_STATE (Table 11.22). -/
def ldState (fd l : Nat) : Nat := ueReg fd (0x5000 + 8 * l)

/-- A field of a layer descriptor. -/
def State.ld (s : State) (fd l k hi lo : Nat) : Nat := s.regField (ldReg fd l k) hi lo

/-- PHASE of a layer: 0 IDLE, 1 WAITING, 2 STATS, 3 UPDATE, 4 DONE, 5 SKIPPED, 6 SKEW, 7 FAULT. -/
def State.ldPhase (s : State) (fd l : Nat) : Nat := s.regField (ldState fd l) 63 61

/-- The state with a layer's PHASE set. -/
def State.setPhase (s : State) (fd l v : Nat) : State := s.setField (ldState fd l) 63 61 v

/-- A cluster beyond its registers. -/
def State.cluster (s : State) (fd : Nat) : UeSt := mapGet UeSt.reset s.ue fd

/-- The state with a cluster replaced. -/
def State.setCluster (s : State) (fd : Nat) (x : UeSt) : State := { s with ue := mapSet UeSt.reset s.ue fd x }

/-- A layer beyond its registers. -/
def State.layer (s : State) (fd l : Nat) : UeLayer := mapGet UeLayer.reset (s.cluster fd).layers l

/-- The state with a layer replaced. -/
def State.setLayer (s : State) (fd l : Nat) (x : UeLayer) : State :=
  let c := s.cluster fd
  s.setCluster fd { c with layers := mapSet UeLayer.reset c.layers l x }

/-- An update core. -/
def State.core (s : State) (fd c : Nat) : VxSt := mapGet VxSt.reset (s.cluster fd).cores c

/-- The state with an update core replaced. -/
def State.setCore (s : State) (fd c : Nat) (x : VxSt) : State :=
  let u := s.cluster fd
  s.setCluster fd { u with cores := mapSet VxSt.reset u.cores c x }

/-- The layer that a core runs: it belongs to the group of a layer in STATS or UPDATE. -/
def State.layerOf (s : State) (fd c : Nat) : Option Nat :=
  (List.range 128).find? fun l => decide (s.ldPhase fd l = 2 ∨ s.ldPhase fd l = 3) && (s.layer fd l).cores.contains c

/-- Context of a layer. -/
def State.ldCtx (s : State) (fd l : Nat) : CtxId := Fin.ofNat 64 (s.ld fd l 3 19 14)

/-- Job seed under which a layer's generator runs (R408): its context's job's. -/
def State.ldSeed (s : State) (fd l : Nat) : BitVec 128 :=
  (s.slotOf (s.ldCtx fd l)).elim 0 fun d => (s.dom d).seed

/-- An event of a cluster (kind 0x07), its instance the lowest core of the layer's group. -/
def State.raiseUe (s : State) (fd l : Nat) (cls : EvClass) (code location detail : Nat) : State :=
  s.raise { cls := cls, code := code, die := 48 + fd, kind := 7, inst := ((s.layer fd l).cores.head?).getD 0,
            ctx := (s.ldCtx fd l).val, tile := none, location := location, step := s.ld fd l 2 63 32,
            layer := s.ld fd l 0 31 0, detail := detail }

/-- A flag of UE_FLAGS set, with the layer that set the first one (Table 11.18). -/
def State.ueFlag (s : State) (fd l bit : Nat) : State :=
  let a := ueReg fd 8
  let s := if s.regField a 63 58 = 0 then s.setField a 31 0 (s.ld fd l 0 31 0) else s
  s.setField a bit bit 1

/-- UE_STATUS.CORES_BUSY and the cores' running state after a layer's group ends or stops. -/
def State.coresStop (s : State) (fd l : Nat) : State :=
  (s.layer fd l).cores.foldl (fun s c => s.setCore fd c { s.core fd c with running := false }) s

/-- A layer's report may now be ready (R413): the context that collects its unit is tried. -/
def State.ueSettle (s : State) (fd l : Nat) : State :=
  match s.slotOf (s.ldCtx fd l) with
  | none => s
  | some d =>
    match (s.dom d).unit (s.ld fd l 3 13 0) with
    | none => s
    | some u => s.mbcTry u.mctx.val

/-- A layer goes to FAULT (R422): its cores stop, and the fault is recorded under the rule of R148. -/
def State.ueFault (s : State) (fd l core code : Nat) (pc addr : Nat) : State :=
  let a := ueReg fd 0x30
  let s := if s.regField a 34 34 = 1 then s
    else
      let v := putBits (putBits (putBits (putBits (putBits 0 63 56 code) 55 52 core) 40 35 (s.ldCtx fd l).val)
        34 34 1) 31 0 (s.ld fd l 0 31 0)
      ((s.setReg a v).setReg (a + 8) (putBits 0 47 0 pc)).setReg (a + 16) (putBits 0 47 0 (addr % 2 ^ 48))
  let s := (s.raiseUe fd l .contained (0x500 + code) pc 0).ueFlag fd l 59
  ((s.coresStop fd l).setPhase fd l 7).ueSettle fd l

/-! ### Banks (R401) -/

/-- The next 64 KiB boundary. -/
def up64k (n : Nat) : Nat := (n + 65535) / 65536 * 65536

/-- Rows on the j-th die of a layer's bank. -/
def State.ldRows (s : State) (fd l j : Nat) : Nat :=
  let rows := s.ld fd l 1 63 32
  let rpd := (rows + s.ld fd l 12 47 42 - 1) / s.ld fd l 12 47 42
  min ((j + 1) * rpd) rows - j * rpd

/-- Rows for each die. -/
def State.ldRpd (s : State) (fd l : Nat) : Nat :=
  (s.ld fd l 1 63 32 + s.ld fd l 12 47 42 - 1) / s.ld fd l 12 47 42

/-- Sections of Table 11.10. -/
inductive BankSec where
  | w | res | m | rs | cs | done
  deriving DecidableEq, Repr

/-- Offset of a section on a die that holds n rows, from the bank's first byte there; column statistics lie on the
first die. -/
def secAt (n cols : Nat) (nores first : Bool) (k : BankSec) : Nat :=
  let w := n * cols * 2
  let res := if nores then 0 else n * cols
  let oRes := up64k w
  let oM := if res = 0 then oRes else up64k (oRes + res)
  let oRs := up64k (oM + w)
  let oCs := up64k (oRs + n * 2)
  match k with
  | .w => 0
  | .res => oRes
  | .m => oM
  | .rs => oRs
  | .cs => oCs
  | .done => if first then oCs + cols * 2 else oRs + n * 2

/-- Offset of a section of a layer's bank on the j-th die. -/
def State.secOff (s : State) (fd l j : Nat) (k : BankSec) : Nat :=
  secAt (s.ldRows fd l j) (s.ld fd l 1 31 0) (decide (s.ld fd l 0 61 61 = 1)) (decide (j = 0)) k

/-- GA of bank k on the j-th die. -/
def State.bankGa (s : State) (fd l k j : Nat) : Nat := s.ld fd l (10 + k) 39 0 + j * 2 ^ 34

/-- GA of an element of a row-major section: its row's die, with `size` bytes an element. -/
def State.elemGa (s : State) (fd l k : Nat) (sec : BankSec) (size i c : Nat) : Nat :=
  let rpd := s.ldRpd fd l
  let j := i / rpd
  let width := match sec with | .rs => 1 | _ => s.ld fd l 1 31 0
  s.bankGa fd l k j + s.secOff fd l j sec + ((i % rpd) * width + c) * size

/-! ### Gradient (R398) -/

/-- The notice that a layer holds for a bucket. -/
def State.noticeOf (s : State) (fd l bid : Nat) : Option Notice :=
  (s.layer fd l).held.find? fun n => decide (n.bid.toNat = bid)

/-- Bytes of a bucket, by its descriptor in the module (R371). -/
def State.bucketBytes (s : State) (bid : Nat) : Nat :=
  match s.bktOf (bid % 4) bid with
  | some b => s.bktF (bid % 4) b 3 63 48 * 65536
  | none => 0

/-- Where the gradient elements of a layer lie, bucket by bucket: first GA, bytes, bytes of an element. -/
def State.gradRanges (s : State) (fd l : Nat) : Nat → Nat → Nat → Nat → List (Nat × Nat × Nat)
  | 0, _, _, _ => []
  | fuel + 1, bid, skip, n =>
    match s.noticeOf fd l bid with
    | none => []
    | some x =>
      let es := if x.fmt64 then 8 else 4
      let len := s.bucketBytes bid / es
      let k := min n (len - skip)
      (if k = 0 then [] else [(x.destGa.toNat + skip * es, k * es, es)]) ++
        State.gradRanges s fd l fuel (bid + 1) (skip - len) (n - k)

/-- The gradient of a layer (R398). -/
def State.gradOf (s : State) (fd l : Nat) : List (Nat × Nat × Nat) :=
  s.gradRanges fd l (s.ld fd l 12 63 48) (s.ld fd l 0 47 32) (s.ld fd l 12 31 0) (s.ld fd l 1 63 32 * s.ld fd l 1 31 0)

/-- The windows open to a running layer (R391), as (first GA, bytes, writable). -/
def State.ueWindows (s : State) (fd l : Nat) : List (Nat × Nat × Bool) :=
  let live := s.ld fd l 0 60 60
  let dies := List.range (s.ld fd l 12 47 42)
  (dies.map fun j => (s.bankGa fd l live j, s.secOff fd l j .done, false)) ++
  (dies.map fun j => (s.bankGa fd l (1 - live) j, s.secOff fd l j .done, true)) ++
  ((s.gradOf fd l).map fun r => (r.1, r.2.1, false)) ++
  [(s.ld fd l 13 39 0, 1024, true), (s.ld fd l 8 39 0, s.ld fd l 8 63 48 * 4, false)]

/-- Whether an access of a core lies inside an open window that permits it. RED_MC_GO may be written
only. -/
def State.ueMay (s : State) (fd l ga n : Nat) (write : Bool) : Bool :=
  (write && decide (ga = redReg fd 0x10 ∧ n = 8)) ||
  (s.ueWindows fd l).any fun w => decide (w.1 ≤ ga ∧ ga + n ≤ w.1 + w.2.1) && (w.2.2 || !write)

/-- Space of Table 11.3 that a core's address lies in: its local memory, shared memory or a GA, with the
offset; `none` where the table has none. -/
def ueSpace (va : Nat) : Option (Nat × Nat) :=
  let sp := va / 2 ^ 40 % 256
  let off := va % 2 ^ 40
  if sp = 0 ∧ off < 2 ^ 18 then some (0, off)
  else if sp = 1 ∧ off < 2 ^ 20 then some (1, off)
  else if sp = 2 then some (2, off)
  else none

/-- Bytes of local or shared memory. -/
def State.ueBytes (s : State) (fd c space off n : Nat) : List Byte :=
  let u := s.cluster fd
  (List.range n).map fun i =>
    if space = 0 then mapGet 0 u.loc (c * 2 ^ 18 + off + i) else mapGet 0 u.shared (off + i)

/-- Bytes written to local or shared memory. -/
def State.uePut (s : State) (fd c space off : Nat) (bs : List Byte) : State :=
  let u := s.cluster fd
  if space = 0 then s.setCluster fd { u with loc := memPut u.loc (c * 2 ^ 18 + off) bs }
  else s.setCluster fd { u with shared := memPut u.shared off bs }

end Sys2Proof.Machine
end

