-- ==== Sys2Proof/Machine/VxFn.lean ====
section
/-!
DEFINITION. What the vector-engine instructions compute (chapter 5), as functions of a word and the
engine's registers, for a tile's engine and for an update core (Table 11.2).
-/

namespace Sys2Proof.Machine

/-- What an engine brings to an instruction: bits of a vector register, the job seed, the job step
(R171) and a value for what no rule states (DESIGN CHOICE, log entry 6). -/
structure VxEnv where
  rbits : Nat
  key   : BitVec 128
  step  : BitVec 32
  free  : BitVec 64
  deriving DecidableEq, Repr

/-- The flags of Table 5.15. -/
structure VxFlags where
  sat     : Bool
  eovf    : Bool
  rovf    : Bool
  wovf    : Bool
  special : Bool
  deriving DecidableEq, Repr

/-- No flag. -/
def VxFlags.none : VxFlags := ⟨false, false, false, false, false⟩

/-- Flags of two parts together. -/
def VxFlags.or (a b : VxFlags) : VxFlags :=
  ⟨a.sat || b.sat, a.eovf || b.eovf, a.rovf || b.rovf, a.wovf || b.wovf, a.special || b.special⟩

/-- A fault of Table 5.12: code, lowest element, address. -/
structure VxErr where
  code : Nat
  elem : Nat
  addr : Nat
  deriving DecidableEq, Repr

/-- What an instruction leaves: registers, flags, active elements, CBG-128 evaluations, whether it
used the free value, and the words a taken branch moves the program counter by. -/
structure VxOut where
  st    : VxSt
  flags : VxFlags
  elems : Nat
  cbg   : Nat
  used  : Bool
  jump  : Option Int
  deriving DecidableEq, Repr

/-- An instruction that leaves registers and nothing else. -/
def vxOk (st : VxSt) : Except VxErr VxOut := .ok ⟨st, .none, 0, 0, false, none⟩

/-- The illegal-instruction fault (R161). -/
def vxIllegal : Except VxErr VxOut := .error ⟨1, 0, 0⟩

/-! ### Fields of a word (Table 5.2) -/

def vxType (w : BitVec 56) : Nat := wbits w 55 52
def vxType2 (w : BitVec 56) : Nat := wbits w 51 48
def vxVd (w : BitVec 56) : Nat := wbits w 47 43
def vxVs1 (w : BitVec 56) : Nat := wbits w 42 38
def vxVs2 (w : BitVec 56) : Nat := wbits w 37 33
def vxVs3 (w : BitVec 56) : Nat := wbits w 32 28
def vxPm (w : BitVec 56) : Nat := wbits w 27 25
def vxMz (w : BitVec 56) : Bool := decide (wbits w 24 24 = 1)
def vxSr (w : BitVec 56) : Bool := decide (wbits w 23 23 = 1)
def vxHead (w : BitVec 56) : Nat := wbits w 22 18
def vxAnchor (w : BitVec 56) : Int := ofTwos 8 (wbits w 17 10)
def vxImm (w : BitVec 56) : Nat := wbits w 9 0
def vxImmS (w : BitVec 56) : Int := ofTwos 10 (vxImm w)

/-! ### Types (Table 5.3) -/

/-- Whether a TYPE code is defined. -/
def vxTypeOk (ty : Nat) : Bool := decide (ty ≤ 0xB)

/-- Width of a type in bits. -/
def vxWidth (ty : Nat) : Nat :=
  match ty with
  | 0 => 8
  | 1 => 16
  | 2 => 32
  | 3 => 64
  | 4 => 8
  | 5 => 16
  | 6 => 32
  | 7 => 64
  | 8 => 16
  | 9 => 32
  | 10 => 32
  | _ => 64

/-- Integer types. -/
def vxInt (ty : Nat) : Bool := decide (ty ≤ 7)

/-- Signed integer types. -/
def vxSigned (ty : Nat) : Bool := decide (ty ≤ 3)

/-- Floating-point types. -/
def vxFloat (ty : Nat) : Bool := decide (ty = 8 ∨ ty = 9)

/-- ESF types. -/
def vxEsf (ty : Nat) : Bool := decide (ty = 10 ∨ ty = 11)

/-- Format of a floating-point type. -/
def vxFmt (ty : Nat) : FFmt := if ty = 8 then fmt16 else fmt32

/-- The integer that an element of an integer type stands for. -/
def vxIntVal (ty b : Nat) : Int := if vxSigned ty then ofTwos (vxWidth ty) b else (b : Int)

/-- Smallest value of an integer type. -/
def vxIntMin (ty : Nat) : Int := if vxSigned ty then -(2 ^ (vxWidth ty - 1)) else 0

/-- Largest value of an integer type. -/
def vxIntMax (ty : Nat) : Int :=
  if vxSigned ty then 2 ^ (vxWidth ty - 1) - 1 else 2 ^ vxWidth ty - 1

/-- VLMAX(w) for a register width. -/
def vlMax (rbits w : Nat) : Nat := rbits / w

/-- VLEW in bits, from its code. -/
def VxSt.ew (x : VxSt) : Nat := 8 * 2 ^ x.vlew

/-- Code of an element width (Table 5.14). -/
def ewCode (w : Nat) : Nat := if w = 8 then 0 else if w = 16 then 1 else if w = 32 then 2 else 3

/-! ### Registers (R154) -/

/-- A scalar register; s0 reads as 0. -/
def VxSt.s (x : VxSt) (i : Nat) : BitVec 64 := if i = 0 then 0 else mapGet 0 x.sreg i

/-- A scalar register written; writes to s0 do nothing. -/
def VxSt.setS (x : VxSt) (i : Nat) (v : BitVec 64) : VxSt :=
  if i = 0 then x else { x with sreg := mapSet 0 x.sreg i v }

/-- A mask register; p0 reads as all ones. -/
def VxSt.pr (x : VxSt) (i : Nat) : BitVec 512 := if i = 0 then BitVec.allOnes 512 else mapGet 0 x.p i

/-- A mask register written; writes to p0 are ignored. -/
def VxSt.setP (x : VxSt) (i : Nat) (v : BitVec 512) : VxSt :=
  if i = 0 then x else { x with p := mapSet 0 x.p i v }

/-- A vector register. -/
def VxSt.vr (x : VxSt) (i : Nat) : BitVec 4096 := mapGet 0 x.v i

/-- A vector register written. -/
def VxSt.setV (x : VxSt) (i : Nat) (v : BitVec 4096) : VxSt := { x with v := mapSet 0 x.v i v }

/-- Element i of width w of a vector register (Table 5.1). -/
def vget (r : BitVec 4096) (w i : Nat) : Nat := (r >>> (w * i)).toNat % 2 ^ w

/-- A vector register with an element replaced. -/
def vput (r : BitVec 4096) (w i v : Nat) : BitVec 4096 :=
  (r &&& ~~~(BitVec.ofNat 4096 (2 ^ w - 1) <<< (w * i))) ||| (BitVec.ofNat 4096 (v % 2 ^ w) <<< (w * i))

/-- Element i of vector register n. -/
def VxSt.el (x : VxSt) (n w i : Nat) : Nat := vget (x.vr n) w i

/-- Whether an element is active: below the count and not masked off (R156). -/
def VxSt.act (x : VxSt) (w : BitVec 56) (i : Nat) : Bool := (x.pr (vxPm w)).getLsbD i

/-- The active elements below n, ascending. -/
def VxSt.actives (x : VxSt) (w : BitVec 56) (n : Nat) : List Nat := (List.range n).filter (x.act w)

/-- Results for elements 0 to n − 1 merged into a register (R156): active elements are written,
masked-off ones are zeroed under MZ. -/
def vmerge (x : VxSt) (wd : BitVec 56) (w : Nat) (f : Nat → Nat) : Nat → BitVec 4096 → BitVec 4096
  | 0, r => r
  | n + 1, r =>
    let r := vmerge x wd w f n r
    if x.act wd n then vput r w n (f n) else if vxMz wd then vput r w n 0 else r

/-- A mask with bits below n set by a function and those from n on clear (R159). -/
def pbuild (f : Nat → Bool) : Nat → BitVec 512
  | 0 => 0
  | n + 1 => pbuild f n ||| (if f n then 1#512 <<< n else 0)

/-- The VL fault of R157. -/
def vlFault (e : VxEnv) (x : VxSt) (w : Nat) : Bool := decide (x.ew < w ∧ vlMax e.rbits w < x.vl)

/-- Checks that every word meets (R161): the reserved TYPE and HEAD encodings. -/
def vxWordOk (w : BitVec 56) : Bool := vxTypeOk (vxType w) && decide (vxHead w ≤ 24)

/-- An element-wise instruction over the first VL elements: `ok` says whether the word is legal,
`w` the widest operand, `f` each element's result and flags. -/
def vxElems (e : VxEnv) (x : VxSt) (wd : BitVec 56) (ok : Bool) (w : Nat)
    (f : Nat → Nat × VxFlags) : Except VxErr VxOut :=
  if !(vxWordOk wd && ok) then vxIllegal
  else if vlFault e x w then .error ⟨2, 0, 0⟩
  else
    let a := x.actives wd x.vl
    let r := vmerge x wd (vxWidth (vxType wd)) (fun i => (f i).1) x.vl (x.vr (vxVd wd))
    .ok ⟨x.setV (vxVd wd) r, a.foldl (fun g i => g.or (f i).2) .none, a.length, 0, false, none⟩

/-! ### Scalar instructions -/

/-- VX.SETVL (R155). -/
def vxSetvl (e : VxEnv) (x : VxSt) (wd : BitVec 56) : Except VxErr VxOut :=
  if !(vxWordOk wd) then vxIllegal
  else
    let w := vxWidth (vxType wd)
    let n := min (min (x.s (vxVs1 wd)).toNat (e.rbits / 8)) (vlMax e.rbits w)
    vxOk ({ x with vl := n, vlew := ewCode w }.setS (vxVd wd) (BitVec.ofNat 64 n))

/-- A scalar result. -/
def vxScalar (x : VxSt) (wd : BitVec 56) (v : BitVec 64) : Except VxErr VxOut :=
  if !(vxWordOk wd) then vxIllegal else vxOk (x.setS (vxVd wd) v)

/-- A branch (VX.SBNE, VX.SBLT). -/
def vxBranch (x : VxSt) (wd : BitVec 56) (taken : Bool) : Except VxErr VxOut :=
  if !(vxWordOk wd) then vxIllegal
  else .ok ⟨x, .none, 0, 0, false, if taken then some (vxImmS wd) else none⟩

/-! ### Element operations (R162) -/

/-- A floating-point result with the flags of R162; `fin` says whether the operands are finite. -/
def floatRes (ty : Nat) (fin : Bool) (v : FVal) : Nat × VxFlags :=
  let b := (vxFmt ty).encode v
  match (vxFmt ty).decode b with
  | .nan => (b, { VxFlags.none with special := true })
  | .inf _ => (b, { VxFlags.none with special := true, rovf := fin })
  | .fin _ _ _ => (b, .none)

/-- Whether a value is finite. -/
def FVal.isFin (v : FVal) : Bool := match v with | .fin _ _ _ => true | _ => false

/-- Decoded element of a floating-point type. -/
def vxF (ty b : Nat) : FVal := (vxFmt ty).decode b

/-- A unary floating-point operation on an element. -/
def float1 (ty : Nat) (f : FVal → FVal) (a : Nat) : Nat × VxFlags :=
  floatRes ty (vxF ty a).isFin (f (vxF ty a))

/-- A binary floating-point operation on elements. -/
def float2 (ty : Nat) (f : FVal → FVal → FVal) (a b : Nat) : Nat × VxFlags :=
  floatRes ty ((vxF ty a).isFin && (vxF ty b).isFin) (f (vxF ty a) (vxF ty b))

/-- An integer result, wrapped to the width. -/
def intRes (ty : Nat) (v : Int) : Nat × VxFlags := (toTwos (vxWidth ty) v, .none)

/-- Addition, subtraction and multiplication of elements. -/
def vxArith (ty : Nat) (fi : Int → Int → Int) (ff : FVal → FVal → FVal) (a b : Nat) : Nat × VxFlags :=
  if vxInt ty then intRes ty (fi (vxIntVal ty a) (vxIntVal ty b)) else float2 ty ff a b

/-- FVal difference. -/
def FVal.sub (a b : FVal) : FVal := FVal.add a (FVal.neg b)

/-- Fused multiply-add, rounded once (VX.FMA). -/
def vxFmaEl (ty a b c : Nat) : Nat × VxFlags :=
  if vxInt ty then intRes ty (vxIntVal ty a * vxIntVal ty b + vxIntVal ty c)
  else floatRes ty ((vxF ty a).isFin && (vxF ty b).isFin && (vxF ty c).isFin)
    (FVal.add (FVal.mul (vxF ty a) (vxF ty b)) (vxF ty c))

/-- Minimum or maximum of two elements (Table 2.6). -/
def vxPick (maxi : Bool) (ty a b : Nat) : Nat × VxFlags :=
  if vxInt ty then
    (if maxi then (if vxIntVal ty a < vxIntVal ty b then b else a)
     else (if vxIntVal ty b < vxIntVal ty a then b else a), .none)
  else floatRes ty false (FVal.pick maxi (vxF ty a) (vxF ty b))

/-- Shift by vs2 mod w. -/
def vxShift (left : Bool) (ty a b : Nat) : Nat × VxFlags :=
  let w := vxWidth ty
  let k := b % w
  if left then (a * 2 ^ k % 2 ^ w, .none)
  else if vxSigned ty then intRes ty (Int.fdiv (vxIntVal ty a) (2 ^ k))
  else (a / 2 ^ k, .none)

/-- The functions of VX.FN by IMM. -/
def vxFnOf (k : Nat) : FVal → FVal :=
  match k with
  | 0 => FVal.exp
  | 1 => FVal.log
  | 2 => FVal.tanh
  | 3 => FVal.rcp
  | 4 => FVal.rsqrt
  | _ => FVal.sigmoid

/-- ESF element sum (R172). -/
def vxEaddEl (ty a b : Nat) : Nat × VxFlags :=
  let w := vxWidth ty
  let r := esfAddSat w a b
  (r.1, { VxFlags.none with eovf := r.2, special := decide (r.1 = esfSpecial w) })

/-- The comparisons of VX.CMP. -/
def vxCompare (k ty a b : Nat) : Bool :=
  let lt (a b : Nat) : Bool :=
    if vxFloat ty then FVal.numLt (vxF ty a) (vxF ty b) else decide (vxIntVal ty a < vxIntVal ty b)
  let eq : Bool :=
    if vxFloat ty then FVal.numEq (vxF ty a) (vxF ty b) else decide (a = b)
  let un : Bool := vxFloat ty && ((vxF ty a).isNan || (vxF ty b).isNan)
  match k with
  | 0 => eq
  | 1 => !eq
  | 2 => lt a b
  | 3 => lt a b || eq
  | 4 => lt b a
  | 5 => lt b a || eq
  | _ => un

/-- VX.CMP (R159). -/
def vxCmp (e : VxEnv) (x : VxSt) (wd : BitVec 56) : Except VxErr VxOut :=
  let ty := vxType wd
  let w := vxWidth ty
  if !(vxWordOk wd && !(vxEsf ty) && decide (vxImm wd ≤ 6 ∧ vxVd wd ≤ 7)) then vxIllegal
  else if vlFault e x w then .error ⟨2, 0, 0⟩
  else
    let f (i : Nat) : Bool := x.act wd i &&
      vxCompare (vxImm wd) ty (x.el (vxVs1 wd) w i) (x.el (vxVs2 wd) w i)
    .ok ⟨x.setP (vxVd wd) (pbuild f x.vl), .none, (x.actives wd x.vl).length, 0, false, none⟩

/-- VX.EXT. An index beyond the register names no element, so the value is free (DEDUCED, log entry 11). -/
def vxExt (e : VxEnv) (x : VxSt) (wd : BitVec 56) : Except VxErr VxOut :=
  let w := vxWidth (vxType wd)
  if !(vxWordOk wd) then vxIllegal
  else if vlFault e x w then .error ⟨2, 0, 0⟩
  else
    let i := (x.s (vxVs2 wd)).toNat
    if i < vlMax e.rbits w then vxOk (x.setS (vxVd wd) (BitVec.ofNat 64 (x.el (vxVs1 wd) w i)))
    else .ok ⟨x.setS (vxVd wd) (BitVec.ofNat 64 (e.free.toNat % 2 ^ w)), .none, 0, 0, true, none⟩

/-- The operations of VX.PLOG. -/
def vxMaskOp (k : Nat) (a b : Bool) : Bool :=
  match k with
  | 0 => a && b
  | 1 => a || b
  | 2 => a != b
  | _ => a && !b

/-- VX.PLOG: mask bits below VL, under R156 (DEDUCED, log entry 11). -/
def vxPlog (x : VxSt) (wd : BitVec 56) : Except VxErr VxOut :=
  if !(vxWordOk wd && decide (vxImm wd ≤ 3 ∧ vxVd wd ≤ 7 ∧ vxVs1 wd ≤ 7 ∧ vxVs2 wd ≤ 7)) then vxIllegal
  else
    let old := x.pr (vxVd wd)
    let f (i : Nat) : Bool :=
      if x.vl ≤ i then old.getLsbD i
      else if x.act wd i then
        vxMaskOp (vxImm wd) ((x.pr (vxVs1 wd)).getLsbD i) ((x.pr (vxVs2 wd)).getLsbD i)
      else old.getLsbD i && !(vxMz wd)
    .ok ⟨x.setP (vxVd wd) (pbuild f 512), .none, (x.actives wd x.vl).length, 0, false, none⟩

/-- VX.PCNT. -/
def vxPcnt (x : VxSt) (wd : BitVec 56) : Except VxErr VxOut :=
  if !(vxWordOk wd && decide (vxVs1 wd ≤ 7)) then vxIllegal
  else vxOk (x.setS (vxVd wd)
    (BitVec.ofNat 64 ((List.range x.vl).filter fun i => (x.pr (vxVs1 wd)).getLsbD i).length))

/-! ### Rearrangement (R165 to R169) -/

/-- Index of element i, from vector register n as 16-bit values (R165). -/
def vxIndex (e : VxEnv) (x : VxSt) (w n i : Nat) : Nat :=
  let half := vlMax e.rbits 16
  if w = 8 ∧ half ≤ i then x.el (n + 1) 16 (i - half) else x.el n 16 i

/-- Whether the index registers exist. -/
def vxIndexOk (e : VxEnv) (x : VxSt) (w n : Nat) : Bool :=
  !(decide (w = 8 ∧ vlMax e.rbits 16 < x.vl ∧ 31 ≤ n))

/-- VX.PERM. -/
def vxPerm (e : VxEnv) (x : VxSt) (wd : BitVec 56) : Except VxErr VxOut :=
  let w := vxWidth (vxType wd)
  vxElems e x wd (vxIndexOk e x w (vxVs2 wd)) w fun i =>
    let k := vxIndex e x w (vxVs2 wd) i
    (if k < x.vl then x.el (vxVs1 wd) w k else 0, .none)

/-- VX.PERM2. -/
def vxPerm2 (e : VxEnv) (x : VxSt) (wd : BitVec 56) : Except VxErr VxOut :=
  let w := vxWidth (vxType wd)
  vxElems e x wd (vxIndexOk e x w (vxVs3 wd)) w fun i =>
    let k := vxIndex e x w (vxVs3 wd) i
    (if k < x.vl then x.el (vxVs1 wd) w k
     else if k < 2 * x.vl then x.el (vxVs2 wd) w (k - x.vl) else 0, .none)

/-- VX.SHUF (Table 5.6). -/
def vxShuf (e : VxEnv) (x : VxSt) (wd : BitVec 56) : Except VxErr VxOut :=
  let w := vxWidth (vxType wd)
  let k := vxImm wd
  let src (n j : Nat) : Nat := if j < x.vl then x.el n w j else 0
  vxElems e x wd (decide (vxType2 wd ≤ 5)) w fun i =>
    (match vxType2 wd with
     | 0 => src (vxVs1 wd) ((i + k) % x.vl)
     | 1 => src (vxVs1 wd) k
     | 2 => src (vxVs1 wd) (x.vl - 1 - i)
     | 3 => src (vxVs1 wd) (i ^^^ k)
     | 4 => if i % 2 = 0 then src (vxVs1 wd) (k + i / 2) else src (vxVs2 wd) (k + (i - 1) / 2)
     | _ => if 2 * i + k < x.vl then src (vxVs1 wd) (2 * i + k)
            else src (vxVs2 wd) (2 * i + k - x.vl), .none)

/-- An integer clamped to a type, and whether it moved. -/
def vxClamp (ty : Nat) (v : Int) : Int × Bool :=
  if vxIntMax ty < v then (vxIntMax ty, true)
  else if v < vxIntMin ty then (vxIntMin ty, true)
  else (v, false)

/-- The flags of a floating-point or ESF element that was produced. -/
def madeFlags (ty b : Nat) (rovf eovf : Bool) : VxFlags :=
  ⟨false, eovf, rovf, false, if vxFloat ty then !(vxF ty b).isFin
    else vxEsf ty && decide (b = esfSpecial (vxWidth ty))⟩

/-- One element narrowed (R167). -/
def vxNarrow (ty ty2 : Nat) (sat : Bool) (b : Nat) : Nat × VxFlags :=
  if vxInt ty then
    if sat then
      let c := vxClamp ty (vxIntVal ty2 b)
      (toTwos (vxWidth ty) c.1, { VxFlags.none with sat := c.2 })
    else (b % 2 ^ vxWidth ty, .none)
  else
    let r := fmt16.readout .rne (fmt32.decode b)
    (r.1, madeFlags ty r.1 r.2 false)

/-- VX.PACK. -/
def vxPack (e : VxEnv) (x : VxSt) (wd : BitVec 56) : Except VxErr VxOut :=
  let ty := vxType wd
  let ty2 := vxType2 wd
  let w := vxWidth ty
  let ok := vxTypeOk ty2 && ((vxInt ty && vxInt ty2 && decide (vxWidth ty2 = 2 * w)) ||
    decide (ty = 8 ∧ ty2 = 9))
  if !(vxWordOk wd && ok) then vxIllegal
  else if vlFault e x (2 * w) then .error ⟨2, 0, 0⟩
  else
    let f (j : Nat) : Nat × VxFlags := vxNarrow ty ty2 (decide (vxImm wd % 2 = 1))
      (if j < x.vl then x.el (vxVs1 wd) (2 * w) j else x.el (vxVs2 wd) (2 * w) (j - x.vl))
    let n := 2 * x.vl
    let a := x.actives wd n
    .ok ⟨x.setV (vxVd wd) (vmerge x wd w (fun i => (f i).1) n (x.vr (vxVd wd))),
      a.foldl (fun g i => g.or (f i).2) .none, a.length, 0, false, none⟩

/-- One element widened (R168). -/
def vxWiden (ty ty2 b : Nat) : Nat × VxFlags :=
  if vxInt ty then intRes ty (vxIntVal ty2 b)
  else if ty = 9 then
    let r := fmt32.encode (fmt16.decode b)
    (r, madeFlags ty r false false)
  else
    let r := if b = esfSpecial 32 then esfSpecial 64 else toTwos 64 (ofTwos 32 b)
    (r, madeFlags ty r false false)

/-- VX.UNPACK. -/
def vxUnpack (e : VxEnv) (x : VxSt) (wd : BitVec 56) : Except VxErr VxOut :=
  let ty := vxType wd
  let ty2 := vxType2 wd
  let w := vxWidth ty2
  let ok := vxTypeOk ty2 && ((vxInt ty && vxInt ty2 && decide (vxWidth ty = 2 * w)) ||
    decide (ty = 9 ∧ ty2 = 8) || decide (ty = 11 ∧ ty2 = 10))
  vxElems e x wd ok (2 * w) fun j =>
    let k := j + vxImm wd
    if k < vlMax e.rbits w then vxWiden ty ty2 (x.el (vxVs1 wd) w k) else (0, .none)

/-- VX.COMPRESS (R169). -/
def vxCompress (e : VxEnv) (x : VxSt) (wd : BitVec 56) : Except VxErr VxOut :=
  let w := vxWidth (vxType wd)
  if !(vxWordOk wd) then vxIllegal
  else if vlFault e x w then .error ⟨2, 0, 0⟩
  else
    let a := x.actives wd x.vl
    let r := (List.range x.vl).foldl (fun r i =>
      vput r w i (match a[i]? with | some k => x.el (vxVs1 wd) w k | none => 0)) (x.vr (vxVd wd))
    .ok ⟨(x.setV (vxVd wd) r).setS (vxVs3 wd) (BitVec.ofNat 64 a.length), .none, a.length, 0, false, none⟩

/-! ### Conversion (R170, R171) -/

/-- The value of an element of any type; an ESF source has its anchor in IMM[7:0]. -/
def vxValue (ty : Nat) (anchor : Int) (b : Nat) : FVal :=
  if vxInt ty then let v := vxIntVal ty b; .fin (decide (v < 0)) v.natAbs 0
  else if vxFloat ty then vxF ty b
  else esfValue (vxWidth ty) anchor b

/-- One element converted (R170). -/
def vxConvert (ty : Nat) (anchor : Int) (head : Nat) (rm : Rounding) (v : FVal) : Nat × VxFlags :=
  if vxFloat ty then
    let r := (vxFmt ty).readout rm v
    (r.1, madeFlags ty r.1 r.2 false)
  else if vxEsf ty then
    let r := esfReadout (vxWidth ty) anchor head rm v
    (r.1, { VxFlags.none with eovf := r.2.1, special := r.2.2 })
  else
    match v with
    | .nan => (0, { VxFlags.none with special := true })
    | .inf neg => (toTwos (vxWidth ty) (if neg then vxIntMin ty else vxIntMax ty),
        { VxFlags.none with rovf := true })
    | .fin neg m x =>
      let c := vxClamp ty (sgn neg (roundMag rm m x 0))
      (toTwos (vxWidth ty) c.1, { VxFlags.none with rovf := c.2 })

/-- Flat index of element i from a base in a scalar register (R171). -/
def flatIndex (base : BitVec 64) (i : Nat) : Nat := (base.toNat % 2 ^ 48 + i) % 2 ^ 48

/-- Evaluations of CBG-128 that give the 16-bit values of some flat indices. -/
def cbgBlocks (base : BitVec 64) (l : List Nat) : Nat :=
  ((l.map fun i => flatIndex base i / 8).dedup).length

/-- VX.CVT. -/
def vxCvt (e : VxEnv) (x : VxSt) (wd : BitVec 56) : Except VxErr VxOut :=
  let ty := vxType wd
  let ty2 := vxType2 wd
  let tensor := (x.s (vxVs2 wd)).truncate 32
  let base := x.s (vxVs3 wd)
  let r := vxElems e x wd (vxTypeOk ty2) (max (vxWidth ty) (vxWidth ty2)) fun i =>
    vxConvert ty (vxAnchor wd) (vxHead wd)
      (roundingOf (vxSr wd) e.key tensor e.step (flatIndex base i))
      (vxValue ty2 (ofTwos 8 (vxImm wd % 256)) (x.el (vxVs1 wd) (vxWidth ty2) i))
  match r with
  | .error f => .error f
  | .ok o => .ok { o with cbg := if vxSr wd then cbgBlocks base (x.actives wd x.vl) else 0 }

/-! ### Reductions (R173, R174) -/

/-- A reduction: legality, the result and flags from the active elements. -/
def vxReduce (e : VxEnv) (x : VxSt) (wd : BitVec 56) (ok : Bool)
    (f : List Nat → BitVec 64 × VxFlags) : Except VxErr VxOut :=
  let w := vxWidth (vxType wd)
  if !(vxWordOk wd && ok) then vxIllegal
  else if vlFault e x w then .error ⟨2, 0, 0⟩
  else
    let a := x.actives wd x.vl
    let r := f (a.map fun i => x.el (vxVs1 wd) w i)
    .ok ⟨x.setS (vxVd wd) r.1, r.2, a.length, 0, false, none⟩

/-- Exact sum of elements of an integer type. -/
def vxSum (ty : Nat) (l : List Nat) : Int := l.foldl (fun a b => a + vxIntVal ty b) 0

/-- VX.RADD. -/
def vxRadd (e : VxEnv) (x : VxSt) (wd : BitVec 56) : Except VxErr VxOut :=
  vxReduce e x wd (vxInt (vxType wd)) fun l => (BitVec.ofInt 64 (vxSum (vxType wd) l), .none)

/-- VX.RADDS. -/
def vxRadds (e : VxEnv) (x : VxSt) (wd : BitVec 56) : Except VxErr VxOut :=
  vxReduce e x wd (vxInt (vxType wd)) fun l =>
    let c := vxClamp (vxType wd) (vxSum (vxType wd) l)
    (BitVec.ofInt 64 c.1, { VxFlags.none with sat := c.2 })

/-- The identity of a minimum or maximum (Table 5.7). -/
def vxIdentity (maxi : Bool) (ty : Nat) : Nat :=
  if vxInt ty then toTwos (vxWidth ty) (if maxi then vxIntMin ty else vxIntMax ty)
  else (vxFmt ty).signBit maxi + (vxFmt ty).infBits

/-- The minimum or maximum of a list, with flags; the identity, without flags, of none. -/
def vxExtreme (maxi : Bool) (ty : Nat) (l : List Nat) : Nat × VxFlags :=
  match l with
  | [] => (vxIdentity maxi ty, .none)
  | b :: rest =>
    let r := rest.foldl (fun a c => (vxPick maxi ty a c).1) (vxPick maxi ty b b).1
    (r, if vxFloat ty then madeFlags ty r false false else .none)

/-- VX.RMIN and VX.RMAX. -/
def vxRext (maxi : Bool) (e : VxEnv) (x : VxSt) (wd : BitVec 56) : Except VxErr VxOut :=
  vxReduce e x wd (!(vxEsf (vxType wd))) fun l =>
    let r := vxExtreme maxi (vxType wd) l
    (BitVec.ofNat 64 r.1, r.2)

/-- VX.RARGMAX: lowest index holding the maximum, or a NaN where one is present. -/
def vxRargmax (e : VxEnv) (x : VxSt) (wd : BitVec 56) : Except VxErr VxOut :=
  let ty := vxType wd
  let w := vxWidth ty
  if !(vxWordOk wd && !(vxEsf ty)) then vxIllegal
  else if vlFault e x w then .error ⟨2, 0, 0⟩
  else
    let a := x.actives wd x.vl
    let el (i : Nat) : Nat := x.el (vxVs1 wd) w i
    let top := (vxExtreme true ty (a.map el)).1
    let hit := a.find? fun i => decide ((vxPick true ty (el i) (el i)).1 = top)
    .ok ⟨x.setS (vxVd wd) (hit.elim (BitVec.allOnes 64) (BitVec.ofNat 64)), .none, a.length, 0, false, none⟩

/-- A running exact sum in ESF-64 (R174): value, whether special. -/
structure XSum where
  v       : Int
  special : Bool
  flags   : VxFlags
  deriving DecidableEq, Repr

/-- The sum written to sd: saturated once, special code absorbing. -/
def XSum.out (sd : BitVec 64) (z : XSum) (esf : Bool) : BitVec 64 × VxFlags :=
  if z.special ∨ sd = 0x8000000000000000 then (0x8000000000000000, z.flags)
  else
    let v := sd.toInt + z.v
    let m : Int := 2 ^ 63 - 1
    let past := decide (m < v ∨ v < -m)
    let f := if esf then { z.flags with eovf := z.flags.eovf || past }
             else { z.flags with wovf := z.flags.wovf || past }
    (BitVec.ofInt 64 (if m < v then m else if v < -m then -m else v), f)

/-- VX.FSUMX and VX.FSSQX. -/
def vxFsum (square : Bool) (e : VxEnv) (x : VxSt) (wd : BitVec 56) : Except VxErr VxOut :=
  let ty := vxType wd
  vxReduce e x wd (vxFloat ty) fun l =>
    let z := l.foldl (fun (z : XSum) b =>
      match vxF ty b with
      | .fin neg m p =>
        let q := if square then windowProduct (vxAnchor wd) (vxHead wd) false (m * m) (2 * p)
                 else windowProduct (vxAnchor wd) (vxHead wd) neg m p
        { z with v := z.v + q.1, flags := { z.flags with wovf := z.flags.wovf || q.2 } }
      | _ => { z with special := true, flags := { z.flags with special := true } }) ⟨0, false, .none⟩
    z.out (x.s (vxVd wd)) false

/-- VX.ESUM. -/
def vxEsum (e : VxEnv) (x : VxSt) (wd : BitVec 56) : Except VxErr VxOut :=
  let ty := vxType wd
  let w := vxWidth ty
  vxReduce e x wd (vxEsf ty) fun l =>
    let z := l.foldl (fun (z : XSum) b =>
      if b = esfSpecial w then { z with special := true, flags := { z.flags with special := true } }
      else { z with v := z.v + ofTwos w b }) ⟨0, false, .none⟩
    z.out (x.s (vxVd wd)) true

/-! ### Generator (R175, R176) -/

/-- VX.CBG. -/
def vxCbg (e : VxEnv) (x : VxSt) (wd : BitVec 56) : Except VxErr VxOut :=
  let ty := vxType wd
  let w := vxWidth ty
  let tensor := (x.s (vxVs1 wd)).truncate 32
  let base := x.s (vxVs2 wd)
  let purpose : BitVec 16 := (x.s (vxVs3 wd)).truncate 16
  let small := decide (purpose = 1 ∨ purpose = 2)
  let q := vxImm wd % 4
  let ok := vxInt ty && !(cbgPurposeReserved purpose) &&
    (if small then decide (w = 16) else decide ((w = 32 ∨ w = 64) ∧ q < 128 / w))
  let r := vxElems e x wd ok w fun i =>
    let k := flatIndex base i
    (if small then (cbg16 e.key tensor e.step purpose k).toNat
     else (cbg128 e.key (cbgCounter tensor e.step (BitVec.ofNat 48 k) purpose)).toNat >>> (w * q) % 2 ^ w,
     .none)
  match r with
  | .error f => .error f
  | .ok o => .ok { o with cbg := if small then cbgBlocks base (x.actives wd x.vl) else o.elems }

/-- VX.CBGM. -/
def vxCbgm (e : VxEnv) (x : VxSt) (wd : BitVec 56) : Except VxErr VxOut :=
  if !(vxWordOk wd && decide (vxVd wd ≤ 7)) then vxIllegal
  else
    let tensor := (x.s (vxVs1 wd)).truncate 32
    let base := x.s (vxVs2 wd)
    let limit := (x.s (vxVs3 wd)).toNat % 2 ^ 16
    let f (i : Nat) : Bool := x.act wd i &&
      decide (limit ≤ (cbg16 e.key tensor e.step 1 (flatIndex base i)).toNat)
    let a := x.actives wd x.vl
    .ok ⟨x.setP (vxVd wd) (pbuild f x.vl), .none, a.length, cbgBlocks base a, false, none⟩

/-! ### Element programs (R177 to R179) -/

/-- Types that a header names. -/
def epType (code : Nat) : Nat := if code = 0 then 8 else if code = 1 then 9 else 2

/-- Whether an element program of 41 words passes the check of R178. -/
def epCheck (p : List Nat) : Bool :=
  let h := p.getD 0 0
  let nops := h / 2 ^ 27 + 1
  let it := h / 2 ^ 22 % 4
  let ot := h / 2 ^ 20 % 4
  decide (h % 2 ^ 20 = 0 ∧ it ≠ 3 ∧ ot ≠ 3 ∧ (it = 2 ↔ ot = 2)) &&
  ((p.drop 1).take nops).all fun m =>
    let op := m / 2 ^ 26
    decide (op ≤ 0x11 ∧ m % 2 ^ 13 = 0) &&
    !(decide (it = 2) && (decide (m / 2 ^ 13 % 2 = 1) || decide (op = 4) ||
      decide (9 ≤ op ∧ op ≤ 14)))

/-- One micro-operation on the temporaries of an element (Table 5.11), held as binary32 or int32. -/
def epOp (fl : Bool) (consts : List Nat) (m : Nat) (e : List Nat) : List Nat × VxFlags :=
  let op := m / 2 ^ 26
  let a := e.getD (m / 2 ^ 20 % 8) 0
  let b := e.getD (m / 2 ^ 17 % 8) 0
  let c := e.getD (m / 2 ^ 14 % 8) 0
  let ty := if fl then 9 else 2
  let r : Nat × VxFlags :=
    match op with
    | 1 => vxArith ty (· + ·) FVal.add a b
    | 2 => vxArith ty (· - ·) FVal.sub a b
    | 3 => vxArith ty (· * ·) FVal.mul a b
    | 4 => vxFmaEl ty a b c
    | 5 => vxPick false ty a b
    | 6 => vxPick true ty a b
    | 7 => if fl then float1 9 FVal.abs a else intRes 2 (vxIntVal 2 a).natAbs
    | 8 => if fl then float1 9 FVal.neg a else intRes 2 (-(vxIntVal 2 a))
    | 9 => float1 9 FVal.exp a
    | 10 => float1 9 FVal.log a
    | 11 => float1 9 FVal.tanh a
    | 12 => float1 9 FVal.rcp a
    | 13 => float1 9 FVal.rsqrt a
    | 14 => float1 9 FVal.sigmoid a
    | 15 => (if fl && (fmt32.decode a).isZero || !fl && decide (a = 0) then c else b, .none)
    | 16 => (if vxCompare 2 ty a b then (if fl then 0x3F800000 else 1) else 0, .none)
    | _ => (consts.getD (m / 2 ^ 20 % 8) 0, .none)
  if op = 0 then (e, .none)
  else
    let h := decide (m / 2 ^ 13 % 2 = 1)
    let r := if h then
        let v := fmt32.decode r.1
        let q := floatRes 8 v.isFin v
        (fmt32.encode (fmt16.decode q.1), r.2.or q.2)
      else r
    (e.set (m / 2 ^ 23 % 8) r.1, r.2)

/-- The program applied to one element: temporaries and flags. -/
def epRun (fl : Bool) (consts : List Nat) : List Nat → List Nat × VxFlags → List Nat × VxFlags
  | [], z => z
  | m :: rest, z =>
    let r := epOp fl consts m z.1
    epRun fl consts rest (r.1, z.2.or r.2)

/-- VX.EPRUN (R179). -/
def vxEprun (e : VxEnv) (x : VxSt) (wd : BitVec 56) (loadedAt : Nat) : Except VxErr VxOut :=
  match x.ep with
  | none => if vxWordOk wd then .error ⟨6, 0, loadedAt⟩ else vxIllegal
  | some p =>
    let h := p.getD 0 0
    let nops := h / 2 ^ 27 + 1
    let nin := h / 2 ^ 25 % 4
    let nout := h / 2 ^ 24 % 2
    let it := epType (h / 2 ^ 22 % 4)
    let ot := epType (h / 2 ^ 20 % 4)
    let wi := vxWidth it
    let wo := vxWidth ot
    if !(vxWordOk wd) then vxIllegal
    else if vlFault e x (max wi wo) then .error ⟨2, 0, 0⟩
    else if 31 < vxVs1 wd + nin ∨ 31 < vxVd wd + nout then .error ⟨6, 0, loadedAt⟩
    else
      let fl := decide (it ≠ 2)
      let ops := (p.drop 1).take nops
      let consts := p.drop 33
      let run (i : Nat) : List Nat × VxFlags :=
        epRun fl consts ops ((List.range 8).map fun k =>
          if k ≤ nin then
            let b := x.el (vxVs1 wd + k) wi i
            if it = 8 then fmt32.encode (fmt16.decode b) else b
          else 0, .none)
      let out (i k : Nat) : Nat × VxFlags :=
        let r := run i
        let b := r.1.getD k 0
        if ot = 8 then
          let q := fmt16.readout .rne (fmt32.decode b)
          (q.1, r.2.or (madeFlags 8 q.1 q.2 false))
        else (b, r.2)
      let a := x.actives wd x.vl
      let d0 := vmerge x wd wo (fun i => (out i 6).1) x.vl (x.vr (vxVd wd))
      let d1 := vmerge x wd wo (fun i => (out i 7).1) x.vl (x.vr (vxVd wd + 1))
      let st := x.setV (vxVd wd) d0
      .ok ⟨if nout = 1 then st.setV (vxVd wd + 1) d1 else st,
        a.foldl (fun g i => (g.or (out i 6).2).or (if nout = 1 then (out i 7).2 else .none)) .none,
        a.length, 0, false, none⟩

end Sys2Proof.Machine
end

