-- ==== Sys2Proof/Machine/Vxe.lean ====
section
/-!
DEFINITION. How a vector engine of a tile or an update core issues an instruction (R154, R163, R181, R389),
and the memory instructions (R163, R164, R390).
-/

namespace Sys2Proof.Machine

/-- VXE_ register of a tile (Table 5.13). -/
def vxReg (t : TileId) (off : Nat) : Nat := tileReg t (0x3000 + off)

/-- The engine or core of a unit. -/
def State.vu (s : State) (u : VUnit) : VxSt :=
  match u with
  | .tile t => (s.tile t).vx
  | .core fd c => s.core fd.val c.val

/-- The state with a unit's engine or core replaced. -/
def State.setVu (s : State) (u : VUnit) (x : VxSt) : State :=
  match u with
  | .tile t => s.setTile t { s.tile t with vx := x }
  | .core fd c => s.setCore fd.val c.val x

/-- What a unit brings to an instruction (R171, Table 11.2). -/
def State.vuEnv (s : State) (u : VUnit) : VxEnv :=
  match u with
  | .tile t => ⟨4096, s.jobSeed t, (s.tile t).seq.step, Config.freeWord s.freeCount⟩
  | .core fd c =>
    let l := (s.layerOf fd.val c.val).getD 0
    ⟨2048, s.ldSeed fd.val l, BitVec.ofNat 32 (s.ld fd.val l 2 63 32), Config.freeWord s.freeCount⟩

/-- A vector-engine fault of a tile (R181): the program stops, the fault is recorded under the rule of R148,
and the sequencer stops. A translation fault is reported as R205 says. -/
def State.vxFault (s : State) (t : TileId) (code elem addr : Nat) (cause : Nat) (k : XKind) : State :=
  let x := (s.tile t).vx
  let a := vxReg t 0x20
  let s := if s.regField a 34 34 = 1 then s
    else
      ((s.setReg a (putBits (putBits (putBits (putBits 0 63 56 code) 40 35 x.ctx.val) 34 34 1) 9 0 elem)).setReg
        (a + 8) (putBits 0 47 0 x.pc.toNat)).setReg (a + 16) (putBits 0 47 0 (addr % 2 ^ 48))
  let s := if code = 4 then s.xlFault t x.ctx 2 cause addr x.pc.toNat k
    else s.raiseTile t (0x200 + code) x.ctx x.pc.toNat 0
  let s := s.setTile t { s.tile t with vx := { x with running := false, ep := none } }
  (s.setSeq t { (s.tile t).seq with vxBusy := false }).seqFault t 3

/-- A fault of a unit: of a tile's engine, or of an update core with its layer (R422). -/
def State.vuFault (s : State) (u : VUnit) (code elem addr cause : Nat) (k : XKind) : State :=
  match u with
  | .tile t => s.vxFault t code elem addr cause k
  | .core fd c =>
    match s.layerOf fd.val c.val with
    | none => s
    | some l => s.ueFault fd.val l c.val code (s.core fd.val c.val).pc.toNat addr

/-- Whether an update core runs a layer and does not wait at UE.GBAR. -/
def State.coreFree (s : State) (fd c : Nat) : Bool :=
  match s.layerOf fd c with
  | none => false
  | some l => (s.layer fd l).gbar.all fun e => decide (e.1 ≠ c)

/-- What issuing an instruction does before its own effect: for a tile's engine the translation cache and the
counts of instructions; for an update core nothing. -/
def State.vuIssued (s : State) (u : VUnit) : State :=
  match u with
  | .tile t =>
    let x := (s.tile t).vx
    ((s.xlLookup t x.ctx x.pc.toNat).bump (vxReg t 0x100) 1).bump (tileReg t 0x900) 1
  | .core _ _ => s

/-- An instruction issued: the unit runs a program, and a tile's engine fetches the word under R197. Else
the state stays as it is (DESIGN CHOICE, log entry 9). -/
def State.vuInstr (s : State) (u : VUnit) (act : VxSt → State → State) : State :=
  match u with
  | .tile t =>
    let x := (s.tile t).vx
    if !(s.tileOn t) || !x.running then s
    else
      match s.xlAns (tileDie t) x.ctx x.pc.toNat .fetch .plain with
      | .error c => s.vxFault t 4 0 x.pc.toNat c .fetch
      | .ok a =>
        let s := s.vuIssued (.tile t)
        if s.poisonedAt a.ga 8 then s.vxFault t 5 0 x.pc.toNat 0 .fetch else act x s
  | .core fd c =>
    let x := s.core fd.val c.val
    if !(s.fdOn fd.val) || !x.running || !(s.coreFree fd.val c.val) then s else act x s

/-- A 128-bit counter advanced: its low half and its high half (R183). -/
def State.bump128 (s : State) (lo hi n : Nat) : State :=
  let v := (s.reg lo).toNat + (s.reg hi).toNat * 2 ^ 64 + n
  if n = 0 then s else (s.setReg lo (BitVec.ofNat 64 v)).setReg hi (BitVec.ofNat 64 (v / 2 ^ 64))

/-- Flags of a tile's engine (R180, Table 5.15), with the address that set the first one. -/
def State.vxFlagSet (s : State) (t : TileId) (pc : BitVec 48) (f : VxFlags) : State :=
  if f = .none then s
  else
    let a := vxReg t 8
    let m := (if f.sat then 16 else 0) + (if f.eovf then 8 else 0) + (if f.rovf then 4 else 0) +
      (if f.wovf then 2 else 0) + (if f.special then 1 else 0)
    let s := if s.regField a 4 0 = 0 then s.setField a 63 16 pc.toNat else s
    (s.setField a 4 0 (s.regField a 4 0 ||| m)).noteFlags t f.wovf f.rovf f.eovf f.special false

/-- Flags of an update core: those of its layer's run, and UE_FLAGS (Tables 11.2, 11.12, 11.18). -/
def State.ueFlagSet (s : State) (fd c : Nat) (f : VxFlags) : State :=
  match s.layerOf fd c with
  | none => s
  | some l =>
    let x := s.layer fd l
    let stats := decide (s.ldPhase fd l = 2)
    let s := s.setLayer fd l { x with rovf := x.rovf || f.rovf, special := x.special || f.special,
                                      wovfS := x.wovfS || (f.wovf && stats),
                                      wovfN := x.wovfN || (f.wovf && !stats) }
    let s := if f.rovf then s.ueFlag fd l 62 else s
    if f.wovf then s.ueFlag fd l 61 else s

/-- What an instruction leaves: registers, the program counter, flags and counts. -/
def State.vuApply (s : State) (u : VUnit) (o : VxOut) : State :=
  let x := s.vu u
  let pc := match o.jump with
    | some k => BitVec.ofInt 48 ((x.pc.toNat : Int) + 8 * k)
    | none => x.pc + 8
  let s := if o.used then s.free.2 else s
  let s := match u with
    | .tile t => ((s.vxFlagSet t x.pc o.flags).bump128 (vxReg t 0x108) (vxReg t 0x128) o.elems).bump128
        (vxReg t 0x120) (vxReg t 0x130) o.cbg
    | .core fd c => s.ueFlagSet fd.val c.val o.flags
  s.setVu u { o.st with pc := pc }

/-- An instruction that works on registers only. -/
def State.vuCompute (s : State) (u : VUnit) (f : VxEnv → VxSt → Except VxErr VxOut) : State :=
  s.vuInstr u fun x s =>
    match f (s.vuEnv u) x with
    | .error e => s.vuFault u e.code e.elem e.addr 0 .load
    | .ok o => s.vuApply u o

/-! ### Memory -/

/-- One element's access: element, address, bytes, and where it lies: for a tile the translated GA, for a
core the space (0 local, 1 shared, 2 GA) with the offset. -/
structure VxAcc where
  elem  : Nat
  va    : Nat
  n     : Nat
  space : Nat
  x     : XlOk
  deriving DecidableEq, Repr

/-- An element's access checked (R121, R204, R390, R391): or its fault code, with a translation's cause. -/
def State.vuCheck (s : State) (u : VUnit) (store : Bool) (n : Nat) (e : Nat × Nat) :
    Except (Nat × Nat × Nat × Nat) VxAcc :=
  let va := e.2
  if va % n ≠ 0 then .error (e.1, 3, va, 0)
  else
    match u with
    | .tile t =>
      (match s.xlAns (tileDie t) (s.tile t).vx.ctx va (if store then .store else .load) .plain with
       | .error c => .error (e.1, 4, va, c)
       | .ok x => .ok ⟨e.1, va, n, 2, x⟩)
    | .core fd c =>
      match ueSpace va with
      | none => .error (e.1, 4, va, 0)
      | some (2, ga) =>
        if (s.layerOf fd.val c.val).any fun l => s.ueMay fd.val l ga n store then
          .ok ⟨e.1, va, n, 2, ⟨ga, false, false, false⟩⟩
        else .error (e.1, 4, va, 0)
      | some (k, off) => .ok ⟨e.1, va, n, k, ⟨off, false, false, false⟩⟩

/-- Accesses in the order of their requests: by line, or by sector under the narrow hint, in ascending
order of the lowest element (R122, R248). -/
def vxGroups (unit : Nat) : List VxAcc → List (Nat × List VxAcc) → List (Nat × List VxAcc)
  | [], acc => acc
  | a :: rest, acc =>
    let k := a.x.ga / unit
    if acc.any fun g => decide (g.1 = k) then
      vxGroups unit rest (acc.map fun g => if g.1 = k then (k, g.2 ++ [a]) else g)
    else vxGroups unit rest (acc ++ [(k, [a])])

/-- A request's read at its home: what the cache does, then each element's value, with the elements that
found poison. -/
def State.vuReadGroup (s : State) (u : VUnit) (ctx : CtxId) (hint : Nat) (g : List VxAcc) :
    List (Nat × Nat) × List (Nat × Nat) × State :=
  let one (s : State) (a : VxAcc) : List Byte × Bool × State :=
    match u with
    | .tile t => s.tileLoad t ctx a.x a.n hint
    | .core fd _ => s.foreignReadOne (.fabric fd) ctx.val a.x.ga a.n 0
  match g with
  | [] => ([], [], s)
  | a :: rest =>
    let s := match u with
      | .tile t => s.raNote t 2 ctx a.va a.x.ga hint
      | .core _ _ => s
    let r := one s a
    rest.foldl (fun (z : List (Nat × Nat) × List (Nat × Nat) × State) b =>
      if homed b.x.ga then
        let dead := z.2.2.deadRead b.x.ga
        let bs := if dead then deadBytes b.x.ga b.n else z.2.2.bytesAt b.x.ga b.n
        (z.1 ++ [(b.elem, leNat bs)],
          if z.2.2.poisonedAt b.x.ga b.n && r.2.1 then z.2.1 ++ [(b.elem, b.va)] else z.2.1, z.2.2)
      else
        let q := one z.2.2 b
        (z.1 ++ [(b.elem, leNat q.1)], if q.2.1 then z.2.1 ++ [(b.elem, b.va)] else z.2.1, q.2.2))
      ([(a.elem, leNat r.1)], if r.2.1 then [(a.elem, a.va)] else [], r.2.2)

/-- A request's write at its home, its elements in ascending order (R164); a group's bytes that cover a
granule clear its poison. -/
def State.vuWriteGroup (s : State) (u : VUnit) (ctx : CtxId) (hint : Nat) (g : List (VxAcc × List Byte)) : State :=
  match g with
  | [] => s
  | (a, _) :: _ =>
    if homed a.x.ga then
      let line := a.x.ga / 128 * 128
      let full := (List.range 128).all fun i => g.any fun e => decide (e.1.x.ga ≤ line + i ∧ line + i < e.1.x.ga + e.1.n)
      let s := match u with
        | .tile _ => s
        | .core _ _ => s.beforeForeignWrite a.x.ga
      let s := s.hcStore (gaDie a.x.ga) (gaLine a.x.ga) (effHint hint false) full
      (g.foldl (fun s e => s.putBytes e.1.x.ga e.2) s).clearCovered (g.map fun e => (e.1.x.ga, e.1.n))
    else
      let s := g.foldl (fun s e =>
        match u with
        | .tile t => s.tileStore t ctx e.1.x e.2 hint
        | .core _ _ => s.foreignWriteOne ctx.val e.1.x.ga e.2 0 false) s
      if gaRegion a.x.ga = 0 then s.clearCovered (g.map fun e => (e.1.x.ga, e.1.n)) else s

/-- Whether a tile's requests can take slots, counted when the quota holds one back (R123, R250, R251). -/
def State.vuSlots (s : State) (u : VUnit) (groups : List (Nat × List VxAcc)) : Bool × State :=
  match u with
  | .core _ _ => (true, s)
  | .tile t =>
    groups.foldl (fun (z : Bool × State) g =>
      match g.2.head? with
      | none => z
      | some a =>
        if ownMem t a.x.ga || s.servedNear t a.x then z
        else
          let f := (z.2.tile t).slotFor (quotaBank a.x.ga)
          (z.1 && f.1, if f.2 then z.2.bump (tileReg t 0x318) 1 else z.2)) (true, s)

/-- Requests beyond tile memory counted (Table 5.18). -/
def State.vuReqs (s : State) (u : VUnit) (groups : List (Nat × List VxAcc)) : State :=
  match u with
  | .core _ _ => s
  | .tile t => s.bump (vxReg t 0x110) (groups.filter fun g => g.2.any fun a => !(ownMem t a.x.ga)).length

/-- Accesses of an instruction: `k` performs them, given the accesses and the state. The lowest element's
fault is raised with no effect; a line that must wait, or a request that finds no slot, makes the
instruction wait. -/
def State.vuMem (s : State) (u : VUnit) (cmd : Instr) (store : Bool) (n hint : Nat) (addrs : List (Nat × Nat))
    (k : List VxAcc → List (Nat × List VxAcc) → State → State) : State :=
  let checked := addrs.map (s.vuCheck u store n)
  let bad := checked.filterMap fun c => match c with | .error e => some e | .ok _ => none
  match bad.head? with
  | some e => s.vuFault u e.2.1 e.1 e.2.2.1 e.2.2.2 (if store then .store else .load)
  | none =>
    let accs := checked.filterMap fun c => match c with | .error _ => none | .ok a => some a
    let far := accs.filter (·.space = 2)
    let groups := vxGroups (if hint = 4 then 32 else 128) far []
    let w := s.mustWait (far.map fun a => (a.x.ga, store))
    let f := w.2.vuSlots u groups
    if w.1 then w.2.wait cmd
    else if !f.1 then f.2.wait cmd
    else
      let s := match u with
        | .tile t => addrs.foldl (fun (s : State) (a : Nat × Nat) => s.xlLookup t (s.tile t).vx.ctx a.2) f.2
        | .core _ _ => f.2
      k accs groups (s.vuReqs u groups)

/-- Context that a unit works for. -/
def State.vuCtx (s : State) (u : VUnit) : CtxId :=
  match u with
  | .tile t => (s.tile t).vx.ctx
  | .core fd c => (s.layerOf fd.val c.val).elim 0 (s.ldCtx fd.val)

/-- Values of a load: elements with their values; a poisoned one faults with no effect on registers
(R181). `fin` turns the values into what the instruction leaves. -/
def State.vuLoad (s : State) (u : VUnit) (cmd : Instr) (n hint : Nat) (addrs : List (Nat × Nat))
    (fin : List (Nat × Nat) → VxOut) : State :=
  s.vuMem u cmd false n hint addrs fun accs groups s =>
    let near := (accs.filter (·.space ≠ 2)).map fun a => match u with
      | .core fd c => (a.elem, leNat (s.ueBytes fd.val c.val a.space a.x.ga a.n))
      | .tile _ => (a.elem, 0)
    let r := groups.foldl (fun (z : List (Nat × Nat) × List (Nat × Nat) × State) g =>
      let q := z.2.2.vuReadGroup u (s.vuCtx u) hint g.2
      (z.1 ++ q.1, z.2.1 ++ q.2.1, q.2.2)) (near, [], s)
    let low := r.2.1.foldl (fun (b : Option (Nat × Nat)) e =>
      match b with
      | none => some e
      | some c => if e.1 < c.1 then some e else b) none
    match low with
    | some e => r.2.2.vuFault u 5 e.1 e.2 0 .load
    | none => r.2.2.vuApply u (fin r.1)

/-- Stores of elements; a core's write of RED_MC_GO starts a multicast (R381). -/
def State.vuStore (s : State) (u : VUnit) (cmd : Instr) (n hint : Nat) (addrs : List (Nat × Nat))
    (val : Nat → Nat) (o : VxOut) : State :=
  s.vuMem u cmd true n hint addrs fun accs groups s =>
    let s := (accs.filter (·.space ≠ 2)).foldl (fun s a => match u with
      | .core fd c => s.uePut fd.val c.val a.space a.x.ga (leBytes n (val a.elem))
      | .tile _ => s) s
    let go : Option Word := match u with
      | .tile _ => none
      | .core fd _ => (accs.find? fun a => decide (a.space = 2 ∧ a.x.ga = redReg fd.val 0x10)).map fun a =>
          BitVec.ofNat 64 (val a.elem)
    match u, go with
    | .core fd _, some v =>
      (match s.mcGo fd v (s.vuCtx u) with
       | (some s', _) => s'.vuApply u o
       | (none, s') => s'.wait cmd)
    | _, _ =>
      (groups.foldl (fun s g =>
        s.vuWriteGroup u (s.vuCtx u) hint (g.2.map fun a => (a, leBytes n (val a.elem)))) s).vuApply u o

/-- Hint of a memory word, in IMM[2:0] (DEDUCED, log entry 11); requests of fabric dies carry the normal hint
(R229). -/
def vuHint (u : VUnit) (w : BitVec 56) : Nat :=
  match u with
  | .tile _ => vxImm w % 8
  | .core _ _ => 0

/-- Whether a vector load or store is legal, for an index of `iw` bits (0: none): the TYPE, the hint, and
whether a VL fault arises (R157). -/
def State.vuMemOk (s : State) (u : VUnit) (w : BitVec 56) (iw : Nat) : Option Nat :=
  if !(vxWordOk w) || decide (4 < vxImm w) then some 1
  else if vlFault (s.vuEnv u) (s.vu u) (max (vxWidth (vxType w)) iw) then some 2
  else none

/-- Addresses of the active elements of a load or store. -/
def vxAddrs (x : VxSt) (w : BitVec 56) (f : Nat → Nat) : List (Nat × Nat) :=
  (x.actives w x.vl).map fun i => (i, f i % 2 ^ 48)

/-- Width of the indices of VX.LDX and VX.STX. -/
def vxIdxWidth (w : BitVec 56) : Nat := if vxWidth (vxType w) = 64 then 64 else 32

/-- A vector load (R163): `f` gives an element's address. -/
def State.vuVecLoad (s : State) (u : VUnit) (w : BitVec 56) (cmd : Instr) (iw : Nat) (f : VxSt → Nat → Nat) :
    State :=
  s.vuInstr u fun x s =>
    match s.vuMemOk u w iw with
    | some c => s.vuFault u c 0 0 0 .load
    | none =>
      let wd := vxWidth (vxType w)
      s.vuLoad u cmd (wd / 8) (vuHint u w) (vxAddrs x w (f x)) fun vals =>
        let g (i : Nat) : Nat := ((vals.find? fun e => decide (e.1 = i)).map (·.2)).getD 0
        ⟨x.setV (vxVd w) (vmerge x w wd g x.vl (x.vr (vxVd w))), .none, (x.actives w x.vl).length, 0, false, none⟩

/-- A vector store (R163, R164). -/
def State.vuVecStore (s : State) (u : VUnit) (w : BitVec 56) (cmd : Instr) (iw : Nat) (f : VxSt → Nat → Nat) :
    State :=
  s.vuInstr u fun x s =>
    match s.vuMemOk u w iw with
    | some c => s.vuFault u c 0 0 0 .store
    | none =>
      let wd := vxWidth (vxType w)
      s.vuStore u cmd (wd / 8) (vuHint u w) (vxAddrs x w (f x)) (fun i => x.el (vxVs1 w) wd i)
        ⟨x, .none, (x.actives w x.vl).length, 0, false, none⟩

/-- Address forms of Table 5.4: unit stride, stride and index. -/
def vxUnit (w : BitVec 56) (base : Nat) (x : VxSt) (i : Nat) : Nat :=
  (x.s base).toNat + i * (vxWidth (vxType w) / 8)
def vxStride (base stride : Nat) (x : VxSt) (i : Nat) : Nat :=
  (((x.s base).toInt + (i : Int) * (x.s stride).toInt) % (2 ^ 64 : Nat)).toNat
def vxIndexed (w : BitVec 56) (base : Nat) (x : VxSt) (i : Nat) : Nat :=
  (x.s base).toNat + x.el (vxVs3 w) (vxIdxWidth w) i

end Sys2Proof.Machine
end

