-- ==== Sys2Proof/Machine/Ue.lean ====
section
/-!
DEFINITION. The update engines: notices (R394 to R397), the start and the end of a layer's run (R397, R405,
R410, R411, R416), the update-core instructions (R392), digests (R418 to R420).
-/

namespace Sys2Proof.Machine

/-- A cluster counter (Table 11.23). -/
def State.ueBump (s : State) (fd off : Nat) : State := s.bump (ueReg fd off) 1

/-! ### Notices -/

/-- Signed difference of two steps modulo 2^32 (R409), as 32 bits. -/
def serialDiff (a b : BitVec 32) : Nat := (a - b).toNat

/-- A layer goes to SKEW (R396). -/
def State.ueSkew (s : State) (fd l : Nat) (received : BitVec 32) : State :=
  let mine := BitVec.ofNat 32 (s.ld fd l 2 63 32)
  let s := ((s.coresStop fd l).setPhase fd l 6).ueBump fd 0x120
  let s := (s.ueFlag fd l 60).raiseUe fd l .contained 0x4005 0
    (received.toNat + serialDiff received mine * 2 ^ 32)
  s.ueSettle fd l

/-- A notice that a layer holds (R395, R396): one for the same bucket replaces the earlier one. -/
def State.ueHold (s : State) (fd l : Nat) (n : Notice) : State :=
  let x := s.layer fd l
  let held := (x.held.filter fun m => decide (m.bid ≠ n.bid)) ++ [n]
  let s := (s.setLayer fd l { x with held := held }).setField (ldState fd l) 54 39 held.length
  if s.ldPhase fd l = 0 then s.setPhase fd l 1 else s

/-- A notice at one matched layer (Table 11.5). -/
def State.ueNotice (s : State) (fd : Nat) (n : Notice) (l : Nat) : State :=
  if s.ld fd l 0 55 48 ≠ n.gen.toNat then s.ueBump fd 0x108
  else if s.ld fd l 0 62 62 = 1 then s.ueBump fd 0x118
  else if n.skew then s.ueSkew fd l n.stepRecv
  else if s.ld fd l 2 63 32 ≠ n.step.toNat then s.ueSkew fd l n.step
  else if s.ld fd l 3 63 56 ≠ n.anchor.toNat then s.ueFault fd l 0 6 0 0
  else s.ueHold fd l n

/-- Layers that a notice matches (R395). -/
def State.ueMatches (s : State) (fd : Nat) (n : Notice) : List Nat :=
  (List.range 128).filter fun l =>
    decide (s.ld fd l 0 63 63 = 1 ∧ s.ld fd l 0 47 32 ≤ n.bid.toNat ∧
      n.bid.toNat < s.ld fd l 0 47 32 + s.ld fd l 12 63 48 ∧
      n.layerFirst.toNat ≤ s.ld fd l 0 31 0 ∧ s.ld fd l 0 31 0 ≤ n.layerLast.toNat)

/-- GRADIENT_NOTICE (R394 to R396). -/
def execGradientNotice (fd : FdId) (n : Notice) (s : State) : Host.Outcome State Fault Refusal :=
  .next (
    if !(s.fdOn fd.val) then s
    else
      let s := { s with fab := { s.fab with notices := s.fab.notices.erase (fd, n) } }
      let s := s.ueBump fd.val 0x100
      match s.ueMatches fd.val n with
      | [] => s.ueBump fd.val 0x110
      | ls => ls.foldl (fun s l => s.ueNotice fd.val n l) s)

/-- UNIT_BEGIN_NOTICE (R397): every cluster learns that a unit has begun. -/
def execUnitBeginNotice (u : BitVec 16) (s : State) : Host.Outcome State Fault Refusal :=
  .next (
    if !s.on then s
    else (List.range 4).foldl (fun s fd =>
      let c := s.cluster fd
      if c.begun.contains u.toNat then s else s.setCluster fd { c with begun := c.begun ++ [u.toNat] }) s)

/-! ### The start of a layer -/

/-- Whether a layer is ready (R397): a notice for each bucket, and its unit begun. -/
def State.ueReady (s : State) (fd l : Nat) : Bool :=
  decide (s.ld fd l 0 63 63 = 1 ∧ s.ldPhase fd l = 1 ∧ (s.layer fd l).held.length = s.ld fd l 12 63 48) &&
    (s.cluster fd).begun.contains (s.ld fd l 3 13 0)

/-- Cores that run no layer, ascending. -/
def State.freeCores (s : State) (fd : Nat) : List Nat :=
  (List.range 16).filter fun c => (s.layerOf fd c).isNone

/-- LAYER_START (R397): the lowest ready layer, on the first CORES + 1 free cores. The flags and the next
values of an earlier run are gone. -/
def execLayerStart (fd : FdId) (l : Fin 128) (s : State) : Host.Outcome State Fault Refusal :=
  .next (
    let f := fd.val
    let n := s.ld f l.val 0 59 56 + 1
    let free := (s.freeCores f).take n
    if !(s.fdOn f) || !(s.ueReady f l.val) || (List.range l.val).any (s.ueReady f) || decide (free.length ≠ n) then s
    else
      let x := s.layer f l.val
      let s := s.setLayer f l.val { x with cores := free, done := [], gbar := [], wovfS := false, wovfN := false,
                                           rovf := false, special := false, result := none }
      let s := s.setPhase f l.val 2
      free.foldl (fun s c =>
        let v := s.core f c
        s.setCore f c { v with vl := 0, vlew := 1, running := true, pc := 0, ctx := s.ldCtx f l.val, ep := none }) s)

/-! ### Update-core instructions -/

/-- A word of a running layer's descriptor (Table 11.4): A_S and A_N with the repeat's widenings. -/
def State.ueWord (s : State) (fd l k : Nat) : Word :=
  let w := s.reg (ldReg fd l k)
  if k = 3 then
    let x := s.layer fd l
    putBits (putBits w 55 48 (bits w 55 48 + 16 * x.wideS)) 47 40 (bits w 47 40 + 16 * x.wideN)
  else w

/-- UE.LDD (Table 11.4); IMM[9:4] is reserved. -/
def execUeLdd (fd : FdId) (c : Fin 16) (w : BitVec 56) (s : State) : Host.Outcome State Fault Refusal :=
  .next (s.vuInstr (.core fd c) fun x s =>
    match s.layerOf fd.val c.val with
    | none => s
    | some l =>
      if !(vxWordOk w) || decide (15 < vxImm w) then s.vuFault (.core fd c) 1 0 0 0 .load
      else s.vuApply (.core fd c) ⟨x.setS (vxVd w) (s.ueWord fd.val l (vxImm w)), .none, 0, 0, false, none⟩)

/-- A sum of signed 64-bit values, saturated at ±(2^63 − 1), and whether it was (Table 11.4). -/
def satAdd64 (a b : BitVec 64) : BitVec 64 × Bool :=
  let v := a.toInt + b.toInt
  let m : Int := 2 ^ 63 - 1
  if m < v then (BitVec.ofInt 64 m, true) else if v < -m then (BitVec.ofInt 64 (-m), true)
  else (BitVec.ofInt 64 v, false)

/-- UE.XADD (Table 11.4): the base address is s(VS2) (DEDUCED, log entry 11), in shared memory. -/
def execUeXadd (fd : FdId) (c : Fin 16) (w : BitVec 56) (s : State) : Host.Outcome State Fault Refusal :=
  .next (s.vuInstr (.core fd c) fun x s =>
    let u := VUnit.core fd c
    if !(vxWordOk w) then s.vuFault u 1 0 0 0 .store
    else if vlFault (s.vuEnv u) x 64 then s.vuFault u 2 0 0 0 .store
    else
      let addrs := (x.actives w x.vl).map fun i => (i, ((x.s (vxVs2 w)).toNat + 8 * i) % 2 ^ 48)
      match addrs.find? fun e => decide (e.2 % 8 ≠ 0) with
      | some e => s.vuFault u 3 e.1 e.2 0 .store
      | none =>
        match addrs.find? fun e => !((ueSpace e.2).any fun z => decide (z.1 = 1)) with
        | some e => s.vuFault u 4 e.1 e.2 0 .store
        | none =>
          let r := addrs.foldl (fun (z : Bool × State) e =>
            let off := e.2 % 2 ^ 20
            let q := satAdd64 (BitVec.ofNat 64 (leNat (z.2.ueBytes fd.val c.val 1 off 8)))
              (BitVec.ofNat 64 (x.el (vxVs1 w) 64 e.1))
            (z.1 || q.2, z.2.uePut fd.val c.val 1 off (leBytes 8 q.1.toNat))) (false, s)
          r.2.vuApply u ⟨x, { VxFlags.none with wovf := r.1 }, addrs.length, 0, false, none⟩)

/-- UE.DIG (Table 11.4): s(VD) is lane 0, s(VD + 1) lane 1; VD = 31 names no pair. -/
def execUeDig (fd : FdId) (c : Fin 16) (w : BitVec 56) (s : State) : Host.Outcome State Fault Refusal :=
  .next (s.vuInstr (.core fd c) fun x s =>
    let u := VUnit.core fd c
    let l := (s.layerOf fd.val c.val).getD 0
    if !(vxWordOk w) || decide (vxVd w = 31) then s.vuFault u 1 0 0 0 .load
    else if vlFault (s.vuEnv u) x 16 then s.vuFault u 2 0 0 0 .load
    else
      let key := s.reg (ueReg fd.val 0x28) ++ s.reg (ueReg fd.val 0x20)
      let act := x.actives w x.vl
      let sum := act.foldl (fun (z : BitVec 128) i =>
        laneAdd z (digestTerm key (s.ld fd.val l 0 31 0) ((x.s (vxVs3 w)).toNat + i) (x.el (vxVs1 w) 16 i)
          (x.el (vxVs2 w) 16 i))) (x.s (vxVd w + 1) ++ x.s (vxVd w))
      s.vuApply u ⟨(x.setS (vxVd w) (sum.extractLsb' 0 64)).setS (vxVd w + 1) (sum.extractLsb' 64 64), .none,
        act.length, act.length, false, none⟩)

/-- Cores at UE.GBAR pass once every core of the group that has not ended has issued it with the same IMM.
The first barrier that a layer passes ends its statistics. -/
def State.gbarTry (s : State) (fd l : Nat) : State :=
  let x := s.layer fd l
  match x.gbar with
  | [] => s
  | (_, imm) :: _ =>
    if x.cores.all fun c => x.done.contains c || x.gbar.contains (c, imm) then
      let s := s.setLayer fd l { x with gbar := [] }
      let s := if s.ldPhase fd l = 2 then s.setPhase fd l 3 else s
      x.gbar.foldl (fun s e => s.setCore fd e.1 { s.core fd e.1 with pc := (s.core fd e.1).pc + 8 }) s
    else s

/-- UE.GBAR (Table 11.4) (DEDUCED, log entry 70). -/
def execUeGbar (fd : FdId) (c : Fin 16) (w : BitVec 56) (s : State) : Host.Outcome State Fault Refusal :=
  .next (s.vuInstr (.core fd c) fun _ s =>
    match s.layerOf fd.val c.val with
    | none => s
    | some l =>
      if !(vxWordOk w) then s.vuFault (.core fd c) 1 0 0 0 .load
      else
        let x := s.layer fd.val l
        (s.setLayer fd.val l { x with gbar := x.gbar ++ [(c.val, vxImm w)] }).gbarTry fd.val l)

/-! ### The end of a layer's run -/

/-- Bytes of a section on the j-th die. -/
def State.secLen (s : State) (fd l j : Nat) (k : BankSec) : Nat :=
  let n := s.ldRows fd l j
  let cols := s.ld fd l 1 31 0
  match k with
  | .w => n * cols * 2
  | .res => if s.ld fd l 0 61 61 = 1 then 0 else n * cols
  | .m => n * cols * 2
  | .rs => n * 2
  | .cs => if j = 0 then cols * 2 else 0
  | .done => 0

/-- A section of a bank as (GA, bytes), die by die. -/
def State.secRanges (s : State) (fd l k : Nat) (sec : BankSec) : List (Nat × Nat) :=
  (List.range (s.ld fd l 12 47 42)).map fun j => (s.bankGa fd l k j + s.secOff fd l j sec, s.secLen fd l j sec)

/-- The sections that hold tensors. -/
def bankSecs : List BankSec := [.w, .res, .m, .rs, .cs]

/-- A range of schedule entries: the one that sched() reads (R407). -/
def State.schedAt (s : State) (fd l : Nat) : Option Nat :=
  let len := s.ld fd l 8 63 48
  if len = 0 then none
  else
    let d := (s.ld fd l 2 63 32 + 2 ^ 32 - s.ld fd l 6 31 0) % 2 ^ 32
    some (s.ld fd l 8 39 0 + 4 * min (if d < 2 ^ 31 then d else 0) (len - 1))

/-- What a run reads (R391): the live bank, the gradient and the schedule entry. -/
def State.ueReads (s : State) (fd l : Nat) : List (Nat × Nat) :=
  bankSecs.flatMap (s.secRanges fd l (s.ld fd l 0 60 60)) ++ (s.gradOf fd l).map (fun g => (g.1, g.2.1)) ++
    (s.schedAt fd l).toList.map fun a => (a, 4)

/-- What a run writes: the next bank and its ring entry. -/
def State.ueWrites (s : State) (fd l : Nat) : List (Nat × Nat) :=
  bankSecs.flatMap (s.secRanges fd l (1 - s.ld fd l 0 60 60)) ++
    [(s.ld fd l 13 39 0 + 16 * s.regField (ldState fd l) 60 55, 16)]

/-- The words that start the multicasts of the next bank (R401). -/
def State.ueGos (s : State) (fd l : Nat) : List Word :=
  let next := 1 - s.ld fd l 0 60 60
  let mid := if next = 0 then s.ld fd l 9 63 48 else s.ld fd l 9 39 24
  let gen := if next = 0 then s.ld fd l 9 47 40 else s.ld fd l 9 23 16
  (List.range (s.ld fd l 12 47 42)).map fun j => BitVec.ofNat 64 (gen * 2 ^ 56 + (mid + j) % 2 ^ 16 * 2 ^ 40)

/-- Ranges read in turn by a cluster: their bytes, the first address that found poison, the state. -/
def State.ueFetch (s : State) (fd : FdId) (ctx : CtxId) (rs : List (Nat × Nat)) : List Byte × Option Nat × State :=
  rs.foldl (fun (z : List Byte × Option Nat × State) r =>
    let q := z.2.2.foreignRead (.fabric fd) ctx.val r.1 r.2 0
    (z.1 ++ q.1, if q.2.1 ∧ z.2.1 = none then some r.1 else z.2.1, q.2.2)) ([], none, s)

/-- Elements of n bytes. -/
def elems (n : Nat) (bs : List Byte) : List Nat := (List.range (bs.length / n)).map fun i => field bs (n * i) n

/-- A signed 8-bit anchor. -/
def anchorOf (n : Nat) : Int := ofTwos 8 (n % 256)

/-- A run's inputs read (R398, R405), with the first poisoned address, and the state after the reads. -/
def State.ueInputs (s : State) (fd : FdId) (l : Nat) : UeIn × Option Nat × State :=
  let f := fd.val
  let ctx := s.ldCtx f l
  let live := s.ld f l 0 60 60
  let w := s.ueFetch fd ctx (s.secRanges f l live .w)
  let res := w.2.2.ueFetch fd ctx (s.secRanges f l live .res)
  let m := res.2.2.ueFetch fd ctx (s.secRanges f l live .m)
  let rs := m.2.2.ueFetch fd ctx (s.secRanges f l live .rs)
  let cs := rs.2.2.ueFetch fd ctx (s.secRanges f l live .cs)
  let aG := anchorOf (s.ld f l 3 63 56)
  let g := (s.gradOf f l).foldl (fun (z : List FVal × Option Nat × State) r =>
    let q := z.2.2.ueFetch fd ctx [(r.1, r.2.1)]
    (z.1 ++ (elems r.2.2 q.1).map (esfValue (8 * r.2.2) aG), z.2.1.or q.2.1, q.2.2)) ([], none, cs.2.2)
  let e := g.2.2.ueFetch fd ctx ((s.schedAt f l).toList.map fun a => (a, 4))
  let marked := (s.layer f l).held.find? (·.poison)
  let bc := s.ld f l 2 31 16
  let x := s.layer f l
  let fp (k hi lo : Nat) : FVal := fmt32.decode (s.ld f l k hi lo)
  ({ rows := s.ld f l 1 63 32, cols := s.ld f l 1 31 0, nores := decide (s.ld f l 0 61 61 = 1), g := g.1,
     w := elems 2 w.1, res := (elems 1 res.1).map (ofTwos 8), m := elems 2 m.1, rs := elems 2 rs.1, cs := elems 2 cs.1,
     t := min (bc + 1) (s.ld f l 2 15 0), beta1 := fp 4 31 0, beta2 := fp 5 63 32, eps := fp 5 31 0, wd := fp 6 63 32,
     lr := fp 4 63 32, sched := if (s.schedAt f l).isNone then fNat 1 else fmt32.decode (field e.1 0 4),
     scale := anchorOf (s.ld f l 3 27 20), aS := anchorOf (s.ld f l 3 55 48) + 16 * x.wideS,
     aN := anchorOf (s.ld f l 3 47 40) + 16 * x.wideN, hS := s.ld f l 3 39 34, hN := s.ld f l 3 33 28,
     rnd := roundingOf true (s.ldSeed f l) (BitVec.ofNat 32 (s.ld f l 0 31 0)) (BitVec.ofNat 32 (s.ld f l 2 63 32)) },
   ((((((marked.map fun n => n.destGa.toNat).or w.2.1).or res.2.1).or m.2.1).or rs.2.1).or cs.2.1).or (g.2.1.or e.2.1),
   e.2.2)

/-- A tensor written into a section, die by die. -/
def State.uePutSec (s : State) (fd l k : Nat) (sec : BankSec) (bs : List Byte) : State :=
  ((s.secRanges fd l k sec).foldl (fun (z : Nat × State) r =>
    (z.1 + r.2, z.2.foreignWrite (s.ldCtx fd l).val r.1 (slice bs z.1 r.2) 0 false)) (0, s)).2

/-- DIGEST_KEY of a cluster (R423). -/
def State.digestKey (s : State) (fd : Nat) : BitVec 128 := s.reg (ueReg fd 0x28) ++ s.reg (ueReg fd 0x20)

/-- A run's next values (R412) from its digest. -/
def ueNextOf (sc : Int) (dig : BitVec 128) (ratio nd nw : Nat) : UeNext :=
  ⟨sc, dig.extractLsb' 0 64, dig.extractLsb' 64 64, ratio, nd, nw⟩

/-- The next bank, the ring entry and the next values of a run of routine 0 (R405, R410, R416). -/
def State.ueStore (s : State) (fd : FdId) (l : Nat) (r : UeRun) : State :=
  let f := fd.val
  let next := 1 - s.ld f l 0 60 60
  let two (xs : List Nat) : List Byte := xs.flatMap (leBytes 2)
  let s := s.uePutSec f l next .w (two r.w)
  let s := s.uePutSec f l next .res (r.res.flatMap fun x => leBytes 1 (toTwos 8 x))
  let s := s.uePutSec f l next .m (two r.m)
  let s := s.uePutSec f l next .rs (two r.rs)
  let s := s.uePutSec f l next .cs (two r.cs)
  let s := s.foreignWrite (s.ldCtx f l).val (s.ld f l 13 39 0 + 16 * s.regField (ldState f l) 60 55)
    (leBytes 4 (s.ld f l 2 63 32) ++ leBytes 4 r.ratio ++ leBytes 4 r.nd ++ leBytes 4 r.nw) 0 false
  let dig := digestOf (s.digestKey f) (s.ld f l 0 31 0) r.w r.res
  s.setLayer f l { s.layer f l with result := some (ueNextOf r.sc dig r.ratio r.nd r.nw) }

/-- Next values of a run of another routine: its digest over what it left in the next bank; what sc and the
ratio are the spec does not say (DESIGN CHOICE, log entry 17). -/
def State.ueOther (s : State) (fd : FdId) (l : Nat) : State :=
  let f := fd.val
  let next := 1 - s.ld f l 0 60 60
  let ctx := s.ldCtx f l
  let w := s.ueFetch fd ctx (s.secRanges f l next .w)
  let r := w.2.2.ueFetch fd ctx (s.secRanges f l next .res)
  let dig := digestOf (s.digestKey f) (s.ld f l 0 31 0) (elems 2 w.1) ((elems 1 r.1).map (ofTwos 8))
  let a := r.2.2.free
  let b := a.2.free
  b.2.setLayer f l { b.2.layer f l with
    result := some (ueNextOf (ofTwos 8 (a.1.toNat % 256)) dig (b.1.toNat % 2 ^ 32) 0 0) }

/-- Whether a called-for widening does not exist: A + 16 above 127 (R411). -/
def State.ueNoWider (s : State) (fd l : Nat) : Bool :=
  let x := s.layer fd l
  (x.wovfS && decide (127 < anchorOf (s.ld fd l 3 55 48) + 16 * (x.wideS + 1))) ||
  (x.wovfN && decide (127 < anchorOf (s.ld fd l 3 47 40) + 16 * (x.wideN + 1)))

/-- The outcome of a run whose cores have all ended (Table 11.12): PHASE, the flags that the collection
carries, and for a clean run of routine 0 its multicasts. -/
def State.ueOutcome (s : State) (fd : FdId) (l : Nat) (zero : Bool) : State :=
  let f := fd.val
  let x := s.layer f l
  let ctx := s.ldCtx f l
  let id := BitVec.ofNat 32 (s.ld f l 0 31 0)
  let s := if x.rovf then s.ueFlag f l 62 else s
  let s := if x.wovfS || x.wovfN then s.ueFlag f l 61 else s
  let s :=
    if x.special then ((s.ueFlag f l 63).setPhase f l 5).note ctx ⟨id, false, false, false, true, false⟩
    else
      let s := s.setPhase f l 4
      if x.rovf || s.ueNoWider f l then s.note ctx ⟨id, false, false, false, false, true⟩
      else if x.wovfS || x.wovfN then s.note ctx ⟨id, true, false, false, false, false⟩
      else if zero then (s.ueGos f l).foldl (fun s v => ((s.mcGo fd v ctx).1).getD s) s
      else s
  s.ueSettle f l

/-- The run ends with its last core: routine 0 leaves what R405 computes (DESIGN CHOICE, log entry 18). -/
def State.ueFinish (s : State) (fd : FdId) (l core : Nat) : State :=
  let f := fd.val
  let zero := decide (s.ld f l 13 63 58 = 0)
  if (s.layer f l).special then s.ueOutcome fd l zero
  else if !zero then (s.ueOther fd l).ueOutcome fd l zero
  else
    let i := s.ueInputs fd l
    match i.2.1 with
    | some a => i.2.2.ueFault f l core 5 (s.core f core).pc.toNat (2 * 2 ^ 40 + a)
    | none =>
      let r := routine0 i.1
      let s := i.2.2
      let x := s.layer f l
      let s := s.setLayer f l { x with wovfS := x.wovfS || r.wovfS, wovfN := x.wovfN || r.wovfN,
                                       rovf := x.rovf || r.rovf, special := x.special || r.special }
      (if r.special then s else s.ueStore fd l r).ueOutcome fd l zero

/-- Lines that the end of a run reads and writes. -/
def State.ueLines (s : State) (fd l : Nat) : List (Nat × Bool) :=
  (s.ueReads fd l).flatMap (fun r => readyList r.1 r.2 false) ++
  (s.ueWrites fd l).flatMap (fun r => readyList r.1 r.2 true) ++
  (s.ueGos fd l).flatMap fun v => (s.mcNamed fd v).elim [] (s.mcLines fd)

/-- UE.DONE (Table 11.4): IMM 0 clean, 1 a special value met; other values are reserved. The last core of
the group ends the run. -/
def execUeDone (fd : FdId) (c : Fin 16) (w : BitVec 56) (s : State) : Host.Outcome State Fault Refusal :=
  .next (s.vuInstr (.core fd c) fun v s =>
    let f := fd.val
    match s.layerOf f c.val with
    | none => s
    | some l =>
      if !(vxWordOk w) || decide (1 < vxImm w) then s.vuFault (.core fd c) 1 0 0 0 .load
      else
        let x := s.layer f l
        let last := x.cores.all fun k => decide (k = c.val) || x.done.contains k
        let z := if last then s.readyLines (s.ueLines f l) else (false, s)
        if z.1 then z.2.wait (.ueDone fd c w)
        else
          let s := z.2.setLayer f l { x with done := x.done ++ [c.val], special := x.special || decide (vxImm w = 1) }
          let s := (s.setCore f c.val { v with running := false, pc := v.pc + 8 }).gbarTry f l
          if last then s.ueFinish fd l c.val else s)

/-! ### Digests -/

/-- Word base DIG_SYNC (R423). -/
def State.digSync (s : State) (fd : Nat) : Nat :=
  let a := ueReg fd 0x18
  s.regField a 39 34 * 2 ^ 34 + 3 * 2 ^ 30 + 8 * s.regField a 63 48

/-- DIGEST_REPORT (R419): the lead's system controller reads the slot once contributions have come, clears
it, re-initialises its word and reports the digest to the master. -/
def execDigestReport (k : Fin 8) (s : State) : Host.Outcome State Fault Refusal :=
  .next (
    let ga := s.regField (ueReg 0 0x18) 39 0 + 128 * k.val
    let word := s.digSync 0 + 8 * k.val
    let cfg := ueReg 0 0x10
    if !s.on || decide (s.regField cfg 52 41 ≠ s.selfIndex.toNat) || decide (s.regField cfg 63 53 = 0) ||
        decide (syCount (s.syncWord word) = 0) then s
    else
      let w := s.readyLines (readyList ga 16 true)
      if w.1 then w.2.wait (.digestReport k)
      else
        let r := w.2.foreignRead .controller 0 ga 16 0
        let s := r.2.2.foreignWrite 0 ga (List.replicate 16 0) 0 false
        let img := putBits (putBits 0 63 62 1) 61 54 (s.regField cfg 40 33)
        (s.syncInit word img).2.send (.digest (s.regField cfg 32 21) k.val (BitVec.ofNat 128 (leNat r.1))))

/-- The value that a strict majority of reports share. -/
def majority (reports : List (Nat × BitVec 128)) : Option (BitVec 128) :=
  (reports.find? fun r => decide (reports.length < 2 * (reports.filter fun q => q.2 = r.2).length)).map (·.2)

/-- DIGEST_COMPARE (R420, R591): the master compares one step's digests of the active replicas. Equal ones
make the step the last agreed; else record 0x5003 with each replica's index and the two lanes of the first
replica outside the majority, and every domain of the job is held from the first frame boundary at or
after HOLD_LEAD. Expulsion, rollback and shadow execution are the runtime's. -/
def execDigestCompare (step : BitVec 32) (reports : List (Nat × BitVec 128)) (s : State) :
    Host.Outcome State Fault Refusal :=
  .next (
    if !s.on || !s.isMaster || decide (s.fw.nrepl < 2 ∨ reports.length < s.fw.nrepl) then s
    else
      match reports with
      | [] => s
      | first :: rest =>
        if rest.all fun r => decide (r.2 = first.2) then { s with fw := { s.fw with agreed := some step } }
        else
          let m := (majority reports).getD first.2
          let out := ((reports.find? fun r => decide (r.2 ≠ m)).getD first)
          let ids := reports.foldr (fun r n => n * 256 + r.1 % 256) 0
          let s := s.raise { cls := .contained, code := 0x5003, die := 48, kind := 12, inst := 0, ctx := 0,
                             tile := none, location := out.1, step := step.toNat, layer := 0,
                             detail := out.2.toNat + ids % 2 ^ 32 * 2 ^ 128 }
          ([0, 1] : List (Fin 2)).foldl (fun s d =>
            if (s.dom d).started then
              s.masterHold d ⟨2, false, frameUp (s.ftc + s.holdLead d.val), 0, none⟩
            else s) s)

end Sys2Proof.Machine
end

