-- ==== Sys2Proof/Machine/Commit.lean ====
section
/-!
DEFINITION. What takes effect at commit points and at the beginning and end of holds: commits and repeats of
units (R330 to R333, R412, R417, R419), fences that wait (R579), holds (R335 to R340), the end of a domain.
-/

namespace Sys2Proof.Machine

/-! ### Fences -/

/-- A lane of a torus port fenced by command (R348, R576): direction 0 sends, 1 receives; the port trains again
without it. -/
def State.fenceLane (s : State) (p dir lane : Nat) : State :=
  let st := s.linkState p
  let s := if dir = 1 then s.laneLost p lane
    else
      let x := s.link p
      let bit : BitVec 64 := 1#64 <<< lane
      let s := (s.setLink p { x with partner := x.partner.map fun g => g &&& ~~~bit }).setReg (linkReg p 0x18)
        (s.reg (linkReg p 0x18) &&& ~~~bit)
      s.capBump.raiseFence 0x8001 4 p 0 lane
  if st = 4 then s.toRetrain p else s

/-- Whether a unit is fenced itself, at the grain named; an array is for a ninth column too (R93). -/
def State.isFenced (s : State) (grain a b c : Nat) : Bool :=
  match grain with
  | 1 => s.arrayFenced (tileOf (a * 12 + b))
  | 4 => if b = 1 then (s.link a).bad.getLsbD c else decide (3 ≤ s.linkState a) && !((s.reg (linkReg a 0x18)).getLsbD c)
  | 5 => decide (s.linkState a = 6)
  | g => s.hasFence g a b c

/-- A fence applied (R576): a fenced tile leaves every barrier mask (R285); packages on a fenced die are
deleted with it (R589). -/
def State.applyFence (s : State) (f : FenceEnt) : State :=
  if s.isFenced f.grain f.a f.b f.c then s
  else if f.grain = 4 then s.fenceLane f.a f.b f.c
  else if f.grain = 5 then (s.setLinkState f.a 6).raiseFence 0x8001 5 f.a 0 0
  else
    let s := s.enterFence f
    match f.grain with
    | 2 => s.barFenceTile (tileOf f.a)
    | 3 =>
      let s := (List.range 12).foldl (fun s i => s.barFenceTile (tileOf (f.a * 12 + i))) s
      if f.a = 0 ∨ f.a = 5 ∨ f.a = 42 ∨ f.a = 47 then { s with evt := { s.evt with pkgs := [] } } else s
    | _ => s

/-- A fence of an array waits for its open run (R94). -/
def State.fenceArray (s : State) (f : FenceEnt) : State :=
  let t := tileOf (f.a * 12 + f.b)
  let x := (s.tile t).mxa
  if (f.grain = 0 ∨ f.grain = 1) ∧ x.run.isSome then
    let p : ArrayFence := if f.grain = 0 then .column (Fin.ofNat 128 f.c) f.pkg else .whole f.pkg
    s.setMxa t { x with pending := x.pending ++ [p] }
  else s.applyFence f

/-- A hot fence takes effect (R96, R579): when it would make an array narrower than the extent that the job
recorded, the whole tile is fenced as well for the rest of the job. -/
def State.fenceHot (s : State) (d : Fin 2) (f : FenceEnt) : State :=
  let t := tileOf (f.a * 12 + f.b)
  let ext := ((mapGet ⟨0, 0, 0⟩ (s.dom d).plan t.val : PlanEnt)).extent
  let narrow := (f.grain = 0 ∧ s.width t < ext + 1) ∨ (f.grain = 1 ∧ ext ≠ 0)
  let s := s.fenceArray f
  if narrow ∧ 0 < ext then s.applyFence ⟨2, t.val, 0, 0, f.pkg, true⟩ else s

/-- Hot fences of a slot applied, and the FENCE commands that waited for them completed (R495). -/
def State.fencesNow (s : State) (d : Fin 2) : State :=
  let l := (s.dom d).fences
  if l = [] then s
  else
    let s := s.setDom d { s.dom d with fences := [] }
    let s := l.foldl (fun s f => s.fenceHot d ⟨f.1, f.2.1, f.2.2.1, f.2.2.2, 0, false⟩) s
    s.settleLater (.fenced d) 0 (leBytes 8 s.capVersion)

/-! ### The module's state -/

/-- ACTIVE while a started domain is out of hold, else HELD (Table 14.4). -/
def State.showState (s : State) : State :=
  let busy := ([0, 1] : List (Fin 2)).any fun d => (s.dom d).started && !(s.dom d).hold.active
  let any := (s.dom 0).started || (s.dom 1).started
  if (s.modState = 5 ∨ s.modState = 6) ∧ any then s.toState (if busy then 5 else 6) else s

/-! ### The end of a domain -/

/-- Pin ranges and pinned ways that a job set on a die are cleared, down to what the other job set (R237). -/
def State.unpin (s : State) (d : Fin 2) (die : Nat) : State :=
  let x := s.dom d
  let o : Fin 2 := if d = 0 then 1 else 0
  let s := (x.pins.filter fun p => decide (p.1 = die)).foldl (fun s p => s.setReg (hcReg p.1 (0x40 + 8 * p.2)) 0) s
  let s := s.setDom d { s.dom d with pins := x.pins.filter fun p => decide (p.1 ≠ die), pinWays := mapSet 0 x.pinWays die 0 }
  (s.setField (hcReg die 8) 3 0 (mapGet 0 (s.dom o).pinWays die)).pinTidy die

/-- Compute dies for which a job has pins. -/
def DomSt.pinDies (x : DomSt) : List Nat := ((x.pins.map (·.1)) ++ (x.pinWays.map (·.1))).dedup

/-- A domain ends (R96, R237, R313, Table 14.4): its streams stop, its slot is free, tile fences that lasted
for the job are lifted, pins cleared; with no started domain left the module is READY. -/
def State.endDomain (s : State) (d : Fin 2) : State :=
  let x := s.dom d
  let tiles := s.jobTiles d
  let s := tiles.foldl (fun s t => s.setSeq t { (s.tile t).seq with running := false, wait := .none, unit := none }) s
  let s := (x.pinDies.foldl (fun s die => s.unpin d die) s).setDom d DomSt.reset
  let s := (s.fences.filter fun f => f.job && tiles.any fun t => decide (t.val = f.a)).foldl (fun s f => s.liftFence f) s
  let jobs := mapSet JobInfo.reset s.fw.jobs d.val JobInfo.reset
  let plans := mapSet none s.fw.plans d.val none
  let s : State := { s with fw := { s.fw with jobs := jobs, plans := plans } }
  let s := (s.setDomField d.val 16 63 0 0).showMode d
  let s := if !(s.dom 0).started && !(s.dom 1).started && decide (5 ≤ s.modState ∧ s.modState ≤ 7) then
      s.toState 4 else s.showState
  let s := s.settleLater (.ended d) 0 []
  (s.settleLater (.held d) 0 (leBytes 8 0)).settleLater (.fenced d) 0 (leBytes 8 s.capVersion)

/-- Whether every stream of a slot's job has come to its end. -/
def State.streamsEnded (s : State) (d : Fin 2) : Bool :=
  (s.dom d).started && (s.jobTiles d).all fun t => !(s.tile t).seq.running && !(s.tile t).seq.fault

/-- TSQ.END (R321, Table 14.4): the stream ends; with the job's last one the domain ends. -/
def execTsqEnd (t : TileId) (w : BitVec 120) (s : State) : Host.Outcome State Fault Refusal :=
  .next (s.seqWord t fun _ s =>
    if w ≠ 0 then s.seqFault t 1
    else
      let q := (s.tile t).seq
      let s := s.setSeq t { q with running := false, unit := none }
      if s.streamsEnded q.dom then s.endDomain q.dom else s)

/-! ### Commits -/

/-- Layers of a unit: fabric die and index of the valid descriptors of a context that name it. -/
def State.unitLayers (s : State) (ctx : CtxId) (u : Nat) : List (Nat × Nat) :=
  (List.range 4).flatMap fun fd => (List.range 128).filterMap fun l =>
    if s.ld fd l 0 63 63 = 1 ∧ s.ldCtx fd l = ctx ∧ s.ld fd l 3 13 0 = u then some (fd, l) else none

/-- Whether a ratio lies out of its bounds (R417): +0 is not checked, and a NaN lies above. -/
def ratioOut (ratio lo hi : Nat) : Bool :=
  let r := fmt32.decode ratio
  (decide (lo ≠ 0) && FVal.numLt r (fmt32.decode lo)) ||
  (decide (hi ≠ 0) && (r.isNan || FVal.numLt (fmt32.decode hi) r))

/-- The ratio monitor at a commit (R417). -/
def State.ratioCheck (s : State) (fd l : Nat) (r : UeNext) : State :=
  if ratioOut r.ratio (s.ld fd l 7 63 32) (s.ld fd l 7 31 0) then
    ((s.raiseUe fd l .corrected 0x5002 0 r.ratio).ueBump fd 0x138).ueFlag fd l 58
  else s

/-- A layer's run is over: its notices and flags are dropped, PHASE is IDLE. -/
def State.layerRest (s : State) (fd l : Nat) : State :=
  let s := s.setLayer fd l UeLayer.reset
  let a := ldState fd l
  s.setReg a (putBits (putBits (putBits (s.reg a) 63 61 0) 54 39 0) 38 36 0)

/-- One layer at its unit's commit point (R411, R412). -/
def State.commitLayer (s : State) (fd l : Nat) : State :=
  let step := s.ld fd l 2 63 32
  match s.ldPhase fd l, (s.layer fd l).result with
  | 4, some r =>
    let s := (s.ratioCheck fd l r).ueBump fd 0x128
    let s := s.setField (ldReg fd l 0) 60 60 (1 - s.ld fd l 0 60 60)
    let bc := s.ld fd l 2 31 16
    let s := (s.setField (ldReg fd l 2) 63 32 (step + 1)).setField (ldReg fd l 2) 31 16 (min (bc + 1) (s.ld fd l 2 15 0))
    let s := s.setField (ldReg fd l 3) 27 20 (toTwos 8 r.scale)
    let s := (s.setReg (ldReg fd l 14) r.lo).setReg (ldReg fd l 15) r.hi
    let a := ldState fd l
    let s := (s.setField a 60 55 (s.regField a 60 55 + 1)).setField a 31 0 step
    s.layerRest fd l
  | 5, _ =>
    let s := (s.raiseUe fd l .contained 0x5001 0 0).ueBump fd 0x130
    (s.setField (ldReg fd l 2) 63 32 (step + 1)).layerRest fd l
  | _, _ => s

/-- The sum of a cluster's digests over its valid layers (R419). -/
def State.clusterDigest (s : State) (fd : Nat) : Option (BitVec 128) :=
  let ls := (List.range 128).filter fun l => decide (s.ld fd l 0 63 63 = 1)
  if ls = [] then none
  else some (ls.foldl (fun z l => laneAdd z (s.reg (ldReg fd l 15) ++ s.reg (ldReg fd l 14))) 0)

/-- Slot of a step's digest, when the step is compared (R419). -/
def State.digestSlot (s : State) (step : Nat) : Option Nat :=
  let n := s.regField (ueReg 0 0x10) 63 53
  if n = 0 ∨ step % n ≠ 0 then none else some (step / n % 8)

/-- Digest contributions of the clusters (R419): a reduce-write of int64 over two elements to the slot on LEAD,
then a signal of its word. -/
def State.digestSend (s : State) (d : Fin 2) (k : Nat) : State :=
  let x := s.dom d
  (List.range 4).foldl (fun s fd =>
    match s.clusterDigest fd with
    | none => s
    | some v =>
      let cfg := ueReg fd 0x10
      let lead := s.regField cfg 52 41
      let gen := s.regField cfg 40 33
      let ga := s.regField (ueReg fd 0x18) 39 0 + 128 * k
      let word := s.digSync fd + 8 * k
      let data := BitVec.ofNat 1024 v.toNat
      let s := if lead = s.selfIndex.toNat then
          ((s.redArrive false x.ctx 0 ga 1 3 data).syncSig word gen 1).2
        else
          let s := s.newReq .posted lead 3 x.ctx.val x.key.toNat ga 128 1 3 false (leBytes 128 data.toNat)
          s.newReq .posted lead 4 x.ctx.val x.key.toNat word 8 0 (gen * 2 ^ 56 + 1) false []
      s.ueBump fd 0x140) s

/-- Lines of this module that the contributions of a commit write. -/
def State.digestLines (s : State) (k : Nat) : List (Nat × Bool) :=
  (List.range 4).filterMap fun fd =>
    if (s.clusterDigest fd).isSome ∧ s.regField (ueReg fd 0x10) 52 41 = s.selfIndex.toNat then
      some (s.regField (ueReg fd 0x18) 39 0 + 128 * k, true)
    else none

/-- UE_DIG_CFG.N written on every cluster. -/
def State.setDigestN (s : State) (n : Nat) : State :=
  (List.range 4).foldl (fun s fd => s.setField (ueReg fd 0x10) 63 53 n) s

/-- The end of a step, once its units have committed: DIGEST_POLICY's interval applies, and a draining domain
ends (Table 14.9). -/
def State.stepCommitted (s : State) (d : Fin 2) : State :=
  let s := match s.fw.policy with
    | none => s
    | some n => ({ s with fw := { s.fw with policy := none } } : State).setDigestN n
  if (s.dom d).draining.isSome then s.endDomain d else s

/-- Whether a decision for a unit can take effect now (R330, R331, R336): on the master, the one it made, from
K on; nowhere while the domain is paused. -/
def State.decidedNow (s : State) (d : Fin 2) (u : Nat) (o : Outcome) : Bool :=
  let x := s.dom d
  let out := (x.unit u).isSome && x.started && !(s.paused d)
  match x.decided with
  | some k => out && decide (k.unit = u ∧ k.outcome = o ∧ k.k ≤ s.ftc)
  | none => out && !s.isMaster

/-- UNIT_COMMIT (R412, R417, R419): every layer of the unit in one step, then digests when the step is
compared; the unit is done, and a repeat of it ends (DEDUCED, log entry 64). -/
def execUnitCommit (d : Fin 2) (u : BitVec 16) (s : State) : Host.Outcome State Fault Refusal :=
  .next (
    if !s.on || !(s.decidedNow d u.toNat .commit) then s
    else
      let x := s.dom d
      let ls := s.unitLayers x.ctx u.toNat
      let upd := ls.any fun e => decide (s.ldPhase e.1 e.2 = 4 ∨ s.ldPhase e.1 e.2 = 5)
      let slot := if upd then s.digestSlot (s.jobStep d) else none
      let w := s.readyLines (slot.elim [] s.digestLines)
      if w.1 then w.2.wait (.unitCommit d u)
      else
        let s := ls.foldl (fun s e => s.commitLayer e.1 e.2) w.2
        let s := slot.elim s (s.digestSend d)
        let s := (List.range 4).foldl (fun s fd =>
          let c := s.cluster fd
          s.setCluster fd { c with begun := c.begun.filter (· ≠ u.toNat) }) s
        let y := s.dom d
        let s := s.setDom d { y with decided := none }
        let s : State := match y.dyn with
          | .repeated us =>
            if us = [u.toNat] then s.letEnd d 2 (frameUp s.ftc)
            else s.setDom d { s.dom d with dyn := .repeated (us.filter (· ≠ u.toNat)) }
          | _ => s
        let n := (s.dom d).stepNo
        let s := s.unitDone d u.toNat
        if (s.dom d).stepNo ≠ n then s.stepCommitted d else s)

/-! ### Repeats -/

/-- A layer of a unit that repeats (R411, R412): its next values are discarded, its notices kept, and the sums
that overflowed are widened. -/
def State.repeatLayer (s : State) (fd l : Nat) : State :=
  if s.ldPhase fd l < 2 then s
  else
    let x := s.layer fd l
    let s := s.coresStop fd l
    let x' : UeLayer :=
      { x with cores := [], done := [], gbar := [], wovfS := false, wovfN := false, rovf := false, special := false,
               wideS := x.wideS + (if x.wovfS then 1 else 0), wideN := x.wideN + (if x.wovfN then 1 else 0),
               result := none }
    let s := (s.setLayer fd l x').setPhase fd l 1
    s.setField (ldState fd l) 38 36 ((if x'.wideS = 0 then 0 else 1) + (if x'.wideN = 0 then 0 else 2))

/-- A tile of a unit that repeats returns to the word after its TSQ.UNIT once its engines are idle (R332); a
tile that has not reached it runs on. -/
def State.repeatTile (s : State) (u : Nat) (t : TileId) : State :=
  let q := (s.tile t).seq
  match q.marks.find? fun m => decide (m.unit = u) with
  | none => s
  | some m =>
    if !q.running then s
    else s.setSeq t { q with pc := m.pc, step := m.step, stepBase := m.base, unit := some u, flags := [],
                             fault := false, late := false, wait := .join 15 }

/-- UNIT_REPEAT (R332): a hold of cause "repeat" from K, in which the unit's tiles run again in dynamic mode
with the widenings decided. -/
def execUnitRepeat (d : Fin 2) (u : BitVec 16) (s : State) : Host.Outcome State Fault Refusal :=
  .next (
    if !s.on || !(s.decidedNow d u.toNat .repeated) then s
    else
      let x := s.dom d
      let k := (x.decided.map (·.k)).getD s.ftc
      let late := if x.hold.active then 0 else s.ftc - k
      let b := if x.hold.active then x.hold.b else k
      let reqs := (x.hold.reqs.filter fun r => decide (r.bit ≠ 2)) ++ [(⟨2, false, k, 0, none⟩ : HoldReq)]
      let others := match x.dyn with
        | .repeated us => us.filter (· ≠ u.toNat)
        | _ => []
      let s := s.setDom d { x with decided := none, dyn := .repeated (u.toNat :: others), repeats := x.repeats + 1 }
      let s := (s.setHold d ⟨true, b, reqs⟩).holdTicks d late
      let s := (s.fabBump 0x110 1).fabBump 0x100 (if x.hold.active then 0 else 1)
      let s := (s.unitLayers x.ctx u.toNat).foldl (fun s e => s.repeatLayer e.1 e.2) s
      let tiles := (List.range 576).filter fun t => (x.unit u.toNat).any fun r => r.tiles.getLsbD t
      (tiles.foldl (fun s t => s.repeatTile u.toNat (tileOf t)) s).showState)

/-! ### Holds -/

/-- A dynamic fallback begins (R339): record 0x3004 with the step (DEDUCED, log entry 63). -/
def State.fallbackNow (s : State) (d : Fin 2) : State :=
  let x := s.dom d
  let h := x.hold
  let s := s.setDom d { x with hold := { h with reqs := h.reqs.filter fun r => decide (r.bit ≠ 3) },
                               dyn := if x.dyn = .none then .fallback else x.dyn, static := none }
  ((s.fabBump 0x118 1).raiseMaster d .corrected 0x3004 0 0).showHold d |>.showMode d

/-- The firmware throttle of a domain's tiles back at 64: a power hold has begun (R543). -/
def State.unthrottle (s : State) (d : Fin 2) : State :=
  (s.jobTiles d).foldl (fun s t => s.setField (regGa (tileDie t) (0x130208 + 0x10 * tileIdx t)) 54 48 64) s

/-- Whether a cause of an active hold is open-ended and no repeat under way (R581, R583): a hot fence joins it. -/
def State.openEnded (s : State) (d : Fin 2) (r : HoldReq) : Bool :=
  let rep := match (s.dom d).dyn with
    | .repeated _ => true
    | _ => false
  decide (r.frames = 0 ∧ s.reqB d.val r ≤ s.ftc) && !(rep && decide (r.bit = 2))

/-- The causes of a hold that begins: a hot fence whose step boundary lies inside another open-ended hold begins
with it (R581). -/
def State.joinFence (s : State) (d : Fin 2) (b : Nat) : List HoldReq :=
  let l := (s.dom d).hold.reqs
  if l.any fun r => decide (r.bit ≠ 4) && s.openEnded d r then
    l.map fun r => if r.bit = 4 then { r with atStep := false, b := min b (s.reqB d.val r) } else r
  else l

/-- A hold that begins (R335): schedule time stands still from B on; hot fences whose hold it is take effect
(R579). -/
def State.holdNow (s : State) (d : Fin 2) : State :=
  let h := (s.dom d).hold
  let b := s.holdB d
  let reqs := s.joinFence d b
  let begun := reqs.filter fun r => decide (s.reqB d.val r ≤ s.ftc)
  let s := (s.setHold d { h with active := true, b := b, reqs := reqs }).holdTicks d (s.ftc - b)
  let s := (s.fabBump 0x100 1).showState
  let s := if begun.any fun r => decide (r.bit = 4) then s.fencesNow d else s
  let s := if begun.any fun r => decide (r.bit = 5) then
      let o : Fin 2 := if d = 0 then 1 else 0
      if (s.dom o).hold.active then s.letEnd o 5 (frameUp s.ftc) else s
    else s
  let s := if begun.any fun r => decide (r.bit = 0) then s.unthrottle d else s
  if h.reqs.any fun r => decide (r.bit = 1) then s.settleLater (.held d) 0 (leBytes 8 b) else s

/-- HOLD_BEGIN (R335, R336, R339): the pending hold's B has come. In a hold that other causes began, a hot fence
whose own B has come takes effect (R579). -/
def execHoldBegin (d : Fin 2) (s : State) : Host.Outcome State Fault Refusal :=
  .next (
    let h := (s.dom d).hold
    let begun := h.reqs.filter fun r => decide (s.reqB d.val r ≤ s.ftc)
    if !s.on || !(s.dom d).started || begun.isEmpty then s
    else if h.active then (if begun.any fun r => decide (r.bit = 4) then s.fencesNow d else s)
    else
      let s := if begun.any fun r => decide (r.bit = 3) then s.fallbackNow d else s
      if begun.all fun r => decide (r.bit = 3) then s else s.holdNow d)

/-- Replica settings (R522): UE_DIG_CFG and UE_DIG_GA on every fabric die, and V of the job's layer
descriptors. -/
def State.replicaApply (s : State) (d : Fin 2) (p : List Byte) : State :=
  let ids := (List.range (field p 20 2)).map fun i => field p (32 + 4 * i) 4
  let s := (List.range 4).foldl (fun s fd =>
    let a := ueReg fd 0x10
    let s := ((s.setField a 52 41 (field p 4 2)).setField a 40 33 (field p 6 1)).setField a 32 21 (field p 2 2)
    let b := ueReg fd 0x18
    (s.setField b 63 48 (field p 16 2)).setField b 39 0 (field p 8 8)) s
  let s := ((mapGet JobInfo.reset s.fw.jobs d.val).layers).foldl (fun s e =>
    s.setField (ldReg e.1 e.2 0) 63 63 (if ids.contains (s.ld e.1 e.2 0 31 0) then 1 else 0)) s
  { s with fw := { s.fw with nrepl := field p 0 2 } }

/-- Whether a domain's hold can end now (R335, R336, Table 9.6): at a frame boundary, once every cause that has
begun lets it. A module that is not the master takes the end of an open-ended cause from it. -/
def State.holdEnds (s : State) (d : Fin 2) : Bool :=
  let h := (s.dom d).hold
  h.active && decide (s.ftc % 65536 = 0) &&
  (h.reqs.filter fun r => decide (s.reqB d.val r ≤ s.ftc)).all fun r =>
    match r.ends with
    | some e => decide (e ≤ s.ftc)
    | none => !s.isMaster

/-- Static mode again after a fallback (R339): the shift grows by the time lost, and the tiles begin the next
step. -/
def State.staticAgain (s : State) (d : Fin 2) : State :=
  let tiles := (s.jobTiles d).filter fun t => decide ((s.tile t).seq.wait = .stepEnd)
  let base := (tiles.head?.map fun t => (s.tile t).seq.stepBase * 65536).getD (s.sched d.val)
  let s := s.setDom d { s.dom d with dyn := .none, static := none }
  let s := s.holdTicks d (s.ftc - base - s.shift d.val)
  tiles.foldl (fun s t => s.setSeq t { (s.tile t).seq with wait := .none }) s

/-- Flits that waited are sent on every link. -/
def State.pumpAll (s : State) : State := (List.range 10).foldl (fun s l => s.pump l) s

/-- HOLD_END (R335, R336, R339): schedule time goes on from where it stood; causes that have not begun stay
pending; replica settings that waited take effect. Or a fallback comes to its end, or a cause whose end has come
leaves a hold that others extend. -/
def execHoldEnd (d : Fin 2) (s : State) : Host.Outcome State Fault Refusal :=
  .next (
    let x := s.dom d
    let resume := decide (x.dyn = .fallback) && x.static.any fun f => decide (f ≤ s.ftc ∧ s.ftc % 65536 = 0)
    if !s.on || !x.started then s
    else if s.holdEnds d then
      let reqs := x.hold.reqs.filter fun r => !(decide (s.reqB d.val r ≤ s.ftc))
      let rep := x.hold.reqs.any fun r => decide (r.bit = 2)
      let s := match x.replica with
        | none => s
        | some p => (s.setDom d { s.dom d with replica := none }).replicaApply d p
      let y := s.dom d
      let dyn := match y.dyn with
        | .repeated _ => if rep then DynCause.none else y.dyn
        | k => k
      let s := s.setDom d { y with dyn := dyn, hold := ⟨false, 0, reqs⟩ }
      let s := if resume then s.staticAgain d else s
      ((s.showHold d).showMode d).pumpAll.showState
    else if resume && !x.hold.active then ((((s.staticAgain d).showHold d).showMode d).pumpAll).showState
    else if x.hold.active && decide (s.ftc % 65536 = 0) then
      let ended (r : HoldReq) : Bool := decide (r.bit ≠ 2) && r.ends.any fun e => decide (e ≤ s.ftc)
      s.setHold d { x.hold with reqs := x.hold.reqs.filter fun r => !(ended r) }
    else s)

end Sys2Proof.Machine
end

