-- ==== Sys2Proof/Machine/Time.lean ====
section
/-!
DEFINITION. Fabric time: PPS and REFCLK, the time tree, takeover by the deputy (R301 to R308, R353,
R383, R616).
-/

namespace Sys2Proof.Machine

/-! ### Ports -/

/-- A port's entry in the time unit. -/
def State.portTime (s : State) (p : Nat) : PortTime := mapGet PortTime.reset s.time.ports p

/-- The state with a port's entry replaced. -/
def State.setPortTime (s : State) (p : Nat) (x : PortTime) : State :=
  { s with time := { s.time with ports := mapSet PortTime.reset s.time.ports p x } }

/-- The stamp of R353: FTC[31:0] and FRAC[15:8]. -/
def State.stamp (s : State) : Nat := s.ftc % 2 ^ 32 * 256 + s.regField (regGa 48 0x8008) 15 8

/-- Signed difference modulo 2^40 (R353). -/
def d40 (a b : Nat) : Int :=
  let d : Nat := (a + 2 ^ 40 - b % 2 ^ 40) % 2 ^ 40
  if 2 ^ 39 ≤ d then (d : Int) - 2 ^ 40 else (d : Int)

/-- A field of FAB_TIME_STATUS, read, and set on every fabric die. -/
def State.timeField (s : State) (hi lo : Nat) : Nat := s.regField (regGa 48 0x8010) hi lo
def State.setTime (s : State) (hi lo v : Nat) : State :=
  (List.range 4).foldl (fun s f => s.setField (regGa (48 + f) 0x8010) hi lo v) s

/-- Record 0x3005 (kind 0x0E of FD0, R566). -/
def State.timeEvent (s : State) : State :=
  s.raise { cls := .contained, code := 0x3005, die := 48, kind := 14, inst := 0, ctx := 0, tile := none,
            location := 0, step := 0, layer := 0, detail := 0 }

/-! ### PPS -/

/-- PPS_EDGE (R303, R616): the master takes its reference value at the edge after MASTER_SET, stepping
the FTC forward only before the first lock; a master that relocks is LOCKED once an edge falls within
20 ns, 9 ft, of the tick it steers to (DEDUCED, log entry 59). -/
def execPpsEdge (s : State) : Host.Outcome State Fault Refusal :=
  .next (
    if !s.on then s
    else
      let s := (s.setTime 51 51 1)
      let s := { s with time := { s.time with ppsAt := s.ftc } }
      if s.timeField 63 62 ≠ 1 ∨ s.timeField 50 50 = 0 then s
      else
        match s.time.ppsNext with
        | some v =>
          let f := if !s.time.locked ∧ s.ftc < v then v else s.ftc
          let s := { s with ftc := f, time := { s.time with ppsNext := none, reference := f, locked := true,
                                                            ppsAt := f } }
          ((s.setTime 53 52 2).setTime 45 40 0).setTime 49 46 15
        | none =>
          let r := (s.ftc + 450000000 - s.time.reference % 450000000) % 450000000
          if s.timeField 53 52 = 1 ∧ s.time.locked ∧ (r ≤ 9 ∨ 450000000 - 9 ≤ r) then s.setTime 53 52 2
          else s)

/-- PPS_LOSS (R303): no edge for 3 s. -/
def execPpsLoss (s : State) : Host.Outcome State Fault Refusal :=
  .next (
    if s.on && decide (s.timeField 51 51 = 1) && decide (s.time.ppsAt + 1350000000 ≤ s.ftc) then
      s.setTime 51 51 0
    else s)

/-! ### The time tree -/

/-- TIME_SEND (R353). -/
def execTimeSend (p : PortId) (s : State) : Host.Outcome State Fault Refusal :=
  .next (
    if !s.on || decide (s.linkState p.val ≠ 4) then s
    else
      let x := s.portTime p.val
      let m := s.stamp * 2 ^ 72 + x.echo * 2 ^ 32 + s.timeField 45 40 * 2 ^ 26 + s.timeField 53 52 * 2 ^ 24 +
        s.timeField 39 28 * 2 ^ 12 + s.timeField 61 54 * 2 ^ 4 + s.timeField 63 62 * 2 ^ 2
      let s := s.setPortTime p.val { x with sent := s.stamp }
      s.send (.control (Fin.ofNat 10 p.val) 3 (BitVec.ofNat 8 (s.linkGen p.val)) (BitVec.ofNat 112 m)))

/-- Ports whose partner was heard within n ticks and is LOCKED. -/
def State.lockedPorts (s : State) (n : Nat) : List Nat :=
  (List.range 8).filter fun p =>
    let x := s.portTime p
    decide (s.linkState p = 4 ∧ x.lock = 2 ∧ x.heard ≠ 0 ∧ s.ftc ≤ x.heard + n)

/-- Whether two LOCKED partners name two roots under one generation within a frame (R383). -/
def State.twoRoots (s : State) : Bool :=
  let ps := s.lockedPorts 65536
  ps.any fun p => ps.any fun q =>
    decide ((s.portTime p).gen = (s.portTime q).gen ∧ (s.portTime p).root ≠ (s.portTime q).root)

/-- Whether a follower accepts a root (R308): its own, or the recorded deputy once the old root has been
silent for 2 frames. -/
def State.rootOk (s : State) (root : Nat) : Bool :=
  decide (root = s.timeField 39 28) ||
  (decide (root = s.timeField 27 16) && decide (s.time.masterAt + 131072 ≤ s.ftc))

/-- The follower's choice of a parent (R304): of the LOCKED partners with an accepted root the one with
the fewest hops, the lowest port on a tie. `none` where there is none. -/
def State.bestParent (s : State) : Option Nat :=
  ((s.lockedPorts 131072).filter fun p => s.rootOk (s.portTime p).root).foldl (fun b p =>
    match b with
    | none => some p
    | some q => if (s.portTime p).hops < (s.portTime q).hops then some p else b) none

/-- A follower without a parent (R307). -/
def State.noParent (s : State) : State :=
  let s := s.setTime 49 46 15
  if s.time.orphan.isSome then s else { s with time := { s.time with orphan := some s.ftc } }

/-- A follower takes a parent; a change of parent is counted. -/
def State.takeParent (s : State) (p : Nat) : State :=
  let x := s.portTime p
  let old := s.timeField 49 46
  let s := if old ≠ 15 ∧ old ≠ p then s.fabBump 0x128 1 else s
  let s := { s with time := { s.time with orphan := none, parentAt := x.heard } }
  let s := ((s.setTime 49 46 p).setTime 45 40 (x.hops + 1)).setTime 39 28 x.root
  (s.setTime 61 54 x.gen).setTime 15 0 ((x.offset / 4) % 2 ^ 16).toNat

/-- The follower relates itself to the tree after an exchange or a timeout (R304, R307, R383). Before
its first lock it takes its parent's time when that is later (R301); each exchange with a LOCKED
parent locks it. -/
def State.followTree (s : State) : State :=
  if s.twoRoots then ((s.noParent).setTime 53 52 0).timeEvent
  else
    match s.bestParent with
    | none => s.noParent
    | some p =>
      let s := s.takeParent p
      let x := s.portTime p
      let f := if !s.time.locked ∧ 0 < x.offset then s.ftc + (x.offset / 256).toNat else s.ftc
      if s.timeField 50 50 = 0 ∨ x.echo = 0 then s
      else { s.setTime 53 52 2 with ftc := f, time := { s.time with locked := true } }

/-- TIME (R353, R304, R383): the exchange measured and recorded; a follower relates itself to the
tree. -/
def execTime (p : PortId) (lgen : BitVec 8) (m : BitVec 112) (s : State) :
    Host.Outcome State Fault Refusal :=
  .next (
    if !s.on || decide (s.linkState p.val ≠ 4) then s
    else if lgen.toNat ≠ s.linkGen p.val then s.bump (linkReg p.val 0x150) 1
    else
      let x := s.portTime p.val
      let t4 := s.stamp
      let t3 := wbits m 111 72
      let t2 := wbits m 71 32
      let y : PortTime :=
        { sent := x.sent, echo := t4, heard := s.ftc,
          delay := (d40 t4 x.sent - d40 t3 t2) / 2, offset := (d40 t2 x.sent + d40 t3 t4) / 2,
          hops := wbits m 31 26, lock := wbits m 25 24, root := wbits m 23 12, gen := wbits m 11 4,
          role := wbits m 3 2 }
      let s := s.setPortTime p.val y
      let s := if y.root = s.timeField 39 28 ∧ y.lock = 2 then
          { s with time := { s.time with masterAt := s.ftc } } else s
      if s.timeField 63 62 = 1 then s else s.followTree)

/-- PARENT_TIMEOUT (R307): no exchange from the parent for 2 frames. -/
def execParentTimeout (s : State) : Host.Outcome State Fault Refusal :=
  .next (
    if s.on && decide (s.timeField 63 62 ≠ 1) && decide (s.timeField 49 46 ≠ 15) &&
        decide (s.time.parentAt + 131072 ≤ s.ftc) then s.followTree
    else s)

/-- Time lock is lost (R307, R616): record 0x3005 and open-ended holds. -/
def State.loseTime (s : State) (lock : Nat) : State := ((s.setTime 53 52 lock).timeEvent).holdAll .timeLoss

/-- HOLDOVER_TIMEOUT (R307): no parent for 16 frames. -/
def execHoldoverTimeout (s : State) : Host.Outcome State Fault Refusal :=
  .next (
    if s.on && decide (s.timeField 63 62 ≠ 1) && s.time.locked && decide (s.timeField 53 52 ≠ 3) &&
        (s.time.orphan.any fun t => decide (t + 16 * 65536 ≤ s.ftc)) then s.loseTime 3
    else s)

/-- DEPUTY_MASTER_TAKEOVER (R308): no exchange stamped by the master for 4 frames. The new master keeps
its FTC, which is its reference value, and holds the domains whose roots the lost master held. -/
def execDeputyMasterTakeover (s : State) : Host.Outcome State Fault Refusal :=
  .next (
    if s.on && decide (s.timeField 63 62 = 2) && decide (s.time.masterAt + 4 * 65536 ≤ s.ftc) then
      let s := ((s.setTime 63 62 1).setTime 61 54 (nextGen (s.timeField 61 54))).setTime 39 28
        s.selfIndex.toNat
      let s := (s.setTime 49 46 15).setTime 45 40 0
      { s with time := { s.time with reference := s.ftc, orphan := none } }.holdAll .timeLoss
    else s)

/-! ### REFCLK -/

/-- REFCLK_LOSS (R616). -/
def execRefclkLoss (s : State) : Host.Outcome State Fault Refusal :=
  .next (
    if !s.on || decide (s.timeField 50 50 = 0) then s
    else
      let s := s.setTime 50 50 0
      if s.timeField 53 52 = 2 then { s with time := { s.time with refLost := some s.ftc } }.timeEvent
      else s)

/-- REFCLK_HOLD_TIMEOUT (R616): REFCLK has not returned within 100 ms. -/
def execRefclkHoldTimeout (s : State) : Host.Outcome State Fault Refusal :=
  .next (
    if s.on && decide (s.timeField 50 50 = 0) &&
        (s.time.refLost.any fun t => decide (t + 45000000 ≤ s.ftc)) then
      { s with time := { s.time with refLost := none } }.loseTime 0
    else s)

/-- REFCLK_RETURN (R616): a clock that had lost time lock acquires again, without a step of the FTC. -/
def execRefclkReturn (s : State) : Host.Outcome State Fault Refusal :=
  .next (
    if !s.on || decide (s.timeField 50 50 = 1) then s
    else
      let s := s.setTime 50 50 1
      let s := { s with time := { s.time with refLost := none, refBoot := true } }
      if s.timeField 53 52 ≠ 2 ∧ s.time.locked then s.setTime 53 52 1 else s)

end Sys2Proof.Machine
end

