-- ==== Sys2Proof/Machine/Boot.lean ====
section
/-!
DEFINITION. Flash, manifests and the boot (R452 to R473), and the supply and reset that lead to it (R528, R529,
R605, R615, R626 to R628).
-/

namespace Sys2Proof.Machine

/-! ### Flash -/

/-- Bytes of a bank (R454). -/
def bankSize : Nat := 120 * 2 ^ 20

/-- What a byte of a bank reads as when nothing has been written to it: erased, or as shipped. -/
def FlashDev.blank (x : FlashDev) (dev bank off : Nat) : Byte :=
  if setHas x.erased bank then 0xFF else Config.shippedFlash (dev * 2 ^ 28 + bank * bankSize + off)

/-- A byte of a bank. -/
def State.bankByte (s : State) (dev bank off : Nat) : Byte :=
  let x := s.flashDev dev
  mapGet (x.blank dev bank off) x.banks (bank * bankSize + off)

/-- n bytes of a bank from an offset. -/
def State.bankBytes (s : State) (dev bank off n : Nat) : List Byte :=
  (List.range n).map fun i => s.bankByte dev bank (off + i)

/-- A bank erased on a device. -/
def State.bankErase (s : State) (dev bank : Nat) : State :=
  let x := s.flashDev dev
  s.setFlash dev { x with banks := x.banks.filter fun e => decide (e.1 / bankSize ≠ bank),
                          erased := setPut x.erased bank true }

/-- Bytes written into a bank of a device. -/
def State.bankWrite (s : State) (dev bank off : Nat) (bs : List Byte) : State :=
  let x := s.flashDev dev
  s.setFlash dev { x with banks := ((List.range bs.length).zip bs).foldl (fun m e =>
    mapSet (x.blank dev bank (off + e.1)) m (bank * bankSize + off + e.1) e.2) x.banks }

/-- The selector in force (R456): the valid copy with the higher SEQ; without one, bank A and no trial. -/
def FlashDev.selector (x : FlashDev) : Selector :=
  match x.sel.getD 0 none, x.sel.getD 1 none with
  | some a, some b => if a.seq < b.seq then b else a
  | some a, none => a
  | none, some b => b
  | none, none => ⟨0, 0, false, 0⟩

/-- The selector written on a device: the copy that is not in force, with the next SEQ. -/
def State.putSelector (s : State) (dev : Nat) (v : Selector) : State :=
  let x := s.flashDev dev
  let k := if x.sel.getD 0 none = some x.selector then 1 else 0
  s.setFlash dev { x with sel := x.sel.set k (some { v with seq := x.selector.seq + 1 }) }

/-- The minimum version of a device (R460): the highest of its valid copies. -/
def FlashDev.minVersion (x : FlashDev) : Option Nat :=
  let l := x.minver.filterMap id
  if l = [] then none else some (l.foldl max 0)

/-! ### Manifests -/

/-- ASCII "FGMANIF1". -/
def manMagic : List Byte := [0x46, 0x47, 0x4D, 0x41, 0x4E, 0x49, 0x46, 0x31]

/-- Whether bytes of a range are all zero. -/
def zeros (l : List Byte) (o n : Nat) : Bool := (slice l o n).all (· = 0)

/-- Bytes of a SHA-512 value. -/
def shaBytes (bs : List Byte) : List Byte := leBytes 64 (Config.sha512 bs).toNat

/-- Maximum length of an image (Table 13.5). -/
def imageMax (type : Nat) : Nat :=
  match type with
  | 1 => 12 * 2 ^ 20
  | 2 => 4 * 2 ^ 20
  | 3 => 2 * 2 ^ 20
  | 4 => 6 * 2 ^ 20
  | 5 => 64 * 2 ^ 10
  | 6 => 2 * 2 ^ 20
  | _ => 320

/-- NENT of a manifest, its entries, and the bytes that MANIFEST_SIG signs. -/
def manCount (rd : Nat → Nat → List Byte) : Nat := field (rd 0 448) 20 2
def manEntries (rd : Nat → Nat → List Byte) : List (List Byte) :=
  (List.range (manCount rd)).map fun i => rd (448 + 128 * i) 128
def manBytes (rd : Nat → Nat → List Byte) : List Byte := rd 0 (448 + 128 * manCount rd)

/-- An entry of Table 13.4 in order, in a source of some size. -/
def entryOk (size : Nat) (e : List Byte) : Bool :=
  let t := field e 0 2
  decide (1 ≤ t ∧ t ≤ 7 ∧ field e 8 4 % 4096 = 0 ∧ field e 12 4 ≤ imageMax t ∧ field e 8 4 + field e 12 4 ≤ size ∧
    (if t = 7 then field e 16 8 ≤ 3 else field e 16 8 = 0)) && zeros e 2 2 && zeros e 24 8 && zeros e 96 32

/-- Check 1 of Table 13.6; a recovery image holds one entry, of TYPE 0x0001 (R474). -/
def manForm (rd : Nat → Nat → List Byte) (size : Nat) (one : Bool) : Bool :=
  let h := rd 0 448
  let n := manCount rd
  let es := manEntries rd
  let count (t : Nat) : Nat := (es.filter fun e => decide (field e 0 2 = t)).length
  decide (h.take 8 = manMagic ∧ field h 8 4 = 1 ∧ 1 ≤ field h 12 4 ∧ field h 12 4 ≤ 0xFFFFFFFE ∧ 1 ≤ n ∧ n ≤ 32 ∧
    field h 22 1 < 2) && zeros h 23 1 && zeros h 165 3 && zeros h 301 3 && zeros h 308 4 && zeros h 444 4 &&
  (if one then decide (n = 1 ∧ count 1 = 1)
   else ([1, 2, 3, 4, 5, 6] : List Nat).all (fun t => decide (count t = 1)) && decide (count 7 ≤ 4)) &&
  es.all (entryOk size)

/-- Checks 1 to 7 of Table 13.6 in their order: the code of the first that fails. -/
def manCode (rd : Nat → Nat → List Byte) (size : Nat) (one : Bool) (least : Nat) : Option Nat :=
  let h := rd 0 448
  let root := slice h 32 133
  let sign := slice h 168 133
  if !(manForm rd size one) then some 4
  else if Config.sha512 root ≠ Config.rootHash then some 1
  else if !(Config.verifies root (slice h 168 144) (slice h 312 132)) then some 2
  else if !(Config.verifies sign (manBytes rd) (rd (448 + 128 * manCount rd) 132)) then some 3
  else if field h 24 8 ≠ 0 ∧ field h 24 8 ≠ Config.serial.toNat then some 7
  else if field h 12 4 < least then some 5
  else if (manEntries rd).any fun e => decide (shaBytes (rd (field e 8 4) (field e 12 4)) ≠ slice e 32 64) then some 6
  else none

/-- The bytes of the entries of a type. -/
def manImages (rd : Nat → Nat → List Byte) (type : Nat) : List (List Byte) :=
  ((manEntries rd).filter fun e => decide (field e 0 2 = type)).map fun e => rd (field e 8 4) (field e 12 4)

/-- The capability certificate in order (R465). -/
def certOk (sign c : List Byte) : Bool :=
  Config.verifies sign (slice c 0 1024) (slice c 1024 132) &&
  decide (1156 ≤ c.length ∧ field c 0 8 = Config.serial.toNat ∧ field c 8 4 ≤ 14000 ∧ 1 ≤ field c 12 1 ∧ field c 12 1 ≤ 63 ∧
    field c 14 1 < 4 ∧ 1 ≤ field c 16 2 ∧ field c 16 2 ≤ 1024) && zeros c 15 1 && zeros c 18 46 && zeros c 640 384 &&
  (List.range 576).all fun t => decide (180 ≤ field c (64 + t) 1 ∧ field c (64 + t) 1 ≤ 205)

/-- The repair map in order (R466): SERIAL, the entry count, the entries, the signature (DEDUCED, log entry 22). -/
def repairOk (sign c : List Byte) : Bool :=
  let n := 16 + 8 * field c 8 8
  decide (n + 132 ≤ c.length) && Config.verifies sign (slice c 0 n) (slice c n 132)

/-- An owner key record in order (R468). -/
def ownerOk (sign e c : List Byte) : Bool :=
  Config.verifies sign (slice c 0 160) (slice c 160 132) &&
  decide (field c 0 2 = 1 ∧ field c 2 1 = field e 16 8 ∧ field c 3 1 < 4 ∧
    (field c 8 8 = 0 ∨ field c 8 8 = Config.serial.toNat)) && zeros c 149 11 && zeros c 292 28

/-- A manifest accepted, with what its signed records say. -/
def imagesOf (rd : Nat → Nat → List Byte) (dev bank : Nat) : Images :=
  let h := rd 0 448
  let cert := (manImages rd 5).headD []
  let map := (manImages rd 6).headD []
  { dev := dev, bank := bank, secVer := field h 12 4, raiseMin := decide (field h 22 1 % 2 = 1),
    digest := Config.sha512 (manBytes rd), pcapMax := field cert 8 4, contexts := field cert 12 1,
    ports := field cert 13 1, ccl := field cert 14 1, domainMax := field cert 16 2,
    fmax := (List.range 576).map fun t => field cert (64 + t) 1,
    owners := (manImages rd 7).map fun c => ⟨field c 2 1, field c 3 1, slice c 16 133⟩,
    repairs := (List.range (field map 8 8)).map fun i => BitVec.ofNat 64 (field map (16 + 8 * i) 8),
    library := Config.sha512 ((manImages rd 4).headD []) }

/-- Checks 1 to 8 of a bank (R458): the code of the first that fails, or what it holds. -/
def State.checkBank (s : State) (dev bank least : Nat) : Except Nat Images :=
  let rd := s.bankBytes dev bank
  match manCode rd bankSize false least with
  | some c => .error c
  | none =>
    let sign := slice (rd 0 448) 168 133
    let owners := (manEntries rd).filter fun e => decide (field e 0 2 = 7)
    if certOk sign ((manImages rd 5).headD []) && repairOk sign ((manImages rd 6).headD []) &&
        owners.all fun e => ownerOk sign e (rd (field e 8 4) (field e 12 4)) then
      .ok (imagesOf rd dev bank)
    else .error 8

/-! ### The boot -/

/-- The selector's part of trying a device (R462): a trial bank is counted, or after three trials skipped for
the other one. Answers the banks in the order tried. -/
def State.trialStep (s : State) (dev : Nat) : List Nat × State :=
  let v := (s.flashDev dev).selector
  if v.trial ∧ 3 ≤ v.tries then ([1 - v.active], s.putSelector dev { v with active := 1 - v.active, trial := false })
  else if v.trial then ([v.active, 1 - v.active], s.putSelector dev { v with tries := v.tries + 1 })
  else ([v.active, 1 - v.active], s)

/-- Sources tried one after another (R462, R463): how many failed, the code of the last one that did, and what
was accepted. -/
def State.trySources (s : State) (least : Option Nat) : List (Nat × Nat) → Nat × Nat × Option Images
  | [] => (0, 0, none)
  | (dev, bank) :: rest =>
    let a := match least with
      | none => Except.error 10
      | some m => s.checkBank dev bank m
    match a with
    | .ok im => (0, 0, some im)
    | .error c =>
      let z := s.trySources least rest
      (z.1 + 1, if z.1 = 0 then c else z.2.1, z.2.2)

/-- The three copies of the minimum version written on a device. -/
def State.putMinVersion (s : State) (dev v : Nat) : State :=
  let x := s.flashDev dev
  s.setFlash dev { x with minver := [some v, some v, some v] }

/-- The minimum version of a device completed (R460) and, when the manifest in force is due to raise it, raised
(R461). -/
def State.settleMin (s : State) (dev : Nat) (im : Images) : State :=
  match (s.flashDev dev).minVersion with
  | none => s
  | some m =>
    let v := (s.flashDev dev).selector
    let mine := match s.checkBank dev v.active m with
      | .ok i => decide (i.digest = im.digest)
      | .error _ => false
    if mine && !v.trial && im.raiseMin && decide (m < im.secVer) then s.putMinVersion dev im.secVer
    else s.putMinVersion dev m

/-- Record 0x7004 (R464, R467, R471). -/
def State.raiseSc (s : State) (cls : EvClass) (code : Nat) (detail : Nat) : State :=
  s.raise { cls := cls, code := code, die := 48 + s.regField (regGa 48 0x50000) 59 59, kind := 8, inst := 0, ctx := 0,
            tile := none, location := 0, step := 0, layer := 0, detail := detail }

/-- A finding of built-in self-test (R473): a free spare takes its place and is recorded, or the smallest grain
that holds it is fenced. The entry's row and spare are open. -/
def State.bistFound (s : State) (b : BistFault) : State :=
  if b.spare then
    let z := s.free
    let e : BitVec 64 := BitVec.ofNat 64 (b.die.val * 2 ^ 58 + z.1.toNat % 2 ^ 50 * 2 ^ 8)
    let s := z.2.calWrite fun r => { r with repairs := (r.repairs ++ [e]).take 1024 }
    s.raise { cls := .corrected, code := 0x2001, die := b.die.val, kind := 10, inst := 0, ctx := 0, tile := none,
              location := 0, step := 0, layer := 0, detail := 0 }
  else
    match b.tile with
    | some i => s.enterFence ⟨2, b.die.val * 12 + i.val, 0, 0, 0, false⟩
    | none => s.enterFence ⟨3, b.die.val, 0, 0, 0, false⟩

/-- The rail of a tile set (R530): at least V_need + 45 mV, where the spec states no V_need; the value is free
within the rail's range. -/
def State.setRail (s : State) (t : TileId) : State :=
  let z := s.free
  z.2.setField (regGa (tileDie t) (0x130200 + 0x10 * tileIdx t)) 24 16 (260 + z.1.toNat % 101)

/-- Ports enabled by the certificate look for partners (R357, R427, R465); without REFCLK they stay there (R616). -/
def State.startPorts (s : State) (im : Images) : State :=
  (List.range 10).foldl (fun s l =>
    let on := if l < 8 then decide (im.ports / 2 ^ l % 2 = 1) else decide (l = 8 ∨ im.ccl / 2 % 2 = 1)
    let s := if on then s.setField (linkReg l 8) 63 60 1 else s.setField (linkReg l 0) 0 0 0
    if 8 ≤ l ∧ im.ccl % 2 = 0 then s.setField (linkReg l 0) 7 6 2 else s) s

/-- Registers of identity and boot on FD0 and FD1 (Tables 13.13 to 13.16). -/
def State.bootRegs (s : State) (im : Images) (failed code : Nat) (raised trial : Bool) (b : BootWorld) : State :=
  let d := s.flashDev 0
  let idOk := decide (b.pufFails < 5)
  let calOk := idOk && s.flashCal.isSome
  let boot := code * 2 ^ 56 + min failed 15 * 2 ^ 52 + im.dev * 2 ^ 51 + im.bank * 2 ^ 50 +
    (if trial then 2 ^ 49 else 0) + 2 ^ 48 + (if raised then 2 ^ 47 else 0) + b.bootMs.toNat
  let sec := (if idOk then 2 ^ 63 else 0) + (if b.deputyOk then 2 ^ 62 else 0) + (if calOk then 2 ^ 61 else 0) +
    im.owners.foldl (fun n o => n ||| 2 ^ (56 + o.slot)) 0 + min 5 (b.pufFails + 1) * 2 ^ 52 +
    (if calOk then (s.flashCal.map (·.repairs.length)).getD 0 else 0)
  ([48, 49] : List Nat).foldl (fun s f =>
    let s := (s.setReg (regGa f 0x70000) (BitVec.ofNat 64 boot)).setReg (regGa f 0x70008)
      (BitVec.ofNat 64 (im.secVer * 2 ^ 32 + d.minVersion.getD 0))
    let s := (List.range 8).foldl (fun s n =>
      s.setReg (regGa f (0x70040 + 8 * n)) (BitVec.ofNat 64 (im.digest.toNat / 2 ^ (64 * n)))) s
    let s := (s.setReg (regGa f 0x60000) (BitVec.ofNat 64 sec)).setReg (regGa f 0x60008) Config.serial
    let s := s.setField (regGa f 0x50000) 58 58 (if b.deputyOk then 1 else 0)
    s.setField (regGa f 0x130008) 15 0 im.pcapMax) s

/-- From the accepted manifest to LOCKED (R472 steps 5 to 9). -/
def State.bootOn (s : State) (im : Images) (failed code : Nat) (b : BootWorld) : State :=
  let s := s.toState 2
  let least := (s.flashDev 0).minVersion
  let s := (s.settleMin 0 im).settleMin 1 im
  let raised := decide ((s.flashDev 0).minVersion ≠ least)
  let v := (s.flashDev im.dev).selector
  let trial := v.trial && decide (v.active = im.bank)
  let s := s.bootRegs im failed code raised trial b
  let z := s.free
  let s : State := { z.2 with
    fw := { z.2.fw with images := some im, mValue := z.1, mCounter := 0, mLast := none }, capVersion := 1,
    xl := { z.2.xl with ctxs := [(0, some ⟨false, 0⟩)] },
    fences := s.calRec.fences.map fun r => ⟨r.grain, r.a, r.b, r.c, r.pkg, false⟩ }
  let s := b.bist.foldl (fun s f => s.bistFound f) s
  let s := (List.range 576).foldl (fun s t => s.setRail (tileOf t)) s
  let s := s.startPorts im
  let s := if b.deputyOk then s else s.raiseSc .contained 0x7004 0
  let s := if b.pufFails < 5 then s else s.raiseSc .contained 0x7004 1
  let s := if s.regField (regGa 48 0x60000) 61 61 = 1 then s else s.raiseSc .contained 0x7004 2
  let s := s.toState 3
  if trial then
    ([0, 1] : List Nat).foldl (fun s d =>
      let v := (s.flashDev d).selector
      if v.trial ∧ v.active = im.bank then s.putSelector d { v with trial := false } else s) s
  else s

/-- The boot (R462, R463, R472): straps and MSTR_SEL latched (R615), the sources tried in order (DEDUCED, log entry 72). -/
def State.boot (s : State) (b : BootWorld) : State :=
  let s : State := { s with running := true, svc := { s.svc with mstrSel := b.mstrSel, tap := 1 } }
  let s := (List.range 4).foldl (fun s f => s.setField (regGa (48 + f) 0x2000) 44 33 b.straps.toNat) s
  let s := s.setTime 50 50 (if b.refclk then 1 else 0)
  let s := ({ s with time := { s.time with refBoot := b.refclk } } : State).toState 1
  let p := s.trialStep 0
  let q := p.2.trialStep 1
  let s := q.2
  let z := s.trySources (s.flashDev 0).minVersion (p.1.map (fun k => (0, k)) ++ q.1.map fun k => (1, k))
  match z.2.2 with
  | some im => s.bootOn im z.1 z.2.1 b
  | none =>
    let code := if (s.flashDev 0).minVersion.isNone then 10 else 255
    let s := ([48, 49] : List Nat).foldl (fun s f => s.setReg (regGa f 0x70000)
      (BitVec.ofNat 64 (code * 2 ^ 56 + z.1 * 2 ^ 52 + 2 ^ 48 + b.bootMs.toNat))) s
    s.toState 9

/-! ### Supply and reset -/

/-- What a reset leaves (R529, R627, R628): flash, the pins and cables outside, messages already sent, the
sender's queue; every SRAM content is lost. The bus address and the enable of in-band interrupts last until power
is lost (DEDUCED, log entry 23). -/
def State.cleared (s : State) : State :=
  { State.reset with
    fab := { FabSt.reset with
      links := s.fab.links.foldl (fun m e =>
        mapSet LinkSt.reset m e.1 { LinkSt.reset with present := e.2.present }) [] },
    fw := { FwSt.reset with flash := s.fw.flash },
    pwr := { PwrSt.reset with stage := s.pwr.stage, clips := s.pwr.clips, rst := s.pwr.rst, world := s.pwr.world },
    svc := { SvcSt.reset with dyn := s.svc.dyn, ibi := s.svc.ibi, links := s.svc.links, cells := s.svc.cells },
    powered := s.powered, out := s.out, freeCount := s.freeCount, pending := s.pending }

/-- Power is up (R528): PWR_OK rises; with MOD_RST_N high already the module leaves OFF (R627). -/
def State.powerUp (s : State) : State :=
  let s := ({ s with powered := true, pwr := { s.pwr with stage := .on } } : State).send (.pwrOk true)
  match s.pwr.rst, s.pwr.world with
  | true, some b => s.boot b
  | _, _ => s

/-- Whether the hot-swap stage may start (R605): the sense contacts of both clips made. -/
def State.clipsMade (s : State) : Bool := s.pwr.clips.1 && s.pwr.clips.2

/-- INPUT_TURN_ON (R528, R605). -/
def execInputTurnOn (s : State) : Host.Outcome State Fault Refusal :=
  .next (if s.pwr.stage = .off ∧ s.clipsMade then s.powerUp else s)

/-- INRUSH_TIMEOUT (R528): the charge of a power-up has failed; PWR_OK stays low. -/
def execInrushTimeout (s : State) : Host.Outcome State Fault Refusal :=
  .next (
    if s.pwr.stage = .off ∧ s.clipsMade then { s with pwr := { s.pwr with stage := .stopped } } else s)

/-- INRUSH_RETRY (R528). -/
def execInrushRetry (s : State) : Host.Outcome State Fault Refusal :=
  .next (if s.pwr.stage = .stopped ∧ s.clipsMade then s.powerUp else s)

/-- A supply shutdown (R529): every die loses power, PWR_OK falls, the module is OFF. -/
def State.shutdown (s : State) : State :=
  let s := s.cleared
  ({ s with powered := false, svc := { s.svc with dyn := none, ibi := false },
            pwr := { s.pwr with stage := .down } } : State).send (.pwrOk false)

/-- SUPPLY_SHUTDOWN (R529). -/
def execSupplyShutdown (_c : ShutdownCause) (s : State) : Host.Outcome State Fault Refusal :=
  .next (if s.powered then s.shutdown else s)

/-- CLIP_SENSE_BREAK (R605). -/
def execClipSenseBreak (clip : Fin 2) (s : State) : Host.Outcome State Fault Refusal :=
  .next (
    let c := s.pwr.clips
    let s : State := { s with pwr := { s.pwr with clips := if clip = 0 then (false, c.2) else (c.1, false) } }
    if s.powered then s.shutdown else s)

/-- POWER_UP_RETRY (R529): the input has returned and 1 s has passed. -/
def execPowerUpRetry (s : State) : Host.Outcome State Fault Refusal :=
  .next (if s.pwr.stage = .down ∧ s.clipsMade then s.powerUp else s)

/-- MOD_RST_N_RISE (R472, R615, R627): with PWR_OK high the boot; otherwise it follows the rise of PWR_OK. -/
def execModRstNRise (b : BootWorld) (s : State) : Host.Outcome State Fault Refusal :=
  .next (
    if s.pwr.rst then s
    else
      let s : State := { s with pwr := { s.pwr with rst := true, world := some b } }
      if s.powered then s.boot b else s)

/-- MOD_RST_N_FALL (R529, R627): a low level of 10 µs or more resets the module. A shorter one is ignored. -/
def execModRstNFall (ns : Nat) (s : State) : Host.Outcome State Fault Refusal :=
  .next (
    if ns < 10000 ∨ !s.pwr.rst then s
    else
      let s := s.cleared
      { s with pwr := { s.pwr with rst := false, world := none } })

end Sys2Proof.Machine
end

