-- ==== Sys2Proof/Machine/JobPlace.lean ====
section
/-!
DEFINITION. A job directory that has been accepted is put in place (R237, R477, R518 to R520, R580, R584, R592),
after its copies (R580, R586).
-/

namespace Sys2Proof.Machine

/-! ### Windows and clearing -/

/-- A near-cache line of a window. -/
def NcKey.ofWindow (k : NcKey) (w : Nat) : Bool :=
  match k with
  | .window v _ => decide (v = w)
  | .ga _ => false

/-- An import window's registers written by firmware (R441, R442): near-cache lines of the window are
discarded. -/
def State.setImport (s : State) (w : Nat) (a b : Word) : State :=
  let off := 0x30100 + 16 * w
  let s := ((s.regStore none (regGa 48 off) a).regStore none (regGa 49 off) a).regStore none (regGa 48 (off + 8)) b
  let s := s.regStore none (regGa 49 (off + 8)) b
  (List.range 576).foldl (fun s t =>
    let x := s.tile (tileOf t)
    if x.nc.any fun e => e.2.any fun l => l.key.ofWindow w then
      let kept := x.nc.map fun e => (e.1, e.2.filter fun l => !(l.key.ofWindow w))
      s.setTile (tileOf t) { x with nc := kept.filter fun e => decide (e.2 ≠ []) }
    else s) s

/-- A unit written with zeros; its poison is cleared, and its sync words. -/
def State.zeroUnit (s : State) (u : Nat) : State :=
  let ga := u * 65536
  match gaRegion ga with
  | 3 => ((s.sync.map (·.1)).filter fun a => decide (a / 65536 = u)).foldl (fun s a => s.syncZero a) s
  | 4 => s
  | _ => (s.foreignWrite 0 ga (List.replicate 65536 0) 0 false).clearCovered [(ga, 65536)]

/-- A tile that passes to another context (R477): its memory and its registers are written with zeros (DEDUCED, log entry 49). -/
def State.zeroTile (s : State) (t : TileId) : State :=
  let s := s.setTile t TileSt.reset
  let s := regsTile.foldl (fun s r =>
    (List.range r.count).foldl (fun s k => s.regStore none (tileReg t (r.off + r.stride * k)) 0) s) s
  (List.range 64).foldl (fun s k => s.zeroUnit (tmGa t 0 / 65536 + k)) s

/-- A tile that a job works on belongs to the job's context; it is cleared when another one held it. -/
def State.giveTile (s : State) (ctx : CtxId) (t : Nat) : State :=
  let o := mapGet 0 s.fw.tileOf t
  let s := if o ≠ 0 ∧ o ≠ ctx.val + 1 then s.zeroTile (tileOf t) else s
  { s with fw := { s.fw with tileOf := mapSet 0 s.fw.tileOf t (ctx.val + 1) } }

/-! ### Reading a directory's parts -/

/-- Records of n bytes. -/
def recsOf (n : Nat) (bs : List Byte) : List (List Byte) := (List.range (bs.length / n)).map fun i => slice bs (n * i) n

/-- The k-th register image of a record. -/
def imgOf (r : List Byte) (k : Nat) : Word := BitVec.ofNat 64 (field r (8 * k) 8)

/-- Records of the parts of a kind (Table 14.30), each with its part's TARGET. -/
def JobPlan.recs (x : JobPlan) (kind n : Nat) : List (Nat × List Byte) :=
  (x.parts.filter fun p => decide (p.kind = kind)).flatMap fun p => (recsOf n p.bytes).map fun r => (p.target, r)

/-- The capability basis: tiles given work (KIND 0x0002). -/
def JobPlan.basis (x : JobPlan) : SMap PlanEnt :=
  let rs := (x.recs 2 4).map (·.2)
  ((List.range rs.length).zip rs).foldl (fun m e =>
    mapSet ⟨0, 0, 0⟩ m e.1 (if field e.2 0 1 = 0 then ⟨0, 0, 0⟩ else ⟨field e.2 0 1, field e.2 1 1, field e.2 2 1⟩)) []

/-- The repeat-unit table (KIND 0x0009). -/
def JobPlan.units (x : JobPlan) : List RepUnit :=
  (x.recs 9 96).map fun e =>
    ⟨field e.2 0 2, Fin.ofNat 64 (field e.2 2 1), field e.2 3 1, field e.2 8 8, BitVec.ofNat 576 (field e.2 24 72)⟩

/-- First words of the tile streams (KIND 0x0001): AUX, of a part that has one. -/
def JobPlan.firsts (x : JobPlan) : SMap (Option Word) :=
  (x.parts.filter fun p => decide (p.kind = 1 ∧ p.aux ≠ 0)).foldl (fun m p =>
    mapSet none m p.target (some (BitVec.ofNat 64 p.aux))) []

/-- The domain parameters (KIND 0x000A). -/
def JobPlan.params (x : JobPlan) : List Byte :=
  ((x.parts.find? fun p => decide (p.kind = 0xA)).map (·.bytes)).getD []

/-- Tiles that a directory names: with planned work or a stream. -/
def JobPlan.tiles (x : JobPlan) : List Nat := (x.basis.map (·.1) ++ x.firsts.map (·.1)).dedup

/-! ### Placing parts -/

/-- A slot table (R316, R343): 1,024 entries, four to a register. -/
def State.placeSlots (s : State) (target : Nat) (bs : List Byte) : State :=
  let p := target % 8
  let base := regGa (48 + p / 2) (0xC000 + 0x1000 * (p % 2) + 0x800 * (target / 256))
  (List.range 256).foldl (fun s i => s.setReg (base + 8 * i) (imgOf bs i)) s

/-- A stream table (R367). -/
def State.placeStreams (s : State) (fd : Nat) (bs : List Byte) : State :=
  { s with fab := { s.fab with
    streams := (List.range 16384).foldl (fun m i => mapSet 0 m (fd * 16384 + i) (field bs (2 * i) 2)) s.fab.streams } }

/-- A barrier descriptor (R280, R290). -/
def State.placeBar (s : State) (r : List Byte) : State :=
  let n := field r 2 1
  match field r 0 1 with
  | 0 => s.writeBarCfg (field r 1 1) n (imgOf r 1)
  | 1 => s.writeMbcCfg n (imgOf r 1)
  | _ => s.regStore none (mbcReg n 8) (imgOf r 1)

/-- Register images of a record, from its second doubleword on. -/
def State.placeImages (s : State) (n : Nat) (reg : Nat → Nat) (r : List Byte) : State :=
  (List.range n).foldl (fun s k => s.regStore none (reg k) (imgOf r (k + 1))) s

/-- A bucket descriptor (R379): what the one before it had gathered is discarded. -/
def State.placeBkt (s : State) (d : Fin 2) (fd : Nat) (r : List Byte) : State :=
  let b := field r 0 2
  let s := (s.bktDrop fd b).placeImages 7 (bktReg fd b) r
  { s with fab := { s.fab with bktDom := mapSet 0 s.fab.bktDom (fd * 256 + b) d.val } }

/-- A multicast descriptor. -/
def State.placeMc (s : State) (fd : Nat) (r : List Byte) : State :=
  let m := field r 0 2
  let s := s.placeImages 4 (mcReg fd m) r
  { s with fab := { s.fab with mcDone := mapSet 0 s.fab.mcDone (fd * 64 + m) 0 } }

/-- A layer descriptor, with BANK 0 (R415). -/
def State.placeLayer (s : State) (fd : Nat) (r : List Byte) : State :=
  let l := field r 0 2
  ((s.layerRest fd l).placeImages 16 (ldReg fd l) r).setField (ldReg fd l 0) 60 60 0

/-- Pin registers of a die that hold no range (DEDUCED, log entry 75). -/
def State.freePins (s : State) (die : Nat) : List Nat :=
  (List.range 8).filter fun n => decide (s.regField (hcReg die (0x40 + 8 * n)) 63 63 = 0)

/-- Valid ranges of a pin list. -/
def pinImages (bs : List Byte) : List Word := ((recsOf 8 bs).map fun r => imgOf r 0).filter fun w => decide (bits w 63 63 = 1)

/-- A pin list (R237): the job's ranges take free registers; PIN_WAYS is the largest that a loaded job sets. -/
def State.placePins (s : State) (d : Fin 2) (target : Nat) (bs : List Byte) : State :=
  let die := target % 64
  let o : Fin 2 := if d = 0 then 1 else 0
  let l := (s.freePins die).zip (pinImages bs)
  let s := l.foldl (fun s e => s.regStore none (hcReg die (0x40 + 8 * e.1)) e.2) s
  let x := s.dom d
  let w := max (mapGet 0 x.pinWays die) (target / 256 % 16)
  let s := s.setDom d { x with pins := x.pins ++ l.map fun e => (die, e.1), pinWays := mapSet 0 x.pinWays die w }
  (s.setField (hcReg die 8) 3 0 (max w (mapGet 0 (s.dom o).pinWays die))).pinTidy die

/-- An export window (R369), alike on the four fabric dies. -/
def State.placeExport (s : State) (r : List Byte) : State :=
  (List.range 4).foldl (fun s f => s.placeImages 2 (fun k => regGa (48 + f) (0x3000 + 0x10 * field r 0 1 + 8 * k)) r) s

/-- A capture armed (R595). -/
def State.placeCapture (s : State) (r : List Byte) : State :=
  let t := tileOf (field r 0 2)
  let s := s.setReg (tileReg t 0x620) (BitVec.ofNat 64 (field r 4 4 * 2 ^ 32 + field r 8 4))
  let s := s.setReg (tileReg t 0x628) (BitVec.ofNat 64 (field r 12 1 * 2 ^ 56 + field r 16 8))
  (s.setField (tileReg t 0x618) 15 0 (field r 2 2)).setField (tileReg t 0x618) 63 63 1

/-- A part put in place (Table 14.30); the basis, the unit table and the parameters are the domain's. -/
def State.placePart (s : State) (d : Fin 2) (p : JobPart) : State :=
  match p.kind with
  | 0x1 => s.foreignWrite 0 p.dest p.bytes 0 false
  | 0x3 => s.placeSlots p.target p.bytes
  | 0x4 => s.placeStreams p.target p.bytes
  | 0x5 => (recsOf 16 p.bytes).foldl (fun s r => s.placeBar r) s
  | 0x6 => (recsOf 64 p.bytes).foldl (fun s r => s.placeBkt d p.target r) s
  | 0x7 => (recsOf 40 p.bytes).foldl (fun s r => s.placeMc p.target r) s
  | 0x8 => (recsOf 136 p.bytes).foldl (fun s r => s.placeLayer p.target r) s
  | 0xB => s.placePins d p.target p.bytes
  | 0xC => (recsOf 24 p.bytes).foldl (fun s r => s.placeExport r) s
  | 0xD => (recsOf 24 p.bytes).foldl (fun s r => s.setImport (field r 0 1) (imgOf r 1) (imgOf r 2)) s
  | 0x11 => (recsOf 32 p.bytes).foldl (fun s r => s.placeCapture r) s
  | _ => s

/-! ### The slot -/

/-- Layers that a directory gives (KIND 0x0008), as fabric die and index. -/
def JobPlan.layers (x : JobPlan) : List (Nat × Nat) :=
  ((x.recs 8 136).filter fun e => decide (bits (imgOf e.2 1) 63 63 = 1)).map fun e => (e.1, field e.2 0 2)

/-- The domain slot's own part: the job, its units, its basis and first words; a re-load keeps what it does not
name. -/
def JobPlan.slot (x : JobPlan) (old : DomSt) : DomSt :=
  let b := x.basis
  let new := x.firsts
  if x.reload then
    let kept := old.firsts.filter fun e => decide (mapGet (⟨0, 0, 0⟩ : PlanEnt) b e.1 ≠ ⟨0, 0, 0⟩)
    { old with seed := x.seed, plan := b, units := x.units, firsts := new.foldl (fun m e => mapSet none m e.1 e.2) kept }
  else
    { DomSt.reset with loaded := true, key := x.key, seed := x.seed, ctx := x.ctx, firsts := new, plan := b, units := x.units }

/-- FAB_DOM_CFG of the slot (Table 9.12), from the domain parameters. -/
def State.placeParams (s : State) (d : Fin 2) (x : JobPlan) : State :=
  let p := x.params
  let s := s.setDomField d.val 0 63 56 x.domId
  let s := s.setDomField d.val 0 53 53 (field p 7 1)
  let s := s.setDomField d.val 0 47 32 (field p 4 2)
  (s.setDomField d.val 0 31 24 (field p 6 1)).setDomField d.val 0 23 0 (field p 0 4)

/-- What firmware keeps of the job. -/
def State.placeInfo (s : State) (d : Fin 2) (x : JobPlan) : State :=
  let old := (mapGet JobInfo.reset s.fw.jobs d.val).layers
  let named := (x.parts.filter fun p => decide (p.kind = 8)).map (·.target)
  let kept := if x.reload then old.filter fun e => !(named.contains e.1) else []
  let i : JobInfo := { digest := x.digest, library := (s.fw.images.map (·.library)).getD 0, layers := kept ++ x.layers,
                       params := (field x.params 8 4, field x.params 12 4) }
  let s : State := { s with fw := { s.fw with jobs := mapSet JobInfo.reset s.fw.jobs d.val i } }
  if x.reload then
    (old.filter fun e => named.contains e.1 && !(x.layers.contains e)).foldl (fun s e => s.setField (ldReg e.1 e.2 0) 63 63 0) s
  else s

/-- Whether copies reach bank k of a layer (DEDUCED, log entry 45). -/
def State.bankHit (s : State) (fd l k : Nat) (dests : List (Nat × Nat)) : Bool :=
  (List.range (s.ld fd l 12 47 42)).any fun j =>
    let a := s.bankGa fd l k j
    dests.any fun e => decide (e.1 < a + s.secOff fd l j .done ∧ a < e.1 + e.2)

/-- BANK reads as the bank that the copies restored (R592). -/
def State.restoreBanks (s : State) (d : Fin 2) (dests : List (Nat × Nat)) : State :=
  ((mapGet JobInfo.reset s.fw.jobs d.val).layers).foldl (fun s e =>
    if s.bankHit e.1 e.2 0 dests then s.setField (ldReg e.1 e.2 0) 60 60 0
    else if s.bankHit e.1 e.2 1 dests then s.setField (ldReg e.1 e.2 0) 60 60 1
    else s) s

/-- The job seed stays in the slot; the digest key goes to every cluster (R423, R518). -/
def State.placeKey (s : State) (k : BitVec 128) : State :=
  (List.range 4).foldl (fun s f =>
    (s.setReg (ueReg f 0x20) (k.setWidth 64)).setReg (ueReg f 0x28) ((k >>> 64).setWidth 64)) s

/-- Widths that the plan counts on: those of the torus ports now (R360) (DEDUCED, log entry 66). -/
def State.placeWidths (s : State) : State :=
  (List.range 8).foldl (fun s l =>
    s.setLink l { s.link l with planned := min (s.regField (linkReg l 8) 58 52) (s.regField (linkReg l 8) 51 45) }) s

/-! ### Sequencers of a re-load -/

/-- A tile's stream begins at a word, with nothing of what it did before. -/
def State.seqBegin (s : State) (d : Fin 2) (t : TileId) (e : StepAt) : State :=
  let q := (s.tile t).seq
  let x := (s.tile t).mxa
  let s := (s.setMxa t { x with att := none }).setField (tsqStatus t) 8 0 0
  let s := s.setSeq t { SeqSt.reset with running := true, ctx := (s.dom d).ctx, dom := d, pc := e.pc, step := e.step,
                                         stepBase := e.base, odigPos := q.odigPos }
  let y := s.dom d
  let l := (mapGet [] y.stepWord t.val).filter fun k => decide (k.step ≠ e.step)
  s.setDom d { y with stepWord := mapSet [] y.stepWord t.val ((e :: l).take 3) }

/-- How the present step of a tile's stream began. -/
def State.stepEntry (s : State) (d : Fin 2) (t : Nat) : StepAt :=
  let l := mapGet [] (s.dom d).stepWord t
  let first : StepAt := ⟨BitVec.ofNat 32 (s.jobStep d), ((mapGet none (s.dom d).firsts t).getD 0).setWidth 48,
    (s.dom d).start / 65536⟩
  ((l.find? fun e => decide (e.step.toNat = s.jobStep d)).orElse fun _ => l.head?).getD first

/-- The step that a rollback restores (R592): STEP of the layer descriptors that come with copies of a
checkpoint. -/
def State.rolledTo (s : State) (x : JobPlan) : Option Nat :=
  if x.dests = [] then none else (x.layers.head?).map fun e => s.ld e.1 e.2 2 63 32

/-- Step re-entry, or a rollback's (R584, R592): what the step has done is discarded, and every stream begins the
step again. -/
def State.stepAgain (s : State) (d : Fin 2) (rolled : Option Nat) : State :=
  let tiles := s.jobTiles d
  let es := tiles.map fun t => (t, s.stepEntry d t.val)
  let y := s.dom d
  let n := rolled.elim y.stepNo fun r => (r + 2 ^ 32 - y.step0.toNat) % 2 ^ 32
  let s := s.setDom d { y with decided := none, done := [], repeats := 0, widens := [], specials := [], dyn := .none,
                               static := none, stepNo := n }
  let s := ((mapGet JobInfo.reset s.fw.jobs d.val).layers).foldl (fun s e => (s.coresStop e.1 e.2).layerRest e.1 e.2) s
  let s := es.foldl (fun s e => s.seqBegin d e.1 { e.2 with step := (rolled.map (BitVec.ofNat 32)).getD e.2.step }) s
  s.letEnd d 2 (frameUp (s.ftc + s.holdLead d.val))

/-- Streams that a re-load brings begin at their first words, in the step where the job stands. -/
def State.streamsAnew (s : State) (d : Fin 2) (x : JobPlan) : State :=
  let at_ := ((s.jobTiles d).find? fun t => (s.tile t).seq.running && decide ((s.tile t).seq.dom = d)).map fun t =>
    ((s.tile t).seq.step, (s.tile t).seq.stepBase)
  x.firsts.foldl (fun s e =>
    let p := at_.getD (BitVec.ofNat 32 (s.jobStep d), (s.stepEntry d e.1).base)
    s.seqBegin d (tileOf e.1) ⟨p.1, (e.2.getD 0).setWidth 48, p.2⟩) s

/-- Sequencers and holds of a started domain after a re-load (R579, R583, R584, R592). -/
def State.restage (s : State) (d : Fin 2) (x : JobPlan) (before : List TileId) : State :=
  if !(s.dom d).started then s
  else
    let now := s.jobTiles d
    let s := (before.filter fun t => !(now.contains t)).foldl (fun s t =>
      s.setSeq t { (s.tile t).seq with running := false, wait := .none, unit := none }) s
    let rolled := s.rolledTo x
    let s := if x.restart then s.stepAgain d rolled
      else
        let s := if rolled.isSome then s.stepAgain d rolled else s
        s.streamsAnew d x
    s.letEnd d 4 (frameUp (s.ftc + s.holdLead d.val))

/-- The directory whose copies are under way. -/
def State.planOf (s : State) (d : Fin 2) : Option JobPlan := mapGet none s.fw.plans d.val

/-- The state with the directory under way replaced. -/
def State.setPlan (s : State) (d : Fin 2) (x : Option JobPlan) : State :=
  { s with fw := { s.fw with plans := mapSet none s.fw.plans d.val x } }

/-! ### A directory in place -/

/-- The parts of a directory put in place, as a new job or in place of a held one's (R518 to R520, R580). -/
def State.placePlan (s : State) (d : Fin 2) (x : JobPlan) : State :=
  let before := s.jobTiles d
  let s := x.tiles.foldl (fun s t => s.giveTile x.ctx t) s
  let s := (s.setDom d (x.slot (s.dom d))).placeParams d x
  let dies := ((x.parts.filter fun p => decide (p.kind = 0xB)).map fun p => p.target % 64).dedup
  let s := if x.reload then dies.foldl (fun s die => s.unpin d die) s else s
  let s := x.parts.foldl (fun s p => s.placePart d p) s
  let s := ((s.placeInfo d x).restoreBanks d x.dests).placeKey x.dkey
  let s := s.placeWidths.restage d x before
  (s.setPlan d none).showMode d

/-! ### Copies -/

/-- The copies that are left. -/
def State.setTodo (s : State) (d : Fin 2) (todo : List CopyStep) : State :=
  s.setPlan d ((s.planOf d).map fun x => { x with todo := todo })

/-- Bytes copied to a place; what they replace is kept for an undo (R501). -/
def State.copyPut (s : State) (d : Fin 2) (ctx : CtxId) (dest : Nat) (bs : List Byte) : State :=
  let old := s.bytesAt dest bs.length
  (s.setPlan d ((s.planOf d).map fun x => { x with undo := (dest, old) :: x.undo })).foreignWrite ctx.val dest bs 0 false

/-- Bytes of the next request of a copy: up to the next multiple of 4,096. -/
def copyChunk (src len : Nat) : Nat := min len (4096 - src % 4096)

/-- Whether a source on this module can be read: a fenced die's as long as it is reachable (R580). -/
def State.copyReadable (s : State) (src n : Nat) : Bool :=
  let die := gaDie src
  decide (die < 48 ∧ s.pwr.ps < 4 ∧ gaRegion src ≤ 2 ∧ gaRegion (src + n - 1) = gaRegion src ∧ gaDie (src + n - 1) = die) &&
    !(s.die die).tripped && (regionSize die (gaRegion src)).any fun z => decide (gaOff src + n ≤ z)

/-- A copy within this module; `none` when the source cannot be read, or is poisoned. -/
def State.copyLocal (s : State) (d : Fin 2) (ctx : CtxId) (src dest n : Nat) : Option State :=
  if n = 0 then some s
  else if !(s.copyReadable src n) then none
  else
    let r := s.foreignRead .controller ctx.val src n 0
    if r.2.1 then none else some (r.2.2.copyPut d ctx dest r.1)

/-- Copies in their order as far as they need no answer: a status when they have come to an end, `none` while a
request to a peer is under way. -/
def State.copiesRun (s : State) (d : Fin 2) (ctx : CtxId) (key : Nat) : List CopyStep → Option Nat × State
  | [] => (some 0, s.setTodo d [])
  | .move none src dest n :: rest =>
    match s.copyLocal d ctx src dest n with
    | none => (some 0x0B, s)
    | some s => s.copiesRun d ctx key rest
  | .move (some p) src dest n :: rest =>
    if n = 0 then s.copiesRun d ctx key rest
    else (none, (s.setTodo d (.move (some p) src dest n :: rest)).newReq (.copy d) p 1 ctx.val key src
      (copyChunk src n) 0 0 false [])
  | .check p fd l :: rest =>
    (none, (s.setTodo d (.check p fd l :: rest)).newReq (.copy d) p 1 ctx.val key (ldReg fd l 2) 8 0 0 false [])

/-- Lines that copies within the module read and write, up to the next request to a peer. -/
def copyLinesOf : List CopyStep → List (Nat × Bool)
  | .move none src dest n :: rest => readyList src n false ++ readyList dest n true ++ copyLinesOf rest
  | _ => []

/-- Lines that placing a directory's parts writes. -/
def JobPlan.lines (x : JobPlan) : List (Nat × Bool) :=
  (x.parts.filter fun p => decide (p.kind = 1)).flatMap fun p => readyList p.dest p.bytes.length true

/-- Lines that an answer to a copy's request writes, and what comes after it touches. -/
def State.copyLines (s : State) (d : Fin 2) : List (Nat × Bool) :=
  match s.planOf d with
  | none => []
  | some x =>
    x.lines ++
    (match x.todo with
     | .move (some _) src dest n :: rest => readyList dest (copyChunk src n) true ++ copyLinesOf rest
     | _ :: rest => copyLinesOf rest
     | [] => [])

/-- The end of a directory's copies: with status 0 its parts are put in place, else it is given up and the domain
stays as it is (R580). -/
def State.copiesEnd (s : State) (d : Fin 2) (x : JobPlan) (st : Nat) : State :=
  if st = 0 then s.placePlan d x else s.setPlan d none

/-- The copies of a directory undone: what they replaced is written back (R501). -/
def State.copiesUndo (s : State) (d : Fin 2) : State :=
  let l := ((s.planOf d).map (·.undo)).getD []
  l.foldl (fun s e => s.foreignWrite 0 e.1 e.2 0 false) (s.setPlan d none)

/-- An answer to a copy's request (R580, R586): the status of the job load, once it has come to an end. -/
def State.copyHere (s : State) (d : Fin 2) (status : Nat) (bs : List Byte) (poison : Bool) : Option Nat × State :=
  match s.planOf d with
  | none => (none, s)
  | some x =>
    let z : Option Nat × State :=
      if status ≠ 0 ∨ poison then (some 0x0B, s)
      else
        match x.todo with
        | .move (some p) src dest n :: rest =>
          let k := copyChunk src n
          let s := s.copyPut d x.ctx dest (slice bs 0 k)
          s.copiesRun d x.ctx x.key.toNat (if k < n then .move (some p) (src + k) (dest + k) (n - k) :: rest else rest)
        | .check _ fd l :: rest =>
          if field bs 4 4 = s.ld fd l 2 63 32 then s.copiesRun d x.ctx x.key.toNat rest else (some 0x0B, s)
        | _ => (none, s)
    (z.1, z.1.elim z.2 fun st => z.2.copiesEnd d x st)

end Sys2Proof.Machine
end

