-- ==== Sys2Proof/Machine/Tmv.lean ====
section
/-!
DEFINITION. The tile mover (R262 to R266): descriptors, moves cut into requests, reads and writes of
windows to companion memory (R441, R442) and of other modules (R368), faults, completion.
-/

namespace Sys2Proof.Machine

/-- TMV_ register of a tile. -/
def tmvReg (t : TileId) (off : Nat) : Nat := tileReg t (0x4000 + off)

/-- Requests formed are counted, each a step issued (Tables 7.23 and 4.16). -/
def State.tmvFormed (s : State) (t : TileId) (n : Nat) : State :=
  (s.bump (tmvReg t 0x108) n).bump (tileReg t 0x980) n

/-- The transfer in progress under a tag. -/
def State.xfer (s : State) (t : TileId) (tag : BitVec 8) : Option Xfer :=
  (s.tile t).tmv.xfers.find? (·.tag = tag)

/-- A tile's transfers replaced; TMV_STATUS.ACTIVE shows their number. -/
def State.setXfers (s : State) (t : TileId) (l : List Xfer) : State :=
  (s.setTile t { s.tile t with tmv := ⟨l⟩ }).setField (tmvReg t 0) 3 0 l.length

/-- The transfer under a tag changed. -/
def State.updXfer (s : State) (t : TileId) (tag : BitVec 8) (f : Xfer → Xfer) : State :=
  s.setXfers t ((s.tile t).tmv.xfers.map fun x => if x.tag = tag then f x else x)

/-! ### Descriptor -/

/-- A transfer descriptor in 64 bytes, `none` where R262 rejects it. -/
def xferDesc (l : List Byte) : Option XferDesc :=
  let s32 (o : Nat) : Int := signed32 (field l o 4)
  let d : XferDesc :=
    { op := field l 0 1, esize := field l 1 1, fmt := field l 2 1, flags := field l 3 1, hints := field l 4 1,
      win := field l 5 1, module := field l 6 2, src := field l 8 8, dst := field l 16 8, l0 := field l 24 4,
      n1 := field l 28 2, n2 := field l 30 2, srcS1 := s32 32, srcS2 := s32 36, dstS1 := s32 40,
      dstS2 := s32 44, idx := field l 48 8, sigVa := field l 56 6, sigGen := field l 62 1,
      tagGen := field l 63 1 }
  let rows := decide (d.op = 1 ∨ d.op = 4)
  let few := [1, 2, 4, 8].countP fun b => decide (d.flags / b % 2 = 1)
  let addrOk (a win rem : Nat) : Bool :=
    if d.flags / win % 2 = 1 then true
    else if d.flags / rem % 2 = 1 then decide (a < 2 ^ 40) else decide (a < 2 ^ 48)
  let ok := decide (1 ≤ d.op ∧ d.op ≤ 4) &&
    (if rows then decide (d.esize = 0) else decide (d.esize ≤ 3)) &&
    (if d.op = 4 then decide (d.fmt ≤ 5) else decide (d.fmt = 0)) &&
    decide (d.flags < 32 ∧ few ≤ 1 ∧ d.hints < 64 ∧ d.hints % 8 ≤ 4 ∧ d.hints / 8 ≤ 4 ∧ d.win < 16) &&
    (if d.flags / 4 % 4 ≠ 0 then decide (d.module < 4096) else decide (d.module = 0)) &&
    addrOk d.src 1 4 && addrOk d.dst 2 8 &&
    (if rows then decide (1 ≤ d.l0 ∧ d.l0 ≤ 2 ^ 24) else decide (d.l0 = 0)) &&
    decide (1 ≤ d.n1) && (if rows then decide (1 ≤ d.n2) else decide (d.n2 = 1)) &&
    (if rows then decide (d.idx = 0) else decide (d.idx < 2 ^ 48)) &&
    (d.flags / 16 % 2 = 1 || decide (d.sigVa = 0 ∧ d.sigGen = 0))
  if ok then some d else none

/-- Flags of Table 7.18. -/
def XferDesc.srcWin (d : XferDesc) : Bool := decide (d.flags % 2 = 1)
def XferDesc.dstWin (d : XferDesc) : Bool := decide (d.flags / 2 % 2 = 1)
def XferDesc.srcRem (d : XferDesc) : Bool := decide (d.flags / 4 % 2 = 1)
def XferDesc.dstRem (d : XferDesc) : Bool := decide (d.flags / 8 % 2 = 1)
def XferDesc.sig (d : XferDesc) : Bool := decide (d.flags / 16 % 2 = 1)
def XferDesc.srcHint (d : XferDesc) : Nat := d.hints % 8
def XferDesc.dstHint (d : XferDesc) : Nat := d.hints / 8 % 8

/-- An address moved by a signed distance, in the space it lies in. -/
def shiftAddr (space a : Nat) (k : Int) : Nat := (((a : Int) + k) % (2 ^ space : Nat)).toNat

/-- Bits of a source and of a destination address. -/
def XferDesc.srcBits (d : XferDesc) : Nat := if d.srcWin then 64 else if d.srcRem then 40 else 48
def XferDesc.dstBits (d : XferDesc) : Nat := if d.dstWin then 64 else if d.dstRem then 40 else 48

/-- The moves of a transfer in the order of R263, as (source, destination, bytes). -/
def XferDesc.moves (d : XferDesc) (idx : List Nat) : List (Nat × Nat × Nat) :=
  let at_ (sp : Nat) (a : Nat) (k : Int) : Nat := shiftAddr sp a k
  let e := 2 ^ d.esize
  match d.op with
  | 2 => (List.range d.n1).map fun i =>
      (at_ d.srcBits d.src (idx.getD i 0 : Nat), at_ d.dstBits d.dst ((i * e : Nat) : Int), e)
  | 3 => (List.range d.n1).map fun i =>
      (at_ d.srcBits d.src ((i * e : Nat) : Int), at_ d.dstBits d.dst (idx.getD i 0 : Nat), e)
  | _ => (List.range d.n2).flatMap fun k => (List.range d.n1).map fun j =>
      (at_ d.srcBits d.src ((k : Int) * d.srcS2 + (j : Int) * d.srcS1),
       at_ d.dstBits d.dst ((k : Int) * d.dstS2 + (j : Int) * d.dstS1), d.l0)

/-- Bytes that one request covers: a line, or a sector under the narrow hint (R263, R248). -/
def reqSize (hint : Nat) : Nat := if hint = 4 then 32 else 128

/-- The parts of a transfer: moves cut at the requests of the destination where it is a window, another
module or a reduction, else at those of the source. -/
def XferDesc.parts (d : XferDesc) (idx : List Nat) : List XferPart :=
  (d.moves idx).flatMap fun m =>
    let byDst := d.dstWin || d.dstRem || decide (d.op = 4)
    let side := if byDst then m.2.1 else m.1
    let size := if d.op = 4 then 128 else reqSize (if byDst then d.dstHint else d.srcHint)
    (cuts size side m.2.2).map fun c =>
      ⟨m.1 + (c.1 - side), m.2.1 + (c.1 - side), c.2, decide (c.1 = side)⟩

/-- Requests that a part newly forms on one side of its move. -/
def newReqs (size a n : Nat) (first : Bool) : Nat :=
  (cuts size a n).length - (if !first && decide (a % size ≠ 0) then 1 else 0)

/-! ### Performing a part -/

/-- What performing a part comes to: performed, a request sent, held back, or a fault of Table 7.19 with
its address, and for a translation the cause and kind of R205. -/
inductive PartAns where
  | done
  | sent (o : XferOut)
  | blocked
  | fault (code addr cause : Nat) (k : XKind)
  deriving DecidableEq, Repr

/-- A local range translated line by line (R265): each line's VA, bytes and translation, or the cause with
its VA. -/
def State.tmvXl (s : State) (t : TileId) (ctx : CtxId) (va n : Nat) (k : XKind) :
    Except (Nat × Nat) (List (Nat × Nat × XlOk)) × State :=
  (cuts 128 va n).foldl (fun (z : Except (Nat × Nat) (List (Nat × Nat × XlOk)) × State) c =>
    match z.1 with
    | .error e => (.error e, z.2)
    | .ok l =>
      match z.2.xlAns (tileDie t) ctx (c.1 % 2 ^ 48) k .plain with
      | .error e => (.error (e, c.1 % 2 ^ 48), z.2)
      | .ok x => (.ok (l ++ [(c.1 % 2 ^ 48, c.2, x)]), z.2.xlLookup t ctx (c.1 % 2 ^ 48))) (.ok [], s)

/-- Lines of a translated range, with whether they are written. -/
def lineNeeds (l : List (Nat × Nat × XlOk)) (write : Bool) : List (Nat × Bool) := l.map fun e => (e.2.2.ga, write)

/-- Whether the requests of a translated range can take slots (R123, R250). -/
def State.tmvSlots (s : State) (t : TileId) (l : List (Nat × Nat × XlOk)) (write : Bool) : Bool × Bool :=
  l.foldl (fun (z : Bool × Bool) e =>
    if (if write then ownMem t e.2.2.ga else s.servedNear t e.2.2) then z
    else
      let f := (s.tile t).slotFor (quotaBank e.2.2.ga)
      (z.1 && f.1, z.2 || f.2)) (true, false)

/-- A translated range read: bytes, the ranges of it that carry poison (offset, bytes), state. -/
def State.tmvRead (s : State) (t : TileId) (ctx : CtxId) (hint : Nat) (l : List (Nat × Nat × XlOk)) :
    List Byte × List (Nat × Nat) × State :=
  l.foldl (fun (z : List Byte × List (Nat × Nat) × State) e =>
    let off := z.1.length
    let x := e.2.2
    let bad := (granulesOf x.ga e.2.1).filterMap fun g =>
      if decide (gaRegion x.ga ≤ 2) && setHas s.poison g then
        let a := max g x.ga
        let b := min (g + (granule x.ga).2) (x.ga + e.2.1)
        some (off + (a - x.ga), b - a)
      else none
    let one (s : State) (a n : Nat) : List Byte × Bool × State := s.tileLoad t ctx { x with ga := a } n hint
    let r := (cuts (cutSize x.ga) x.ga e.2.1).foldl (fun (y : List Byte × State) c =>
      let q := one y.2 c.1 c.2
      (y.1 ++ q.1, q.2.2)) ([], z.2.2)
    (z.1 ++ r.1, z.2.1 ++ bad, r.2.raNote t 3 ctx e.1 x.ga hint)) ([], [], s)

/-- Granules that poisoned bytes reach are poisoned (R215). -/
def State.tmvPoison (s : State) (ga off n : Nat) (bad : List (Nat × Nat)) : State :=
  bad.foldl (fun s b =>
    let a := max b.1 off
    let e := min (b.1 + b.2) (off + n)
    if a < e ∧ gaRegion ga ≤ 2 then (granulesOf (ga + (a - off)) (e - a)).foldl (fun s g => s.makePoison g) s
    else s) s

/-- Bytes written to places (GA, bytes), with poison. -/
def State.tmvWrite (s : State) (t : TileId) (ctx : CtxId) (hint : Nat) (places : List (Nat × Nat))
    (bs : List Byte) (bad : List (Nat × Nat)) : State :=
  (places.foldl (fun (z : Nat × State) p =>
    let x : XlOk := ⟨p.1, false, false, false⟩
    let s := (cuts (cutSize p.1) p.1 p.2).foldl (fun s c =>
      s.tileStore t ctx { x with ga := c.1 } (slice bs (z.1 + (c.1 - p.1)) c.2) hint) z.2
    (z.1 + p.2, s.tmvPoison p.1 z.1 p.2 bad)) (0, s)).2

/-- Element mask of a row's bytes in a line (R264) (DEDUCED, log entry 15). -/
def redMask (fmt ga n : Nat) : BitVec 64 :=
  let es := redSize fmt
  BitVec.ofNat 64 ((List.range (n / es)).foldl (fun m i => m + 2 ^ (ga % 128 / es + i)) 0)

/-- A row's bytes at their place in a line. -/
def redData (ga : Nat) (bs : List Byte) : BitVec 1024 := BitVec.ofNat 1024 (leNat bs * 2 ^ (8 * (ga % 128)))

/-- Bytes added to a line of this module as one reduce-write (R264). A contribution that carries poison
poisons the line. -/
def State.tmvReduce (s : State) (t : TileId) (ctx : CtxId) (fmt ga : Nat) (bs : List Byte) (bad : Bool) : State :=
  let s := s.redArrive true ctx (s.tile t).seq.layer (ga / 128 * 128) fmt (redMask fmt ga bs.length) (redData ga bs)
  if bad then s.makePoison (granule ga).1 else s

/-- The check of a window access (R441, Table 12.14): the cause of R204, if it fails. -/
def State.winCause (s : State) (ctx : CtxId) (w off n : Nat) (write : Bool) : Option Nat :=
  let a := s.reg (regGa 48 (0x30100 + 0x10 * w))
  let b := s.reg (regGa 48 (0x30108 + 0x10 * w))
  if bits a 63 63 = 0 ∨ bits a 57 52 ≠ ctx.val ∨ bits b 39 0 < off + n then some 1
  else if write ∧ bits a 62 62 = 1 then some 3
  else none

/-- Companion address of a window's offset. -/
def State.winAddr (s : State) (w off : Nat) : BitVec 52 :=
  BitVec.ofNat 52 (s.regField (regGa 48 (0x30100 + 0x10 * w)) 51 12 * 4096 + off)

/-- Quota banks of other modules and of companion memory (Table 7.5). -/
def remBank (module : Nat) : Nat := 2 ^ 40 + module
def cclBank : Nat := 2 ^ 41

/-- A companion-link port that is ACTIVE. -/
def State.cclPort (s : State) : Option (Fin 2) :=
  if s.cclActive 0 then some 0 else if s.cclActive 1 then some 1 else none

/-- Job key that a context's requests carry (R369). -/
def State.jobKey (s : State) (ctx : CtxId) : Nat := (s.slotOf ctx).elim 0 fun d => (s.dom d).key.toNat

/-- Whether a request can take a slot on a bank, counted when its quota holds it back (R251). -/
def State.tmvSlot (s : State) (t : TileId) (bank : Nat) : Bool × State :=
  let f := (s.tile t).slotFor bank
  (f.1, if f.2 then s.bump (tileReg t 0x318) 1 else s)

/-- A part whose data come from an import window or another module (R441, R442, R368). -/
def State.tmvFetch (s : State) (t : TileId) (x : Xfer) (p : XferPart) : PartAns × State :=
  let d := x.desc
  let w : Fin 16 := Fin.ofNat 16 d.win
  match if d.srcWin then s.winCause x.ctx d.win p.src p.n false else none with
  | some c => (.fault 3 p.src c .load, s)
  | none =>
    let z := s.tmvXl t x.ctx p.dst p.n .store
    match z.1 with
    | .error e => (.fault 3 e.2 e.1 .store, z.2)
    | .ok l =>
      let s := z.2
      let places := l.map fun e => (e.2.2.ga, e.2.1)
      if d.op = 4 ∧ (l.any fun e => !(homed e.2.2.ga) || decide (e.2.2.ga % redSize d.fmt ≠ 0)) then
        (.fault 2 p.dst 0 .store, s)
      else
        let key := NcKey.window w (p.src / 128)
        let near := d.srcWin && decide (s.regField (regGa 48 (0x30100 + 0x10 * d.win)) 62 61 = 3 ∧
          d.srcHint ≠ 4 ∧ s.regField (ncReg t 0) 0 0 = 1)
        match if near then (s.tile t).ncFind key else none with
        | some h =>
          let ready := s.mustWait (lineNeeds l true)
          if ready.1 then (.blocked, ready.2)
          else
            let s := ready.2.setTile t ((ready.2.tile t).ncTouch key (decide (d.srcHint = 2)))
            let s := (s.bump (ncReg t 0x100) 1).tmvFormed t (newReqs (reqSize d.dstHint) p.dst p.n p.first)
            let bs := slice (leBytes 128 h.data.toNat) (p.src % 128) p.n
            if d.op = 4 then
              (.done, places.foldl (fun s pl => s.tmvReduce t x.ctx d.fmt pl.1 bs false) s)
            else (.done, s.tmvWrite t x.ctx d.dstHint places bs [])
        | none =>
          let bank := if d.srcWin then cclBank else remBank d.module
          let f := s.tmvSlot t bank
          if !f.1 then (.blocked, f.2)
          else
            let s := f.2
            let o : XferOut :=
              { id := x.nextId, bank := bank, dst := p.dst, n := p.n, places := places,
                skip := if near then p.src % 128 else 0, win := if near then some (w, p.src / 128) else none,
                fault := p.src }
            let count (s : State) : State := s.tmvFormed t (newReqs (reqSize d.srcHint) p.src p.n p.first +
              newReqs (reqSize d.dstHint) p.dst p.n p.first)
            let who := ReqWho.tmv t x.tag x.gen x.nextId
            if d.srcRem then
              (.sent o, (count s).newReq who d.module 1 x.ctx.val (s.jobKey x.ctx) p.src p.n 0 0 false [])
            else
              match s.cclPort with
              | none => (.blocked, s)
              | some port =>
                let s := if near then s.bump (ncReg t 0x108) 1 else s
                (.sent o, (count s).cclAsk port who
                  (s.winAddr d.win (if near then p.src / 128 * 128 else p.src)) (if near then 128 else p.n))

/-- A part whose data go to an import window or another module. -/
def State.tmvPush (s : State) (t : TileId) (x : Xfer) (p : XferPart) : PartAns × State :=
  let d := x.desc
  match if d.dstWin then s.winCause x.ctx d.win p.dst p.n true else none with
  | some c => (.fault 3 p.dst c .store, s)
  | none =>
    if d.op = 4 ∧ (!(homed p.dst) ∨ 48 ≤ gaDie p.dst ∨ p.dst % redSize d.fmt ≠ 0 ∨ d.dstWin) then
      (.fault 2 p.dst 0 .store, s)
    else
      let z := s.tmvXl t x.ctx p.src p.n .load
      match z.1 with
      | .error e => (.fault 3 e.2 e.1 .load, z.2)
      | .ok l =>
        let ready := z.2.mustWait (lineNeeds l false)
        let f := ready.2.tmvSlot t (if d.dstWin then cclBank else remBank d.module)
        if ready.1 || !f.1 || !(f.2.tmvSlots t l false).1 then (.blocked, f.2)
        else
          match if d.dstWin then f.2.cclPort else some 0 with
          | none => (.blocked, f.2)
          | some port =>
            let r := f.2.tmvRead t x.ctx d.srcHint l
            let bad := !r.2.1.isEmpty
            let s := r.2.2.tmvFormed t (newReqs (reqSize d.srcHint) p.src p.n p.first +
              newReqs (reqSize d.dstHint) p.dst p.n p.first)
            let o : XferOut := ⟨x.nextId, if d.dstWin then cclBank else remBank d.module, p.dst, p.n, [], 0, none, p.dst⟩
            let who := ReqWho.tmv t x.tag x.gen x.nextId
            if d.dstRem then
              if d.op = 4 then
                (.sent o, s.newReq who d.module 3 x.ctx.val (s.jobKey x.ctx) (p.dst / 128 * 128) 128 d.fmt
                  (redMask d.fmt p.dst p.n).toNat bad (leBytes 128 (redData p.dst r.1).toNat))
              else (.sent o, s.newReq who d.module 2 x.ctx.val (s.jobKey x.ctx) p.dst p.n 0 0 bad r.1)
            else
              let c := s.newCcl who 0
              (.sent o, c.2.send (.cclStore port (s.winAddr d.win p.dst) r.1 bad c.1))

/-- A part inside the module. -/
def State.tmvLocal (s : State) (t : TileId) (x : Xfer) (p : XferPart) : PartAns × State :=
  let d := x.desc
  let z := s.tmvXl t x.ctx p.src p.n .load
  match z.1 with
  | .error e => (.fault 3 e.2 e.1 .load, z.2)
  | .ok l =>
    let y := z.2.tmvXl t x.ctx p.dst p.n .store
    match y.1 with
    | .error e => (.fault 3 e.2 e.1 .store, y.2)
    | .ok m =>
      if d.op = 4 ∧ (m.any fun e => !(homed e.2.2.ga) || decide (e.2.2.ga % redSize d.fmt ≠ 0)) then
        (.fault 2 p.dst 0 .store, y.2)
      else
        let ready := y.2.mustWait (lineNeeds l false ++ lineNeeds m true)
        let f := ready.2.tmvSlots t l false
        let g := ready.2.tmvSlots t m true
        if ready.1 then (.blocked, ready.2)
        else if !f.1 || !g.1 then
          (.blocked, if f.2 || g.2 then ready.2.bump (tileReg t 0x318) 1 else ready.2)
        else
          let r := ready.2.tmvRead t x.ctx d.srcHint l
          let s := r.2.2.tmvFormed t (newReqs (reqSize d.srcHint) p.src p.n p.first +
            newReqs (reqSize d.dstHint) p.dst p.n p.first)
          let places := m.map fun e => (e.2.2.ga, e.2.1)
          if d.op = 4 then
            (.done, places.foldl (fun s pl => s.tmvReduce t x.ctx d.fmt pl.1 r.1 (!r.2.1.isEmpty)) s)
          else (.done, s.tmvWrite t x.ctx d.dstHint places r.1 r.2.1)

/-- One part: an element that is not aligned faults (R263), and a part that writes bytes whose earlier
write is awaited is held back (R263). -/
def State.tmvPart (s : State) (t : TileId) (x : Xfer) (p : XferPart) : PartAns × State :=
  let d := x.desc
  let e := 2 ^ d.esize
  if (d.op = 2 ∨ d.op = 3) ∧ p.src % e ≠ 0 then (.fault 2 p.src 0 .load, s)
  else if (d.op = 2 ∨ d.op = 3) ∧ p.dst % e ≠ 0 then (.fault 2 p.dst 0 .store, s)
  else if x.out.any fun o => decide (o.dst < p.dst + p.n ∧ p.dst < o.dst + o.n) then (.blocked, s)
  else if d.srcWin || d.srcRem then s.tmvFetch t x p
  else if d.dstWin || d.dstRem then s.tmvPush t x p
  else s.tmvLocal t x p

/-- A tile-mover fault (R265): recorded, counted and reported, the transfer ends and the sequencer stops.
A translation fault is reported as R205 says (DEDUCED, log entry 71). -/
def State.tmvFault (s : State) (t : TileId) (tag : BitVec 8) (ctx : CtxId) (descVa : Nat) (code addr cause : Nat)
    (k : XKind) : State :=
  let a := tmvReg t 0x20
  let s := if s.regField a 34 34 = 1 then s
    else (s.setReg a (putBits (putBits (putBits (putBits 0 63 56 code) 55 48 tag.toNat) 40 35 ctx.val) 34 34 1)).setReg
      (a + 8) (putBits 0 47 0 (addr % 2 ^ 48))
  let s := s.bump (tmvReg t 0x118) 1
  let gone := ((s.xfer t tag).elim [] (·.out)).map (·.bank)
  let s := s.setTile t { s.tile t with slots := gone.foldl (fun l b => l.erase b) (s.tile t).slots }
  let s := s.setXfers t ((s.tile t).tmv.xfers.filter (·.tag ≠ tag))
  if code = 3 then (s.xlFault t ctx 3 cause addr descVa k).seqStop t 4
  else (s.raiseTile t (0x700 + code) ctx addr 0).seqFault t 3

/-- Parts performed in order until one is held back (R263). -/
def State.tmvGo (s : State) (t : TileId) (tag : BitVec 8) : List XferPart → State
  | [] => s.updXfer t tag fun x => { x with left := [] }
  | p :: rest =>
    match s.xfer t tag with
    | none => s
    | some x =>
      let r := s.tmvPart t x p
      match r.1 with
      | .done => r.2.tmvGo t tag rest
      | .sent o =>
        let s := r.2.updXfer t tag fun x => { x with out := x.out ++ [o], nextId := x.nextId + 1 }
        (s.setTile t { s.tile t with slots := (s.tile t).slots ++ [o.bank] }).tmvGo t tag rest
      | .blocked => r.2.updXfer t tag fun x => { x with left := p :: rest }
      | .fault code addr cause k => r.2.tmvFault t tag x.ctx x.descVa.toNat code addr cause k

/-- What is left of a transfer performed as far as it goes. -/
def State.tmvDrive (s : State) (t : TileId) (tag : BitVec 8) : State :=
  match s.xfer t tag with
  | none => s
  | some x => s.tmvGo t tag x.left

/-- The index list of a gather or scatter (R263, R265): the offsets, or the fault with its address and
cause. -/
def State.tmvIndex (s : State) (t : TileId) (ctx : CtxId) (d : XferDesc) :
    Except (Nat × Nat × Nat) (List Nat) × State :=
  if d.op ≠ 2 ∧ d.op ≠ 3 then (.ok [], s)
  else if d.idx % 4 ≠ 0 then (.error (2, d.idx, 0), s)
  else
    let z := s.tmvXl t ctx d.idx (4 * d.n1) .load
    match z.1 with
    | .error e => (.error (3, e.2, e.1), z.2)
    | .ok l =>
      let r := z.2.tmvRead t ctx 0 l
      match r.2.1 with
      | b :: _ => (.error (4, d.idx + b.1, 0), r.2.2)
      | [] => (.ok ((List.range d.n1).map fun i => field r.1 (4 * i) 4), r.2.2)

/-- TMV.XFER (R262 to R265): waits while 8 transfers are in progress or the tag's is; else the descriptor
is read and checked, and the transfer starts. -/
def execTmvXfer (t : TileId) (w : BitVec 120) (s : State) : Host.Outcome State Fault Refusal :=
  .next (
    let tag := BitVec.ofNat 8 (wbits w 55 48)
    if s.seqReady t && (decide (8 ≤ (s.tile t).tmv.xfers.length) || (s.xfer t tag).isSome) then
      s.wait (.tmvXfer t w)
    else s.seqWord t fun _ s =>
      if wbits w 119 56 ≠ 0 then s.seqFault t 1
      else
        let ctx := (s.tile t).seq.ctx
        let va := wbits w 47 0
        let fault (s : State) (code addr cause : Nat) : State := s.tmvFault t tag ctx va code addr cause .load
        if va % 64 ≠ 0 then fault s 1 va 0
        else
          let z := s.tmvXl t ctx va 64 .load
          match z.1 with
          | .error e => fault z.2 3 e.2 e.1
          | .ok l =>
            let r := z.2.tmvRead t ctx 0 l
            let s := r.2.2
            if !r.2.1.isEmpty then fault s 4 va 0
            else
              match xferDesc r.1 with
              | none => fault s 1 va 0
              | some d =>
                if d.op = 4 ∧ redRefusedFmt d.fmt ∧ s.ctxDet ctx then fault s 7 va 0
                else if d.op = 4 ∧ d.l0 % redSize d.fmt ≠ 0 then fault s 2 d.dst 0
                else
                  let i := s.tmvIndex t ctx d
                  match i.1 with
                  | .error e => fault i.2 e.1 e.2.1 e.2.2
                  | .ok idx =>
                    let x : Xfer := ⟨tag, BitVec.ofNat 8 d.tagGen, ctx, BitVec.ofNat 48 va, d, d.parts idx, [], 0⟩
                    (i.2.setXfers t ((i.2.tile t).tmv.xfers ++ [x])).tmvDrive t tag)

/-- The answer to a request of a transfer (R265, R370): the data go to their places, the request's slot is
free, and what is left goes on; an answer under another generation is stale. `none` when a line must wait. -/
def State.tmvAnswer (s : State) (t : TileId) (tag gen : BitVec 8) (id status : Nat) (bs : List Byte)
    (poison : Bool) : Option State × State :=
  match s.xfer t tag with
  | none => (some (s.bump (tmvReg t 0x110) 1), s)
  | some x =>
    match x.out.find? (·.id = id), decide (x.gen = gen) with
    | some o, true =>
      let d := x.desc
      let ready := s.readyLines (o.places.map fun p => (p.1, true))
      if status = 0 ∧ ready.1 then (none, ready.2)
      else
        let s := ready.2.updXfer t tag fun x => { x with out := x.out.filter (·.id ≠ id) }
        let s := s.setTile t { s.tile t with slots := (s.tile t).slots.erase o.bank }
        if status ≠ 0 then
          (some (s.tmvFault t tag x.ctx x.descVa.toNat (if status = 5 then 5 else 6) o.fault 0 .load), s)
        else
          let s := match o.win with
            | some (w, line) =>
              if poison then s
              else s.setTile t ((s.tile t).ncFill (.window w line) (decide (d.srcHint = 2))
                (BitVec.ofNat 1024 (leNat (slice bs 0 128))))
            | none => s
          let data := slice bs o.skip o.n
          let s := if o.places.isEmpty then s
            else if d.op = 4 then o.places.foldl (fun s p => s.tmvReduce t x.ctx d.fmt p.1 data poison) s
            else s.tmvWrite t x.ctx d.dstHint o.places data (if poison then [(0, o.n)] else [])
          (some (s.tmvDrive t tag), s)
    | _, _ => (some (s.bump (tmvReg t 0x110) 1), s)

/-- TMV_XFER_COMPLETE (R265): once everything issued has been performed and every read has returned, the
sync word is signalled and the transfer ends; a completion of no transfer in progress is stale. -/
def execTmvXferComplete (t : TileId) (tag tagGen : BitVec 8) (s : State) : Host.Outcome State Fault Refusal :=
  .next (
    if !(s.tileOn t) then s
    else
      match s.xfer t tag with
      | none => s.bump (tmvReg t 0x110) 1
      | some x =>
        if x.gen ≠ tagGen then s.bump (tmvReg t 0x110) 1
        else
          let s := s.tmvDrive t tag
          match s.xfer t tag with
          | none => s
          | some x =>
            if !x.left.isEmpty || !x.out.isEmpty then s.wait (.tmvXferComplete t tag tagGen)
            else
              let d := x.desc
              let fin (s : State) : State :=
                (s.setXfers t ((s.tile t).tmv.xfers.filter (·.tag ≠ tag))).bump (tmvReg t 0x100) 1
              let fault (code cause : Nat) : State :=
                s.tmvFault t tag x.ctx x.descVa.toNat code d.sigVa cause .store
              if !d.sig then fin s
              else if d.sigVa % 8 ≠ 0 then fault 2 0
              else
                match s.xlAns (tileDie t) x.ctx d.sigVa .store .syncInitOrSig with
                | .error c => fault 3 c
                | .ok a =>
                  let s := s.xlLookup t x.ctx d.sigVa
                  if gaRegion a.ga ≠ 3 then fault 2 0
                  else fin (s.syncEach a.ga fun s g => s.syncSig g d.sigGen 1).2)

end Sys2Proof.Machine
end

