-- ==== Sys2Proof/Machine/Ccl.lean ====
section
/-!
DEFINITION. The companion link's messages (R429 to R449): requests to device memory, snoop answers, signals,
doorbells, ring set-up, and the answers to the module's own requests, those from other modules among them.
-/

namespace Sys2Proof.Machine

/-! ### Requests to device memory -/

/-- The answer to a request (Table 12.6): with data or without. -/
def State.cclRespond (s : State) (p : Fin 2) (h : CclHdr) (status : Nat) (poison : Bool) (data : Option (List Byte)) : State :=
  let bs := data.getD []
  s.send (.cclResponse p data.isSome
    { h with poison := poison, len := BitVec.ofNat 13 bs.length, status := BitVec.ofNat 8 status } bs)

/-- GA that an address of the aperture names (R431). -/
def cclGa (h : CclHdr) : Nat := h.addr.toNat % 2 ^ 40

/-- A request's checks (R431, Table 12.7): the port is up; a malformed message, or an address that does not
exist or cannot be reached, completes with FAULT; a region that the table refuses, with DENIED. `reads` says
whether the answer carries data. -/
def State.cclRequest (s : State) (p : Fin 2) (h : CclHdr) (n : Nat) (formed reads : Bool) (regions : List Nat)
    (act : Nat → State) : State :=
  let ga := cclGa h
  let refuse (st : Nat) : State := s.cclRespond p h st false (if reads then some [] else none)
  if !s.on || !(s.cclActive p) then s
  else if !formed || decide (h.flagsReserved ≠ 0) then refuse 0x0B
  else if (s.gaCause (48 + p.val) ga).isNone && !(regions.contains (gaRegion ga)) then refuse 5
  else if !(s.rangeOk (48 + p.val) ga n) then refuse 0x0B
  else act ga

/-- Whether lines of a range have a snoop outstanding or heal, so that a companion request waits (R436), after
errors in them have been met. -/
def State.cclReady (s : State) (ga n : Nat) : Bool × State :=
  (linesOf ga n).foldl (fun (z : Bool × State) l =>
    if !(homed l) then (z.1 || false, (z.2.errsIn l).foldl (fun s e => if gaRegion l = 0 then s.meetErr (gaDie l) e else s) z.2)
    else
      let s := (z.2.errsIn l).foldl (fun s e => s.meetErr (gaDie l) e) z.2
      let x := s.die (gaDie l)
      (z.1 || x.heals.contains (gaLine l) || x.snoops.any (fun q => decide (q.line = gaLine l)), s)) (false, s)

/-- Entries of a directory (R435). -/
def dirSize : Nat := 65536

/-- A grant recorded (R434, R435). -/
def State.dirGrant (s : State) (die line : Nat) (owned : Bool) (p : Fin 2) : State :=
  let x := s.die die
  s.setDie die { x with dir := x.dir.filter (fun e => decide (e.line ≠ line)) ++ [⟨line, owned, p⟩] }

/-- A coherent read (RD_S, RD_M): the line is read at its home and granted. A grant that finds no free entry
waits for the snoop of the least recently granted one. -/
def State.cclGrant (s : State) (p : Fin 2) (h : CclHdr) (owned : Bool) (cmd : Instr) : State :=
  s.cclRequest p h 128 (decide (h.len = 0 ∨ h.len = 128)) true [1, 2] fun ga =>
    let ga := ga / 128 * 128
    let die := gaDie ga
    let line := gaLine ga
    let w := s.cclReady ga 128
    let x := w.2.die die
    if w.1 then w.2.wait cmd
    else if !(x.dir.any fun e => decide (e.line = line)) && decide (dirSize ≤ x.dir.length) then
      match x.dir.find? fun e => !(x.snoops.any fun q => decide (q.line = e.line)) with
      | none => w.2.wait cmd
      | some e =>
        if x.snoops.any fun q => decide (x.dir.any fun d => decide (d.line = q.line)) then w.2.wait cmd
        else ((w.2.sendSnoop die e true).cclBump 0x308 1).wait cmd
    else
      let r := w.2.foreignRead .companion h.ctx.val ga 128 0
      (r.2.2.dirGrant die line owned p).cclRespond p h 0 r.2.1 (some r.1)

/-- RD_S (R434). -/
def execRdS (p : Fin 2) (h : CclHdr) (s : State) : Host.Outcome State Fault Refusal :=
  .next (s.cclGrant p h false (.rdS p h))

/-- RD_M (R434). -/
def execRdM (p : Fin 2) (h : CclHdr) (s : State) : Host.Outcome State Fault Refusal :=
  .next (s.cclGrant p h true (.rdM p h))

/-- RD_U (Table 12.7). -/
def execRdU (p : Fin 2) (h : CclHdr) (s : State) : Host.Outcome State Fault Refusal :=
  .next (s.cclRequest p h h.len.toNat (decide (8 ≤ h.len.toNat ∧ h.len.toNat ≤ 4096)) true [0, 1, 2, 3] fun ga =>
    let w := s.cclReady ga h.len.toNat
    if w.1 then w.2.wait (.rdU p h)
    else
      let r := w.2.foreignRead .companion h.ctx.val ga h.len.toNat 0
      r.2.2.cclRespond p h 0 r.2.1 (some r.1))

/-- WR_U (Table 12.7). -/
def execWrU (p : Fin 2) (h : CclHdr) (data : List Byte) (s : State) : Host.Outcome State Fault Refusal :=
  .next (s.cclRequest p h h.len.toNat
    (decide (8 ≤ h.len.toNat ∧ h.len.toNat ≤ 4096 ∧ h.len.toNat = data.length)) false [0, 1, 2] fun ga =>
    let w := s.cclReady ga data.length
    if w.1 then w.2.wait (.wrU p h data)
    else ((w.2.foreignWrite h.ctx.val ga data 0 h.poison).clearCovered
      (if h.poison then [] else [(ga, data.length)])).cclRespond p h 0 false none)

/-- A companion's data for a line become its content (R436, R438, R439). -/
def State.takeLine (s : State) (ctx ga : Nat) (data : List Byte) (poison : Bool) : State :=
  let s := s.foreignWrite ctx ga (slice data 0 128) 0 false
  if poison then (granulesOf ga 128).foldl (fun s g => s.makePoison g) s else s.clearCovered [(ga, 128)]

/-- A line's entry leaves the directory; an outstanding snoop of it is marked crossed (R438). -/
def State.dirDrop (s : State) (die line : Nat) : State :=
  let x := s.die die
  s.setDie die { x with dir := x.dir.filter fun e => decide (e.line ≠ line)
                        snoops := x.snoops.map fun q => if q.line = line then { q with crossed := true } else q }

/-- WB (R438, R439): of a line that the companion owns; another completes with DENIED. -/
def execWb (p : Fin 2) (h : CclHdr) (data : List Byte) (s : State) : Host.Outcome State Fault Refusal :=
  .next (s.cclRequest p h 128 (decide (h.len = 128 ∧ data.length = 128)) false [1, 2] fun ga =>
    let ga := ga / 128 * 128
    if !((s.die (gaDie ga)).dir.any fun e => decide (e.line = gaLine ga) && e.owned) then s.cclRespond p h 5 false none
    else ((s.takeLine h.ctx.val ga data h.poison).dirDrop (gaDie ga) (gaLine ga)).cclRespond p h 0 false none)

/-- DROP (R438). -/
def execDrop (p : Fin 2) (h : CclHdr) (s : State) : Host.Outcome State Fault Refusal :=
  .next (s.cclRequest p h 128 (decide (h.len = 0 ∨ h.len = 128)) false [1, 2] fun ga =>
    (s.dirDrop (gaDie ga) (gaLine (ga / 128 * 128))).cclRespond p h 0 false none)

/-- Elements of a line in a reduce-write format (Table 7.3). -/
def redElems (fmt : Nat) : Nat := 128 / (match fmt with | 0 => 4 | 1 => 8 | 2 => 4 | 3 => 8 | 4 => 4 | _ => 2)

/-- RED (R238, Table 12.6): a mask bit beyond the line's elements, or a reserved byte, makes it malformed. -/
def execRed (p : Fin 2) (h : CclHdr) (data : List Byte) (s : State) : Host.Outcome State Fault Refusal :=
  .next (
    let fmt := h.fmt.toNat
    let mask := field data 0 8
    s.cclRequest p h 128 (decide (h.len = 144 ∧ data.length = 144 ∧ field data 8 8 = 0 ∧ mask < 2 ^ redElems fmt) &&
      decide (cclGa h % 128 = 0 ∧ fmt ≤ 5)) false [1, 2] fun ga =>
    if redRefusedFmt fmt && s.ctxDet h.ctx then (s.redRefuse (gaDie ga) h.ctx ga).cclRespond p h 0x0B false none
    else
      let w := s.cclReady ga 128
      if w.1 then w.2.wait (.red p h data)
      else
        let s := w.2.redArrive false h.ctx 0 ga fmt (BitVec.ofNat 64 mask) (BitVec.ofNat 1024 (leNat (slice data 16 128)))
        (if h.poison then (granulesOf ga 128).foldl (fun s g => s.makePoison g) s else s).cclRespond p h 0 false none)

/-! ### Snoops -/

/-- A snoop of a line completes (R436, R438): an invalidated copy is gone, a shared one is kept. -/
def State.snoopDone (s : State) (die : Nat) (q : Snoop) : State :=
  let x := s.die die
  let keep := !q.inv && !q.crossed
  s.setDie die { x with snoops := x.snoops.filter fun r => decide (r.line ≠ q.line),
                        dir := if keep then x.dir.map fun e => if e.line = q.line then { e with owned := false } else e
                               else x.dir.filter fun e => decide (e.line ≠ q.line) }

/-- SNP_ACK (R436, R438, R439). An answer to no snoop outstanding is stale. -/
def execSnpAck (p : Fin 2) (h : CclHdr) (data : List Byte) (s : State) : Host.Outcome State Fault Refusal :=
  .next (
    let ga := cclGa h / 128 * 128
    let die := gaDie ga
    if !s.on || !(s.cclActive p) then s
    else
      match (s.die die).snoops.find? fun q => decide (q.line = gaLine ga ∧ q.tag = h.tag.toNat) with
      | none => s.cclBump 0x328 1
      | some q =>
        let owned := (s.die die).dir.any fun e => decide (e.line = q.line) && e.owned
        let s := if data.length < 128 then s
          else if q.crossed then s.cclBump 0x318 1
          else if owned then s.takeLine h.ctx.val ga data h.poison
          else s
        s.snoopDone die q)

/-- SNOOP_TIMEOUT (R437): no answer within 1 ms. A line that was owned is poisoned. -/
def execSnoopTimeout (d : CdId) (line : BitVec 40) (s : State) : Host.Outcome State Fault Refusal :=
  .next (
    let ga := line.toNat / 128 * 128
    let die := d.val
    if !(s.dieOn die) then s
    else
      match (s.die die).snoops.find? fun q => decide (q.line = gaLine ga) with
      | none => s
      | some q =>
        let at_ := lineGa die q.line
        let owned := (s.die die).dir.any fun e => decide (e.line = q.line) && e.owned
        let s := if owned ∧ !q.crossed then (granulesOf at_ 128).foldl (fun s g => s.makePoison g) s else s
        ((s.snoopDone die { q with inv := true }).cclBump 0x310 1).raiseHome die .contained 0x2007 0 at_ 0)

/-! ### Signals, doorbells and rings -/

/-- SIGNAL (R278, R433): performed as SY.SIG; its data are taken as the operand of R268, GEN in bits [63:56]
and N in bits [15:0] (DEDUCED, log entry 19). One that names no sync word of the module is not performed. -/
def execSignal (p : Fin 2) (h : CclHdr) (data : List Byte) (s : State) : Host.Outcome State Fault Refusal :=
  .next (
    let ga := cclGa h
    let v := BitVec.ofNat 64 (field data 0 8)
    if !s.on || !(s.cclActive p) || decide (ga % 8 ≠ 0 ∨ gaRegion ga ≠ 3) || (s.xCause (48 + p.val) ga .store .syncInitOrSig).isSome then s
    else (s.syncEach ga fun s a => s.syncSig a (tbGen v) (tbN v)).2)

/-- A doorbell or ring set-up that is not accepted (R444, R446). -/
def State.badDoorbell (s : State) (p : Fin 2) (ctx : CtxId) : State :=
  (s.cclBump 0x320 1).raise { cls := .contained, code := 0x7006, die := 48 + p.val, kind := 5, inst := 8 + p.val, ctx := ctx.val,
                              tile := none, location := 0, step := 0, layer := 0, detail := 0 }

/-- Position that a ring index below n stands for: the first from a position on that has it (DEDUCED, log entry 65). -/
def ringPos (n pos idx : Nat) : Nat := pos + (idx + n - pos % n) % n

/-- DOORBELL (R446, R447): the tail and the head recorded; completions held are written, slots fetched. -/
def execDoorbell (p : Fin 2) (_h : CclHdr) (data : List Byte) (s : State) : Host.Outcome State Fault Refusal :=
  .next (
    let m : Fin 8 := Fin.ofNat 8 (field data 0 1)
    let tail := field data 2 2
    let head := field data 4 2
    if !s.on || !(s.cclActive p) then s
    else if 8 ≤ field data 0 1 then s.badDoorbell p 0
    else if !(s.ringsOn m.val) then s.badDoorbell p (s.mboxCtx m.val)
    else if s.ringLen m.val ≤ tail ∨ s.ringLen m.val ≤ head then s.badDoorbell p (s.mboxCtx m.val)
    else
      let b := s.mbox m.val
      let s := s.setMbox m.val { b with sqTail := tail, cqHead := min b.cqTail (ringPos (s.ringLen m.val) b.cqHead head) }
      (State.flushDone b.held.length s m.val).fetchNext m)

/-- Rings of a mailbox started (R445, R515): bases, size, port, vector and moderation. -/
def State.startRings (s : State) (m : Nat) (sq cq k port vector imodN imodT : Nat) (ctx : Option CtxId) : State :=
  let a := putBits (putBits (putBits (putBits 0 63 63 1) 62 62 port) 51 12 (sq / 4096)) 11 8 k
  let b := putBits (putBits (putBits (putBits 0 63 59 imodN) 58 52 imodT) 51 12 (cq / 4096)) 11 1 vector
  let s := ((s.setReg (regGa 48 (sqOff m)) a).setReg (regGa 49 (sqOff m)) a).setReg (regGa 48 (cqOff m)) b
  (s.setReg (regGa 49 (cqOff m)) b).setMbox m { MboxSt.reset with ctx := ctx }

/-- RING_SETUP (R444, R445): for MBX0 while its rings are not configured. -/
def execRingSetup (p : Fin 2) (_h : CclHdr) (data : List Byte) (s : State) : Host.Outcome State Fault Refusal :=
  .next (
    let sq := field data 0 8
    let cq := field data 8 8
    let k := field data 16 1
    let v := field data 18 2
    if !s.on || !(s.cclActive p) then s
    else if s.ringsOn 0 ∨ data.length < 32 ∨ sq % 4096 ≠ 0 ∨ cq % 4096 ≠ 0 ∨ 2 ^ 52 ≤ sq ∨ 2 ^ 52 ≤ cq ∨ k < 4 ∨ 12 < k ∨
        1 < field data 17 1 ∨ 2047 < v ∨ 31 < field data 20 1 ∨ 127 < field data 21 1 ∨ field data 22 10 ≠ 0 then
      s.badDoorbell p 0
    else s.startRings 0 sq cq k (field data 17 1) v (field data 20 1) (field data 21 1) none)

/-- COMPLETION_INTERRUPT_TIMEOUT (R448): IMOD_T µs after the oldest completion not announced. -/
def execCompletionInterruptTimeout (mb : Fin 8) (s : State) : Host.Outcome State Fault Refusal :=
  .next (
    let b := s.mbox mb.val
    let t := s.regField (regGa 48 (cqOff mb.val)) 58 52
    if !s.on || decide (b.unann = 0 ∨ t = 0 ∨ s.ftc < b.oldest + 450 * t) then s else s.mbxAnnounce mb.val)

/-- IMPORT_WINDOW_WRITE (R441, R442). -/
def execImportWindowWrite (w : Fin 16) (a b : Word) (s : State) : Host.Outcome State Fault Refusal :=
  .next (if s.on then s.setImport w.val a b else s)

/-! ### Answers to the module's own requests -/

/-- A completion for a command that no row runs: an unknown CODE, or a slot that cannot be one (R491, Table
12.9; log entry 20). -/
def State.badCommand (s : State) (m : Fin 8) (bytes : List Byte) (rspAddr : BitVec 52) (status : Nat) : State :=
  let h : MbxHdr :=
    { major := 0, minor := 0, seq := BitVec.ofNat 16 (field bytes 4 2), seqGen := BitVec.ofNat 8 (field bytes 6 1), flags := 0,
      plen := 0, ctx := 0, mbx := 0, status := 0, state := 0, serial := 0, session := 0, counter := 0, owner := 0, reserved := 0 }
  let x := s.session m.val
  let c : MbxCmd := ⟨Fin.ofNat 9 m.val, h, [], [], rspAddr, 0, 0, 0, 0⟩
  if field bytes 6 1 ≠ x.gen then (s.mbxBump 0x108).complete c 0 9 [] []
  else if field bytes 4 2 ≠ x.seq then s.complete c 0 4 [] []
  else (s.setSession m.val { x with seq := (x.seq + 1) % 65536 }).complete c 0 status [] []

/-- Codes of Table 14.7. -/
def knownCode (n : Nat) : Bool :=
  [1, 2, 3, 4, 5, 0x10, 0x11, 0x12, 0x13, 0x14, 0x20, 0x21, 0x22, 0x23, 0x24, 0x30, 0x31, 0x40, 0x41, 0x50, 0x51, 0x52,
    0x53, 0x60, 0x61, 0x70, 0x71, 0x80, 0x81, 0x90, 0x91].contains n

/-- A slot fetched (R447, Table 12.9): its parity ends the fetch, or its command is fetched. -/
def State.slotHere (s : State) (m : Fin 8) (pos : Nat) (bs : List Byte) : State :=
  let b := s.mbox m.val
  let s := s.setMbox m.val { b with fetch := false }
  let n := s.ringLen m.val
  if pos ≠ b.sqHead ∨ field bs 31 1 % 2 ≠ lapParity n pos then s
  else
    let s := s.setMbox m.val { s.mbox m.val with sqHead := b.sqHead + 1 }
    let len := field bs 8 2
    let rsp := BitVec.ofNat 52 (field bs 16 8)
    if len < 64 ∨ 4160 < len ∨ field bs 0 8 % 64 ≠ 0 ∨ 4096 < field bs 10 2 ∨ field bs 16 8 % 64 ≠ 0 ∨ field bs 12 4 ≠ 0 ∨
        field bs 24 7 ≠ 0 ∨ 1 < field bs 31 1 then
      (s.badCommand m [] rsp 4).fetchNext m
    else (s.cclAsk (s.mbxPort m.val) (.command m pos rsp (field bs 10 2)) (BitVec.ofNat 52 (field bs 0 8)) len).fetchNext m

/-- A command fetched: it waits for its row, or an unknown one completes. -/
def State.commandHere (s : State) (m : Fin 8) (rspAddr : BitVec 52) (bs : List Byte) : State :=
  if knownCode (field bs 0 2) then s.setMbox m.val { s.mbox m.val with arrived := (s.mbox m.val).arrived ++ [bs] }
  else s.badCommand m bs rspAddr 2

/-- The next piece of a backing copy asked for (R220): up to 4,096 bytes from a place in it. -/
def State.backingAsk (s : State) (ctx : CtxId) (va count : Nat) (b : Backing) (pos : Nat) : State :=
  match b with
  | .companion a =>
    s.cclAsk (if s.cclActive 0 then 0 else 1) (.backing ctx va count b pos) (a + BitVec.ofNat 52 pos) 4096
  | .peer module base =>
    let key := ([0, 1].find? fun d => (s.dom d).loaded && decide ((s.dom d).ctx = ctx)).elim 0 fun d => (s.dom d).key.toNat
    s.newReq (.backing ctx va count b pos) module.toNat 1 ctx.val key (base.toNat + pos) 4096 0 0 false []

/-- Bytes of a page. -/
def Mapping.size (m : Mapping) : Nat := if m.big then 2 ^ 21 else 2 ^ 16

/-- The pages of a registration are backed (R220), each by its place in the copy, in every context that maps
them; a poisoned one may be reported anew (R224). -/
def State.backPages (s : State) (ctx : CtxId) (va n : Nat) (b : Backing) : State :=
  let mine := s.xl.maps.filter fun m => decide (m.ctx = ctx ∧ va ≤ m.va ∧ m.va < va + n)
  let gas := mine.map (·.ga)
  let copyOf (off : Nat) : Backing :=
    match b with
    | .companion a => .companion (a + BitVec.ofNat 52 off)
    | .peer p g => .peer p (g + BitVec.ofNat 40 off)
  { s with xl := { s.xl with
    maps := s.xl.maps.map fun m => if gas.contains m.ga then { m with backed := true } else m,
    backings := mine.foldl (fun l m => mapSet none l m.ga (some (copyOf (m.va - va)))) s.xl.backings,
    told := s.xl.told.filter fun e => !(gas.contains e.2) } }

/-- Bytes of a registration: its pages are all of the size of the first. -/
def State.backingLen (s : State) (ctx : CtxId) (va count : Nat) : Nat :=
  ((s.mappingOf ctx va).elim 0 fun m => m.size) * count

/-- Bytes of a backing copy compared with the page (R220): the next piece is asked for, the registration takes
effect, or the command completes with BAD_ARG. -/
def State.backingHere (s : State) (ctx : CtxId) (va count : Nat) (b : Backing) (pos status : Nat) (bs : List Byte)
    (poison : Bool) : State :=
  let n := s.backingLen ctx va count
  match s.mappingOf ctx (va + pos) with
  | none => s.settleLater (.backing ctx va) 4 []
  | some m =>
    let ga := m.ga + (va + pos - m.va)
    if status ≠ 0 ∨ poison ∨ !m.sro ∨ slice bs 0 4096 ≠ s.bytesAt ga 4096 then s.settleLater (.backing ctx va) 4 []
    else if pos + 4096 < n then s.backingAsk ctx va count b (pos + 4096)
    else (s.backPages ctx va n b).settleLater (.backing ctx va) 0 []

/-- What the answer to a request brings about; `none` when it must wait. -/
def State.answered (s : State) (r : OutReq) (status : Nat) (bs : List Byte) (poison : Bool) : Option State × State :=
  match r.who with
  | .heal die line =>
    (some (s.healAnswer die line (BitVec.ofNat 1024 (leNat (slice bs 0 128))) (poison || decide (status ≠ 0))), s)
  | .tmv t tag gen id => s.tmvAnswer t tag gen id status bs poison
  | .copy d =>
    let w := s.readyLines (s.copyLines d)
    if w.1 then (none, w.2)
    else
      let z := w.2.copyHere d status bs poison
      (some (z.1.elim z.2 fun st => z.2.settleLater (.copies d) st []), s)
  | .backing c va n b pos => (some (s.backingHere c va n b pos status bs poison), s)
  | .slot m pos => (some (if status = 0 then s.slotHere m pos bs else s.setMbox m.val { s.mbox m.val with fetch := false }), s)
  | .command m _ rsp _ => (some (if status = 0 then s.commandHere m rsp bs else s), s)
  | .head m => (some (if status = 0 then s.ringSpace m.val (field bs 0 8) else s), s)
  | .posted => (some s, s)

/-- An answer from the companion (R430): of no request outstanding under its tag and generation it is stale. -/
def State.cclAnswer (s : State) (p : Fin 2) (h : CclHdr) (data : List Byte) (cmd : Instr) : State :=
  if !s.on || !(s.cclActive p) then s
  else
    match s.fab.creqs.find? fun r => decide (r.tag = h.tag.toNat ∧ r.gen = h.tagGen.toNat) with
    | none => s.cclBump 0x328 1
    | some r =>
      let s' : State := { s with fab := { s.fab with creqs := s.fab.creqs.erase r } }
      let z := s'.answered r h.status.toNat data h.poison
      match z.1 with
      | some t => t
      | none => ({ z.2 with fab := { z.2.fab with creqs := s.fab.creqs } } : State).wait cmd

/-- RSP_D (Table 12.6). -/
def execRspD (p : Fin 2) (h : CclHdr) (data : List Byte) (s : State) : Host.Outcome State Fault Refusal :=
  .next (s.cclAnswer p h data (.rspD p h data))

/-- RSP_A (Table 12.6). -/
def execRspA (p : Fin 2) (h : CclHdr) (s : State) : Host.Outcome State Fault Refusal :=
  .next (s.cclAnswer p h [] (.rspA p h))

/-- REMOTE_RESPONSE (R368, R370): an answer from another module, dropped as stale when no request holds its tag
and generation; Table 8.18 names no counter for it (DEDUCED, log entry 53). -/
def execRemoteResponse (p : PortId) (h : PktHdr) (data : List Byte) (s : State) : Host.Outcome State Fault Refusal :=
  .next (
    if !s.on || decide (h.dst ≠ s.selfIndex ∨ h.op ≠ 5) then s
    else
      let t := s.takePacket p.val h
      match s.fab.reqs.find? fun r => decide (r.tag = h.tag.toNat ∧ r.gen = h.tagGen.toNat) with
      | none => t
      | some r =>
        let t' : State := { t with fab := { t.fab with reqs := t.fab.reqs.erase r } }
        let z := t'.answered r h.status.toNat data (h.flags.getLsbD 0)
        match z.1 with
        | some u => u
        | none => s.wait (.remoteResponse p h data))

end Sys2Proof.Machine
end

