-- ==== Sys2Proof/Machine/Session.lean ====
section
/-!
DEFINITION. Mailbox commands of sessions and of information: HELLO, GET_INFO, GET_STATE, CAPMAP_READ,
RING_RELEASE, ATTEST, GET_CERTS, COUNTERS_READ, TIME_STATUS and MASTER_SET (R475, R494 to R498, R513, R514,
R523).
-/

namespace Sys2Proof.Machine

/-! ### Payloads -/

/-- Whether a payload has its length (DEDUCED, log entry 25) and zero in its reserved ranges (R9, R485). -/
def payloadOk (l : List Byte) (n : Nat) (reserved : List (Nat × Nat)) : Bool :=
  decide (l.length = n) && reserved.all fun r => zeros l r.1 r.2

/-- A command that names no job. -/
def noJob (_ : State) : Option (Fin 2) := none

/-- A command that takes no payload. -/
def payloadNone (c : MbxCmd) : State → Bool := fun _ => !c.payload.isEmpty

/-- Whether a mailbox is a tenant's. -/
def tenantCmd (c : MbxCmd) : Bool := decide (c.mb ≠ 0 ∧ c.mb ≠ 8)

/-- Rows legal in every state that has a session. -/
def allLegal : List Bool := legalIn true true true true true true

/-! ### HELLO -/

/-- The highest major served in a range (R496). -/
def helloMajor (lo hi : Nat) : Option Nat :=
  if lo ≤ 2 ∧ 2 ≤ hi then some 2 else if lo ≤ 1 ∧ 1 ≤ hi then some 1 else none

/-- Minor served for a major (R496). -/
def minorOf (major : Nat) : Nat := if major = 1 then 7 else 1

/-- HELLO's own part (R487, R496, R497): the session that was open ends, and one opens on the major chosen. -/
def State.helloAct (s : State) (c : MbxCmd) : MbxAns × State :=
  let m := c.mb.val
  match helloMajor (field c.payload 0 1) (field c.payload 1 1) with
  | none => (.done 6 (leBytes 1 1 ++ leBytes 1 2) [], s.endSession m)
  | some j =>
    let gen := nextGen (s.session m).gen
    let s := s.setSession m ⟨true, j, gen, (c.hdr.seq.toNat + 1) % 65536⟩
    let s := if (m = 0 ∨ m = 8) ∧ s.modState = 3 then s.toState 4 else s
    (.done 0 (leBytes 1 j ++ leBytes 1 (minorOf j) ++ leBytes 1 gen) [], s)

/-- HELLO's row (Table 14.7). -/
def rowHello : MbxRow := ⟨0x01, true, true, true, true, allLegal, true⟩

/-- HELLO (R496) (DEDUCED, log entry 26). -/
def execHello (c : MbxCmd) (s : State) : Host.Outcome State Fault Refusal :=
  .next (s.mbxRun rowHello c (.hello c) noJob (fun _ => !(payloadOk c.payload 64 [(8, 56)])) fun s => s.helloAct c)

/-! ### GET_INFO and GET_STATE -/

/-- Flags of GET_INFO (Table 14.11, byte 19). -/
def State.infoFlags (s : State) : Nat :=
  s.regField (regGa 48 0x70000) 49 49 + 2 * s.regField (regGa 48 0x50000) 58 58 +
  4 * s.regField (regGa 48 0x60000) 63 63 + (if s.fw.shed.any (·.late) then 8 else 0)

/-- GET_INFO's payload (Table 14.11). -/
def State.infoBytes (s : State) (m : Nat) : List Byte :=
  leBytes 8 Config.serial.toNat ++ leBytes 4 ((s.fw.images.map (·.secVer)).getD 0) ++
  leBytes 4 (s.regField (regGa 48 0x70008) 31 0) ++ leBytes 1 (minorOf 1) ++ leBytes 1 (minorOf 2) ++
  leBytes 1 s.modState ++ leBytes 1 s.infoFlags ++ leBytes 2 s.selfIndex.toNat ++ leBytes 2 0 ++
  leBytes 8 (if m = 0 ∨ m = 8 then s.fw.mValue.toNat else 0) ++ leBytes 8 s.capVersion ++ leBytes 8 s.ftc

/-- GET_INFO's row (Table 14.7). -/
def rowGetInfo : MbxRow := ⟨0x02, true, true, true, false, allLegal, true⟩

/-- GET_INFO (R498). -/
def execGetInfo (c : MbxCmd) (s : State) : Host.Outcome State Fault Refusal :=
  .next (s.mbxRun rowGetInfo c (.getInfo c) noJob (payloadNone c) fun s => (.done 0 [] (s.infoBytes c.mb.val), s))

/-- Domains that a requester sees: a tenant its own context's (DEDUCED, log entry 25). -/
def State.seenDoms (s : State) (c : MbxCmd) : List (Fin 2) :=
  ([0, 1] : List (Fin 2)).filter fun d =>
    (s.dom d).started && (!tenantCmd c || decide ((s.dom d).ctx = s.mboxCtx c.mb.val))

/-- Whether a domain is held on step skew (R413, Table 9.5): by the master's decision, or with a layer of its
job in PHASE SKEW. -/
def State.skewHeld (s : State) (d : Fin 2) : Bool :=
  let x := s.dom d
  x.started && x.hold.active &&
  ((x.decided.any fun k => decide (k.outcome = .openHold 3)) ||
   (List.range 4).any fun fd => (List.range 128).any fun l =>
     decide (s.ld fd l 0 63 63 = 1 ∧ s.ldCtx fd l = x.ctx ∧ s.ldPhase fd l = 6))

/-- GET_STATE's answer (Table 14.9): the module state, then DOM_ID, STATE and FAB_HOLD_STATUS of each started
domain. -/
def State.stateAct (s : State) (c : MbxCmd) : MbxAns × State :=
  let ds := s.seenDoms c
  let bytes := ds.flatMap fun d =>
    leBytes 1 (s.regField (domReg d.val 0) 63 56) ++ leBytes 1 (s.regField (domReg d.val 0) 55 54) ++
    leBytes 8 (s.reg (domReg d.val 16)).toNat
  (.done (if ds.any s.skewHeld then 0x0A else 0) (leBytes 1 s.modState) bytes, s)

/-- GET_STATE's row (Table 14.7). -/
def rowGetState : MbxRow := ⟨0x03, true, true, true, false, allLegal, false⟩

/-- GET_STATE (Table 14.9). -/
def execGetState (c : MbxCmd) (s : State) : Host.Outcome State Fault Refusal :=
  .next (s.mbxRun rowGetState c (.getState c) noJob (payloadNone c) fun s => s.stateAct c)

/-! ### The capability map -/

/-- Whether a die is powered: a fabric die is not once it has tripped (R549). -/
def State.fabricUp (s : State) (fd : Nat) : Bool := !(s.fdTripped fd)

/-- The policy cap in force, in W: PWR_CAP.CAP (R540). -/
def State.capNow (s : State) : Nat := s.regField (regGa 48 0x130008) 15 0

/-- Dies that hold the store of field-test packages (R589). -/
def storeDies : List Nat := [0, 5, 42, 47]

/-- MiB of die SRAM held for field-test packages (R589): 64 on each of the four dies that is not fenced. -/
def State.pkgMib (s : State) : Nat := 64 * (storeDies.filter fun d => !(s.dieFenced d)).length

/-- A tile's entry (Table 14.22). -/
def State.capTile (s : State) (t : TileId) : List Byte :=
  let w := s.viewCap t
  let d := tileDie t
  leBytes 1 (bits w 63 56) ++ leBytes 1 (bits w 7 0) ++
  leBytes 1 (bits w 33 33 + 2 * bits w 32 32 + (if s.dieFenced d then 4 else 0) + (if (s.die d).tripped then 8 else 0)) ++
  leBytes 1 (bits w 47 44) ++ leBytes 7 (bits (s.viewFence t) 55 0) ++ leBytes 5 0

/-- A torus port's entry (Table 14.23); the partner is known while the link is trained. -/
def State.capPort (s : State) (p : Nat) : List Byte :=
  let a := linkReg p 8
  let known := decide (3 ≤ s.linkState p ∧ s.linkState p ≤ 5)
  leBytes 1 (s.linkState p) ++ leBytes 1 (s.regField a 59 59) ++ leBytes 1 (s.regField a 58 52) ++
  leBytes 1 (s.regField a 51 45) ++ leBytes 2 (if known then s.regField a 36 25 else 0xFFFF) ++
  leBytes 1 (if known then s.regField a 24 22 else 0) ++ leBytes 1 0

/-- A companion-link port's entry (Table 14.23). -/
def State.capCcl (s : State) (p : Nat) : List Byte :=
  let a := linkReg (8 + p) 8
  let w := match s.regField a 58 57 with | 0 => 0 | 3 => 16 | _ => 8
  leBytes 1 (s.linkState (8 + p)) ++ leBytes 1 (s.regField a 59 59) ++ leBytes 1 w ++ leBytes 1 w ++ leBytes 4 0

/-- A set of numbers below n as bits. -/
def bitsOf (n : Nat) (p : Nat → Bool) : Nat := (List.range n).foldl (fun v k => if p k then v + 2 ^ k else v) 0

/-- The capability map's header (Table 14.21). -/
def State.capHeader (s : State) : List Byte :=
  let tiles := (List.range 576).filter fun t => !(s.tileOut (tileOf t))
  let arrays := tiles.filter fun t => !(s.arrayFenced (tileOf t))
  leBytes 4 1 ++ leBytes 4 9360 ++ leBytes 8 s.capVersion ++ leBytes 8 Config.serial.toNat ++
  leBytes 2 s.selfIndex.toNat ++ leBytes 2 tiles.length ++ leBytes 2 arrays.length ++ leBytes 2 0 ++
  leBytes 6 (bitsOf 48 fun d => !(s.dieFenced d)) ++ leBytes 1 (bitsOf 4 s.fabricUp) ++
  leBytes 1 (bitsOf 8 fun p => !(s.portUnusable p)) ++ leBytes 1 (bitsOf 2 fun p => decide (s.linkState (8 + p) = 4)) ++
  leBytes 3 0 ++ leBytes 4 ((s.fw.images.map (·.pcapMax)).getD 0) ++ leBytes 4 s.capNow ++ leBytes 2 s.pkgMib ++
  leBytes 10 0

/-- The capability map (R514). -/
def State.capMap (s : State) : List Byte :=
  s.capHeader ++ ((List.range 576).flatMap fun t => s.capTile (tileOf t)) ++ ((List.range 8).flatMap s.capPort) ++
  (List.range 2).flatMap s.capCcl

/-- CAPMAP_READ's answer (R514). -/
def State.capmapAct (s : State) (c : MbxCmd) : MbxAns × State :=
  (.done 0 (leBytes 8 s.capVersion ++ leBytes 4 9360)
    ((s.capMap.drop (field c.payload 0 4)).take (field c.payload 4 4)), s)

/-- CAPMAP_READ's payload out of order (R514). -/
def capmapBad (c : MbxCmd) : Bool :=
  !(payloadOk c.payload 64 [(8, 56)]) || decide (field c.payload 4 4 = 0 ∨ 4096 < field c.payload 4 4)

/-- CAPMAP_READ's row (Table 14.7). -/
def rowCapmapRead : MbxRow := ⟨0x05, true, true, true, false, allLegal, false⟩

/-- CAPMAP_READ (R514). -/
def execCapmapRead (c : MbxCmd) (s : State) : Host.Outcome State Fault Refusal :=
  .next (s.mbxRun rowCapmapRead c (.capmapRead c) noJob (fun _ => capmapBad c) fun s => s.capmapAct c)

/-! ### RING_RELEASE -/

/-- Rings of a mailbox turned off. -/
def State.ringsOff (s : State) (m : Nat) : State := s.setBoth (sqOff m) 63 63 0

/-- RING_RELEASE's own part (Table 14.9): the session ends, the completion is written, then the rings are
released. It waits while the completion ring has no room (DEDUCED, log entry 56). -/
def State.releaseAct (s : State) (c : MbxCmd) : MbxAns × State :=
  let m := c.mb.val
  if !((s.mbox m).held.isEmpty && s.doneRoom m) then (.wait, s)
  else (.said, ((s.endSession m).complete c 4 0 [] []).ringsOff m)

/-- RING_RELEASE's row (Table 14.7). -/
def rowRingRelease : MbxRow := ⟨0x04, true, true, false, false, allLegal, false⟩

/-- RING_RELEASE (R497, Table 14.9). -/
def execRingRelease (c : MbxCmd) (s : State) : Host.Outcome State Fault Refusal :=
  .next (s.mbxRun rowRingRelease c (.ringRelease c) noJob (payloadNone c) fun s => s.releaseAct c)

/-! ### ATTEST and GET_CERTS -/

/-- The attestation report (Table 13.11), without its signature. -/
def State.report (s : State) (c : MbxCmd) : List Byte :=
  let im := s.fw.images
  let job := if tenantCmd c then (s.slotOf (s.mboxCtx c.mb.val)).map fun d => (mapGet JobInfo.reset s.fw.jobs d.val).digest
    else none
  leBytes 4 1 ++ leBytes 4 ((im.map (·.secVer)).getD 0) ++ leBytes 8 Config.serial.toNat ++
  leBytes 4 (s.regField (regGa 48 0x70008) 31 0) ++ leBytes 1 s.modState ++ leBytes 1 (s.mboxCtx c.mb.val).val ++
  leBytes 1 (s.regField (regGa 48 0x70000) 49 49 + 2 * s.regField (regGa 48 0x50000) 59 59 +
    (if s.fences.isEmpty then 0 else 4)) ++
  leBytes 1 (((im.map (·.owners)).getD []).foldl (fun n o => n ||| 2 ^ o.slot) 0) ++ leBytes 8 s.ftc ++
  slice c.payload 0 64 ++
  ((List.range 8).flatMap fun n => leBytes 8 (s.reg (regGa 48 (0x70040 + 8 * n))).toNat) ++
  leBytes 64 ((im.map (·.digest.toNat)).getD 0) ++ leBytes 64 (Config.sha512 s.capMap).toNat ++
  leBytes 64 ((job.map (·.toNat)).getD 0) ++ slice c.payload 64 64 ++ leBytes 96 0

/-- ATTEST's answer (R471, R475); during a shed it waits for the switch (R510). -/
def State.attestAct (s : State) (c : MbxCmd) : MbxAns × State :=
  if s.fw.shed.any (!·.late) then (.wait, s)
  else if s.regField (regGa 48 0x60000) 63 63 = 0 then (.done 0x0B [] [], s)
  else (.done 0 [] (s.report c ++ slice (Config.deviceSign (s.report c)) 0 132), s)

/-- ATTEST's row (Table 14.7). -/
def rowAttest : MbxRow := ⟨0x70, true, true, true, false, allLegal, false⟩

/-- ATTEST (R475). -/
def execAttest (c : MbxCmd) (s : State) : Host.Outcome State Fault Refusal :=
  .next (s.mbxRun rowAttest c (.attest c) noJob (fun _ => decide (c.payload.length ≠ 64 ∧ c.payload.length ≠ 128))
    fun s => s.attestAct c)

/-- GET_CERTS' row (Table 14.7). -/
def rowGetCerts : MbxRow := ⟨0x71, true, true, true, false, allLegal, false⟩

/-- GET_CERTS (R470). -/
def execGetCerts (c : MbxCmd) (s : State) : Host.Outcome State Fault Refusal :=
  .next (s.mbxRun rowGetCerts c (.getCerts c) noJob (payloadNone c) fun s => (.done 0 [] Config.certs, s))

/-! ### COUNTERS_READ -/

/-- GAs that COUNTERS_READ names (Table 14.9). -/
def counterGas (c : MbxCmd) : List Nat := (List.range (field c.payload 0 2)).map fun i => field c.payload (8 + 8 * i) 8

/-- Whether a loaded job of a context holds a tile (R200): it has a stream there, or planned work. -/
def State.ownsTile (s : State) (ctx : CtxId) (t : Nat) : Bool :=
  ([0, 1] : List (Fin 2)).any fun d =>
    (s.dom d).loaded && decide ((s.dom d).ctx = ctx) &&
    ((mapGet none (s.dom d).firsts t).isSome || decide ((mapGet (⟨0, 0, 0⟩ : PlanEnt) (s.dom d).plan t).clock ≠ 0))

/-- Whether a register lies in the control block of a tile that a context holds. -/
def State.ownRegister (s : State) (ctx : CtxId) (ga : Nat) : Bool :=
  decide (gaDie ga < 48 ∧ gaOff ga < 0xC0000) && s.ownsTile ctx (gaDie ga * 12 + gaOff ga / 2 ^ 16)

/-- COUNTERS_READ's payload out of order: its count and length, or a GA that names no register. -/
def countersBad (c : MbxCmd) : Bool :=
  let n := field c.payload 0 2
  decide (n = 0 ∨ 511 < n ∨ c.payload.length ≠ 8 + 8 * n) || !(zeros c.payload 2 6) ||
  (counterGas c).any fun ga => decide (2 ^ 40 ≤ ga ∨ gaRegion ga ≠ 4 ∨ ga % 8 ≠ 0) || (regSpecAt ga).isNone

/-- COUNTERS_READ's answer (R258, Table 14.9). -/
def State.countersAct (s : State) (c : MbxCmd) : MbxAns × State :=
  if tenantCmd c && !((counterGas c).all fun ga => s.ownRegister (s.mboxCtx c.mb.val) ga) then (.done 5 [] [], s)
  else (.done 0 [] ((counterGas c).flatMap fun ga => leBytes 8 (s.regLoad ga).toNat), s)

/-- COUNTERS_READ's row (Table 14.7). -/
def rowCountersRead : MbxRow := ⟨0x81, true, true, true, false, allLegal, false⟩

/-- COUNTERS_READ (Table 14.9). -/
def execCountersRead (c : MbxCmd) (s : State) : Host.Outcome State Fault Refusal :=
  .next (s.mbxRun rowCountersRead c (.countersRead c) noJob (fun _ => countersBad c) fun s => s.countersAct c)

/-! ### Time -/

/-- TIME_STATUS' answer (Table 14.9): FAB_TIME_STATUS, the FTC and the estimate of skew; on the master the
reference value. -/
def State.timeAct (s : State) : MbxAns × State :=
  let v := s.reg (regGa 48 0x8010)
  (.done 0 (leBytes 8 v.toNat ++ leBytes 8 s.ftc ++ leBytes 4 (toTwos 32 (ofTwos 16 (bits v 15 0))))
    (if s.isMaster then leBytes 8 s.time.reference else []), s)

/-- TIME_STATUS' row (Table 14.7). -/
def rowTimeStatus : MbxRow := ⟨0x91, true, true, true, false, allLegal, false⟩

/-- TIME_STATUS (R303, Table 14.9). -/
def execTimeStatus (c : MbxCmd) (s : State) : Host.Outcome State Fault Refusal :=
  .next (s.mbxRun rowTimeStatus c (.timeStatus c) noJob (payloadNone c) fun s => s.timeAct)

/-- Whether an index names coordinates inside sizes (R21). -/
def insideTorus (i nx ny nz : Nat) : Bool := decide (i < 4096 ∧ coord i 0 < nx ∧ coord i 1 < ny ∧ coord i 2 < nz)

/-- MASTER_SET's payload out of order (R523). -/
def State.masterBad (s : State) (c : MbxCmd) : Bool :=
  let p := c.payload
  let m := field p 0 2
  let d := field p 2 2
  let nx := field p 4 1
  let ny := field p 5 1
  let nz := field p 6 1
  !(payloadOk p 64 [(7, 1), (16, 48)]) ||
  decide (nx = 0 ∨ 16 < nx ∨ ny = 0 ∨ 16 < ny ∨ nz = 0 ∨ 16 < nz ∨ (d = m ∧ nx * ny * nz ≠ 1)) ||
  !(insideTorus m nx ny nz && insideTorus d nx ny nz) || decide (m = s.selfIndex.toNat ∧ s.svc.mstrSel = false)

/-- MASTER_SET's own part (R303, R308, R384, R523): roles and sizes are recorded; the master awaits its next
edge. -/
def State.masterAct (s : State) (c : MbxCmd) : MbxAns × State :=
  let p := c.payload
  let m := field p 0 2
  let d := field p 2 2
  let self := s.selfIndex.toNat
  let role := if self = m then 1 else if self = d then 2 else 0
  let s := ((s.setTime 63 62 role).setTime 39 28 m).setTime 27 16 d
  let s := (List.range 4).foldl (fun s f =>
    let a := regGa (48 + f) 0x2000
    ((s.setField a 59 55 (field p 4 1)).setField a 54 50 (field p 5 1)).setField a 49 45 (field p 6 1)) s
  let s : State := { s with time := { s.time with ppsNext := if role = 1 then some (field p 8 8) else none,
                                                  masterAt := s.ftc } }
  (.done 0 [] [], if role = 1 ∧ s.timeField 53 52 ≠ 2 then s.setTime 53 52 1 else s)

/-- MASTER_SET's row (Table 14.7). -/
def rowMasterSet : MbxRow := ⟨0x90, true, false, true, true, legalIn true false false false false false, false⟩

/-- MASTER_SET (R523). -/
def execMasterSet (c : MbxCmd) (s : State) : Host.Outcome State Fault Refusal :=
  .next (s.mbxRun rowMasterSet c (.masterSet c) noJob (fun s => s.masterBad c) fun s => s.masterAct c)

end Sys2Proof.Machine
end

