-- ==== Sys2Proof/Machine/Contexts.lean ====
section
/-!
DEFINITION. Contexts and translations: CTX_CREATE, CTX_DESTROY, MAP, UNMAP and REGISTER_BACKING (R195 to R203,
R220, R476, R477, R495, R515 to R517).
-/

namespace Sys2Proof.Machine

/-! ### The translation store -/

/-- Bytes of the translation store that a context's tables take (R196). -/
def tableBytes (maps : List Mapping) (c : CtxId) : Nat :=
  let mine := maps.filter fun m => decide (m.ctx = c)
  let count (l : List Mapping) (sh : Nat) : Nat := ((l.map fun m => m.va / 2 ^ sh).dedup).length
  4096 + 4096 * (count mine 39 + count mine 30) + 256 * count (mine.filter fun m => !m.big) 21

/-- Bytes of the store charged with given mappings (R196). -/
def State.storeUsed (s : State) (maps : List Mapping) : Nat :=
  s.xl.ctxs.foldl (fun n e => n + tableBytes maps (Fin.ofNat 64 e.1)) 4096

/-- Size of the store. -/
def storeSize : Nat := 8 * 2 ^ 20

/-! ### Changing mappings -/

/-- Whether two ranges share a byte. -/
def meets (a n b m : Nat) : Bool := decide (a < b + m ∧ b < a + n)

/-- NCE of every mapping (R200): the page is SRO, or nobody maps a part of it with W = 1. -/
def nceTidy (maps : List Mapping) : List Mapping :=
  maps.map fun m =>
    { m with nce := m.sro || !(maps.any fun o => o.w && meets m.ga m.size o.ga o.size) }

/-- A page that a translation-cache entry names, in a list of mappings. -/
def tlbPage (maps : List Mapping) (e : TlbEnt) : Option Mapping :=
  maps.find? fun m => decide (m.ctx = e.ctx ∧ m.big = e.big ∧ m.va = e.page)

/-- The mappings replaced (R200, R203): cache entries that the change affects are dropped, and near-cache lines
that no mapping lets be held any more. -/
def State.setMaps (s : State) (maps : List Mapping) : State :=
  let maps := nceTidy maps
  let old := s.xl.maps
  let s' : State := { s with xl := { s.xl with
    maps := maps, backings := s.xl.backings.filter fun e => maps.any fun m => m.backed && decide (m.ga = e.1) } }
  s.tiles.foldl (fun s e =>
    let t := tileOf e.1
    let x := s.tile t
    let keep (l : NcLine) : Bool :=
      match l.key with
      | .ga line => s'.nceLine (line * 128)
      | .window _ _ => true
    let nc := x.nc.map fun e => (e.1, e.2.filter keep)
    s.setTile t { x with tlb := x.tlb.filter fun e => decide (tlbPage maps e = tlbPage old e)
                         nc := nc.filter fun e => decide (e.2 ≠ []) }) s'

/-! ### Clearing between owners (R477) -/

/-- The 64 KiB units of a range. -/
def unitsOf (ga n : Nat) : List Nat := (List.range ((ga + n + 65535) / 65536 - ga / 65536)).map fun k => ga / 65536 + k

/-- Units of a range that another context has mapped before. -/
def State.foreignUnits (s : State) (ctx : CtxId) (ga n : Nat) : List Nat :=
  (unitsOf ga n).filter fun u =>
    let o := mapGet 0 s.fw.pageOf u
    decide (o ≠ 0 ∧ o ≠ ctx.val + 1)

/-- Lines that clearing a range writes. -/
def State.zeroLines (s : State) (ctx : CtxId) (ga n : Nat) : List (Nat × Bool) :=
  (s.foreignUnits ctx ga n).flatMap fun u => if homed (u * 65536) then readyList (u * 65536) 65536 true else []

/-- A range passes to a context: units that another one has mapped are cleared first (DEDUCED, log entry 27). -/
def State.giveRange (s : State) (ctx : CtxId) (ga n : Nat) : State :=
  let s := (s.foreignUnits ctx ga n).foldl (fun s u => s.zeroUnit u) s
  { s with fw := { s.fw with
    pageOf := (unitsOf ga n).foldl (fun m u => mapSet 0 m u (ctx.val + 1)) s.fw.pageOf } }

/-! ### CTX_CREATE and CTX_DESTROY -/

/-- CTX_CREATE's payload out of order (R515). -/
def ctxCreateBad (c : MbxCmd) : Bool :=
  let p := c.payload
  !(payloadOk p 64 [(24, 40)]) || decide (1 < field p 0 1 ∨ 7 < field p 1 1) ||
  (if field p 1 1 = 0 then !(zeros p 2 22)
   else decide (field p 2 1 < 4 ∨ 12 < field p 2 1 ∨ 1 < field p 3 1 ∨ 2047 < field p 4 2 ∨ 31 < field p 6 1 ∨
     127 < field p 7 1 ∨ field p 8 8 % 4096 ≠ 0 ∨ 2 ^ 52 ≤ field p 8 8 ∨ field p 16 8 % 4096 ≠ 0 ∨ 2 ^ 52 ≤ field p 16 8))

/-- A 256-bit value drawn (R476). -/
def State.drawKey (s : State) : BitVec 256 × State :=
  let a := s.free
  let b := a.2.free
  let c := b.2.free
  let d := c.2.free
  (a.1 ++ b.1 ++ c.1 ++ d.1, d.2)

/-- CTX_CREATE's own part (R196, R476, R515): the new context's number is one not in use, which the spec does
not choose (DESIGN CHOICE, log entry 35). -/
def State.createAct (s : State) (c : MbxCmd) : MbxAns × State :=
  let p := c.payload
  let m := field p 1 1
  let unused := (List.range 64).filter fun k => (mapGet none s.xl.ctxs k).isNone
  let tenants := (s.xl.ctxs.filter fun e => decide (e.1 ≠ 0)).length
  if unused = [] ∨ (s.fw.images.map (·.contexts)).getD 0 ≤ tenants ∨ storeSize < s.storeUsed s.xl.maps + 4096 then
    (.done 5 [] [], s)
  else if m ≠ 0 ∧ (s.mbox m).ctx.isSome then (.done 1 [] [], s)
  else
    let z := s.free
    let k := unused.getD (z.1.toNat % unused.length) 0
    let q := z.2.drawKey
    let s := q.2
    let s : State := { s with xl := { s.xl with
      ctxs := mapSet none s.xl.ctxs k (some ⟨decide (field p 0 1 = 1), q.1⟩) } }
    let s := if m = 0 then s
      else s.startRings m (field p 8 8) (field p 16 8) (field p 2 1) (field p 3 1) (field p 4 2) (field p 6 1) (field p 7 1)
        (some (Fin.ofNat 64 k))
    (.done 0 (leBytes 1 k) (leBytes 32 q.1.toNat), s)

/-- CTX_CREATE's row (Table 14.7). -/
def rowCtxCreate : MbxRow := ⟨0x10, true, false, false, false, legalIn true true true false true false, false⟩

/-- CTX_CREATE (R515). -/
def execCtxCreate (c : MbxCmd) (s : State) : Host.Outcome State Fault Refusal :=
  .next (s.mbxRun rowCtxCreate c (.ctxCreate c) noJob (fun _ => ctxCreateBad c) fun s => s.createAct c)

/-- A mailbox unbound with its context (R494, R497): its session ends, its rings and its event ring go. -/
def State.unbindMbox (s : State) (m : Nat) : State :=
  let s := ((s.endSession m).ringsOff m).setMbox m MboxSt.reset
  { s with evt := { s.evt with rings := mapSet none s.evt.rings m none } }

/-- A context's storage and tables given up (R277, R476, R477): its sync words are zeroed, its near-cache lines
dropped, and what it had mapped counts as another's from now on. -/
def State.dropCtx (s : State) (c : CtxId) : State :=
  let mine := s.xl.maps.filter fun m => decide (m.ctx = c)
  let words := (s.sync.map (·.1)).filter fun a => mine.any fun m => decide (m.ga ≤ a ∧ a < m.ga + m.size)
  let s := words.foldl (fun s a => s.syncZero a) s
  let s := s.tiles.foldl (fun s e =>
    let t := tileOf e.1
    let x := s.tile t
    let own (l : NcLine) : Bool :=
      match l.key with
      | .ga line => mine.any fun m => decide (m.ga ≤ line * 128 ∧ line * 128 < m.ga + m.size)
      | .window w _ => decide (s.regField (regGa 48 (0x30100 + 16 * w.val)) 57 52 = c.val)
    let nc := x.nc.map fun e => (e.1, e.2.filter fun l => !(own l))
    s.setTile t { x with nc := nc.filter fun e => decide (e.2 ≠ []) }) s
  let s := s.setMaps (s.xl.maps.filter fun m => decide (m.ctx ≠ c))
  let gone (m : SMap Nat) : SMap Nat := m.map fun e => if e.2 = c.val + 1 then (e.1, 65) else e
  { s with
    xl := { s.xl with ctxs := mapSet none s.xl.ctxs c.val none, told := s.xl.told.filter fun e => decide (e.1 ≠ c) },
    fw := { s.fw with grants := s.fw.grants.filter fun g => decide (g.1 ≠ c), tols := mapSet none s.fw.tols c.val none,
                      pageOf := gone s.fw.pageOf, tileOf := gone s.fw.tileOf } }

/-- CTX_DESTROY's own part (Table 14.9). -/
def State.destroyAct (s : State) (c : MbxCmd) : MbxAns × State :=
  let k : CtxId := Fin.ofNat 64 (field c.payload 0 1)
  if (s.slotOf k).isSome then (.done 1 [] [], s)
  else
    let ms := (List.range 8).filter fun m => decide (m ≠ 0 ∧ (s.mbox m).ctx = some k)
    (.done 0 [] [], (ms.foldl (fun s m => s.unbindMbox m) s).dropCtx k)

/-- CTX_DESTROY's payload out of order: context 0 cannot be destroyed, nor one that does not exist (DEDUCED, log entry 36). -/
def State.destroyBad (s : State) (c : MbxCmd) : Bool :=
  let k := field c.payload 0 1
  !(payloadOk c.payload 64 [(1, 63)]) || decide (k = 0 ∨ 63 < k) || (mapGet none s.xl.ctxs k).isNone

/-- CTX_DESTROY's row (Table 14.7). -/
def rowCtxDestroy : MbxRow := ⟨0x11, true, false, false, false, legalIn true true true true true false, false⟩

/-- CTX_DESTROY (R196, R477, R494). -/
def execCtxDestroy (c : MbxCmd) (s : State) : Host.Outcome State Fault Refusal :=
  .next (s.mbxRun rowCtxDestroy c (.ctxDestroy c) noJob (fun s => s.destroyBad c) fun s => s.destroyAct c)

/-! ### MAP and UNMAP -/

/-- Fields of Table 14.25. -/
structure MapArgs where
  kind   : Nat
  ctx    : Nat
  attr   : Nat
  index  : Nat
  count  : Nat
  va     : Nat
  target : Nat
  size   : Nat
  vector : Nat
  gen    : Nat
  deriving DecidableEq, Repr

/-- The fields of a payload. -/
def mapArgs (p : List Byte) : MapArgs :=
  ⟨field p 0 1, field p 1 1, field p 2 1, field p 3 1, field p 4 4, field p 8 8, field p 16 8, field p 24 8, field p 32 2,
    field p 34 1⟩

/-- The context named. -/
def MapArgs.cid (a : MapArgs) : CtxId := Fin.ofNat 64 a.ctx

/-- Page size of a device-page command, and its bytes. -/
def MapArgs.big (a : MapArgs) : Bool := decide (a.attr / 64 % 2 = 1)
def MapArgs.page (a : MapArgs) : Nat := if a.big then 2 ^ 21 else 2 ^ 16
def MapArgs.bytes (a : MapArgs) : Nat := a.count * a.page

/-- Whether the fields that a kind does not use are zero, and those it uses in range (Table 14.25); UNMAP
ignores the attributes but for the page size. -/
def MapArgs.fieldsOk (a : MapArgs) (un : Bool) : Bool :=
  let attrMax := match a.kind with | 0 => 127 | 1 => 3 | 2 => 3 | _ => 0
  decide (a.kind ≤ 3 ∧ a.ctx < 64 ∧ (un ∨ a.attr ≤ attrMax) ∧
    (if a.kind = 1 ∨ a.kind = 2 then a.index ≤ 15 ∧ a.count = 1 else a.index = 0 ∧ 1 ≤ a.count) ∧
    (a.kind = 0 ∨ a.va = 0) ∧ (if a.kind = 2 then a.size % 4096 = 0 ∧ a.size < 2 ^ 40 else a.size = 0) ∧
    (if a.kind = 1 then a.vector < 2048 ∧ (un ∨ a.gen ≠ 0) else a.vector = 0 ∧ a.gen = 0))

/-- Whether addresses are aligned and in range (R184, R516); an SRO page has R = 1, W = 0 and X = 0 (Table 6.9). -/
def MapArgs.addrsOk (a : MapArgs) (un : Bool) : Bool :=
  let t := a.target
  match a.kind with
  | 0 => decide (a.va % a.page = 0 ∧ t % a.page = 0 ∧ a.va + a.bytes ≤ 2 ^ 48 ∧ t + a.bytes ≤ 2 ^ 40) &&
      (un || ((unitsOf t a.bytes).all fun u =>
          decide (gaRegion (u * 65536) ≤ 4 ∧ (gaDie (u * 65536) < 52 ∨ gaDie (u * 65536) = 63))) &&
        decide (a.attr / 8 % 2 = 0 ∨ a.attr % 8 = 1))
  | 1 => decide (t % 8 = 0 ∧ t < 2 ^ 52)
  | 2 => decide (t % 4096 = 0 ∧ t + a.size ≤ 2 ^ 52)
  | _ => decide (t % 65536 = 0 ∧ t + a.count * 65536 ≤ 2 ^ 40)

/-- Whether a VA of the range lies in, or contains, a page of the other size (R516). -/
def State.otherSize (s : State) (a : MapArgs) : Bool :=
  s.xl.maps.any fun m => decide (m.ctx = a.cid ∧ m.big ≠ a.big) && meets m.va m.size a.va a.bytes

/-- A MAP's or UNMAP's payload out of order. -/
def State.mapBad (s : State) (c : MbxCmd) (un : Bool) : Bool :=
  let a := mapArgs c.payload
  !(payloadOk c.payload 64 [(35, 29)]) || !(a.fieldsOk un && a.addrsOk un) || (mapGet none s.xl.ctxs a.ctx).isNone ||
  (decide (a.kind = 0) && s.otherSize a)

/-- Whether a range lies wholly inside the ranges granted to a context (R516). -/
def State.granted (s : State) (c : CtxId) (ga n : Nat) : Bool :=
  (unitsOf ga n).all fun u => s.fw.grants.any fun g => decide (g.1 = c ∧ g.2.1 ≤ u * 65536 ∧ (u + 1) * 65536 ≤ g.2.1 + g.2.2)

/-- Whether a range reaches the store of field-test packages (R589): the top 64 MiB of the die SRAM of four
dies. -/
def inStore (ga n : Nat) : Bool :=
  storeDies.any fun d => meets ga n (d * 2 ^ 34 + 2 ^ 30 + 144 * 2 ^ 20) (64 * 2 ^ 20)

/-- Whether a tenant may have a range mapped (R200): no DIE = 63, and of region 4 the control blocks of tiles
that its job holds alone. -/
def State.tenantRange (s : State) (c : CtxId) (ga n : Nat) : Bool :=
  !(inStore ga n) && (unitsOf ga n).all fun u =>
    let g := u * 65536
    decide (gaDie g ≠ 63) && (decide (gaRegion g ≠ 4) || s.ownRegister c g)

/-- The pages that a device-page MAP makes, without BACKED and NCE. -/
def MapArgs.pages (a : MapArgs) : List Mapping :=
  let bit (k : Nat) : Bool := decide (a.attr / 2 ^ k % 2 = 1)
  (List.range a.count).map fun i =>
    { ctx := a.cid, va := a.va + i * a.page, big := a.big, ga := a.target + i * a.page, r := bit 0, w := bit 1, x := bit 2,
      sro := bit 3, pf := bit 4, dar := bit 5, backed := false, nce := false }

/-- The mappings after a device-page command: a page of the same size at a VA of the range is replaced or
removed. -/
def State.mapsAfter (s : State) (a : MapArgs) (un : Bool) : List Mapping :=
  let rest := s.xl.maps.filter fun m => !(decide (m.ctx = a.cid) && meets m.va m.size a.va a.bytes)
  if un then rest else rest ++ a.pages

/-- Whether SRO agrees in every context that maps a part of a page (R200). -/
def sroAgrees (maps : List Mapping) (l : List Mapping) : Bool :=
  l.all fun p => maps.all fun m => decide (m.sro = p.sro) || !(meets m.ga m.size p.ga p.size)

/-- Whether a device-page command is refused with DENIED (R200, R516, R589). -/
def State.pageDenied (s : State) (c : MbxCmd) (a : MapArgs) (un : Bool) : Bool :=
  (tenantCmd c && !(decide (gaRegion a.target = 4) || s.granted a.cid a.target a.bytes)) ||
  (!un && decide (a.cid ≠ 0) && !(s.tenantRange a.cid a.target a.bytes)) ||
  (!un && !(sroAgrees (s.mapsAfter a false) a.pages)) ||
  (!un && decide (storeSize < s.storeUsed (s.mapsAfter a false)))

/-- Whether a loaded job of the context names a translation of the range, in a started domain that is not held
(R495): the words at which its streams begin. -/
def State.rangeBusy (s : State) (a : MapArgs) : Bool :=
  ([0, 1] : List (Fin 2)).any fun d =>
    let x := s.dom d
    x.started && decide (x.ctx = a.cid) && !x.hold.active &&
    x.firsts.any fun e => e.2.any fun w => decide (a.va ≤ w.toNat ∧ w.toNat < a.va + a.bytes)

/-- A device-page MAP or UNMAP (R200, R203, R477, R495, R516). It waits for the companion's copies of lines that
it clears. -/
def State.mapPages (s : State) (c : MbxCmd) (a : MapArgs) (un : Bool) : MbxAns × State :=
  if s.pageDenied c a un then (.done 5 [] [], s)
  else if s.rangeBusy a then (.done 1 [] [], s)
  else if un then (.done 0 [] [], s.setMaps (s.mapsAfter a true))
  else
    let w := s.readyLines (s.zeroLines a.cid a.target a.bytes)
    if w.1 then (.wait, w.2)
    else
      let s := w.2.giveRange a.cid a.target a.bytes
      (.done 0 [] [], s.setMaps (s.mapsAfter a false))

/-- A companion signal target written or given up (R279, R516). -/
def State.mapSignal (s : State) (a : MapArgs) (un : Bool) : State :=
  let r := regGa 48 (0x114000 + 0x10 * (a.ctx * 16 + a.index))
  if un then s.setField r 63 63 0
  else
    let w := putBits (putBits (putBits (putBits 0 63 63 1) 62 62 (a.attr % 2)) 61 61 (a.attr / 2 % 2)) 51 3 (a.target / 8)
    (s.setReg r w).setReg (r + 8) (putBits (putBits 0 63 56 a.gen) 10 0 a.vector)

/-- An import window written or given up (R441, R516): of another context only its own window is removed. -/
def State.mapWindow (s : State) (c : MbxCmd) (a : MapArgs) (un : Bool) : MbxAns × State :=
  let r := s.reg (regGa 48 (0x30100 + 16 * a.index))
  let other := decide (bits r 63 63 = 1 ∧ bits r 57 52 ≠ a.ctx)
  if tenantCmd c && other then (.done 5 [] [], s)
  else if un then
    (.done 0 [] [], if other then s
      else s.setImport a.index (putBits r 63 63 0) (s.reg (regGa 48 (0x30108 + 16 * a.index))))
  else
    let w := putBits (putBits (putBits (putBits (putBits 0 63 63 1) 62 62 (a.attr % 2)) 61 61 (a.attr / 2 % 2)) 57 52 a.ctx)
      51 12 (a.target / 4096)
    (.done 0 [] [], s.setImport a.index w (putBits 0 39 0 a.size))

/-- What is left of a granted range once another range is taken out of it. -/
def cutGrant (ga n : Nat) (g : CtxId × Nat × Nat) : List (CtxId × Nat × Nat) :=
  let lo := g.2.1
  let hi := g.2.1 + g.2.2
  if !(meets lo g.2.2 ga n) then [g]
  else (if lo < ga then [(g.1, lo, ga - lo)] else []) ++ (if ga + n < hi then [(g.1, ga + n, hi - (ga + n))] else [])

/-- A grant made or taken back (R516). -/
def State.mapGrant (s : State) (c : MbxCmd) (a : MapArgs) (un : Bool) : MbxAns × State :=
  let n := a.count * 65536
  let put (l : List (CtxId × Nat × Nat)) : State := { s with fw := { s.fw with grants := l } }
  if tenantCmd c ∨ (a.ctx ≠ 0 ∧ inStore a.target n ∧ !un) then (.done 5 [] [], s)
  else if un then
    if s.xl.maps.any fun m => decide (m.ctx = a.cid) && meets m.ga m.size a.target n then (.done 1 [] [], s)
    else (.done 0 [] [], put (s.fw.grants.flatMap fun g => if g.1 = a.cid then cutGrant a.target n g else [g]))
  else (.done 0 [] [], if s.fw.grants.contains (a.cid, a.target, n) then s else put (s.fw.grants ++ [(a.cid, a.target, n)]))

/-- MAP's and UNMAP's own part (R516). A tenant names its own context alone. -/
def State.mapAct (s : State) (c : MbxCmd) (un : Bool) : MbxAns × State :=
  let a := mapArgs c.payload
  if tenantCmd c && decide (a.cid ≠ s.mboxCtx c.mb.val) then (.done 5 [] [], s)
  else
    match a.kind with
    | 0 => s.mapPages c a un
    | 1 => (.done 0 [] [], s.mapSignal a un)
    | 2 => s.mapWindow c a un
    | _ => s.mapGrant c a un

/-- MAP's row (Table 14.7) (DEDUCED, log entry 29). -/
def rowMap : MbxRow := ⟨0x12, true, true, false, false, legalIn true true true true true false, false⟩

/-- MAP (R516). -/
def execMap (c : MbxCmd) (s : State) : Host.Outcome State Fault Refusal :=
  .next (s.mbxRun rowMap c (.map c) noJob (fun s => s.mapBad c false) fun s => s.mapAct c false)

/-- UNMAP's row (Table 14.7). -/
def rowUnmap : MbxRow := ⟨0x13, true, true, false, false, legalIn true true true true true false, false⟩

/-- UNMAP (R516). -/
def execUnmap (c : MbxCmd) (s : State) : Host.Outcome State Fault Refusal :=
  .next (s.mbxRun rowUnmap c (.unmap c) noJob (fun s => s.mapBad c true) fun s => s.mapAct c true)

/-! ### REGISTER_BACKING -/

/-- Whether every page of a registration is mapped SRO, all of the first one's size (R220; log entry 28). -/
def State.sroPages (s : State) (ctx : CtxId) (va count : Nat) : Bool :=
  (s.mappingOf ctx va).any fun f => decide (f.va = va) && (List.range count).all fun i =>
    (s.mappingOf ctx (va + i * f.size)).any fun m => m.sro && decide (m.big = f.big)

/-- REGISTER_BACKING's payload out of order (R517). -/
def State.backingBad (s : State) (c : MbxCmd) : Bool :=
  let p := c.payload
  let kind := field p 0 1
  !(payloadOk p 64 [(24, 40)]) ||
  decide (1 < kind ∨ 63 < field p 1 1 ∨ field p 4 4 = 0 ∨ (if kind = 0 then field p 2 2 ≠ 0 ∨ 2 ^ 52 ≤ field p 16 8
    else 4096 ≤ field p 2 2 ∨ 2 ^ 40 ≤ field p 16 8)) ||
  !(s.sroPages (Fin.ofNat 64 (field p 1 1)) (field p 8 8) (field p 4 4))

/-- REGISTER_BACKING's own part (R220): the first piece of the copy is asked for. A copy in companion memory
that no port reaches completes with BAD_ARG. -/
def State.backingAct (s : State) (c : MbxCmd) : MbxAns × State :=
  let p := c.payload
  let ctx : CtxId := Fin.ofNat 64 (field p 1 1)
  let va := field p 8 8
  let b : Backing := if field p 0 1 = 0 then .companion (BitVec.ofNat 52 (field p 16 8))
    else .peer (BitVec.ofNat 12 (field p 2 2)) (BitVec.ofNat 40 (field p 16 8))
  if field p 0 1 = 0 && !(s.cclActive 0 || s.cclActive 1) then (.done 4 [] [], s)
  else (.later (.backing ctx va), s.backingAsk ctx va (field p 4 4) b 0)

/-- REGISTER_BACKING's row (Table 14.7). -/
def rowRegisterBacking : MbxRow := ⟨0x14, true, false, false, false, legalIn true true true false true false, false⟩

/-- REGISTER_BACKING (R220, R517). -/
def execRegisterBacking (c : MbxCmd) (s : State) : Host.Outcome State Fault Refusal :=
  .next (s.mbxRun rowRegisterBacking c (.registerBacking c) noJob (fun s => s.backingBad c) fun s => s.backingAct c)

end Sys2Proof.Machine
end

