-- ==== Sys2Proof/Machine/Power.lean ====
section
/-!
DEFINITION. Power control and thermal limits (chapter 15): hardware limits, emergency levels, junctions, rails,
estimates, power states, and the commands that set tolerances and the cap.
-/

namespace Sys2Proof.Machine

/-! ### Levels -/

/-- Whether firmware acts: it runs, and the role of system controller is filled (R503, R544). -/
def State.fwActs (s : State) : Bool := s.fwOn && !s.pwr.vacant && decide (s.modState ≠ 9)

/-- A field of PWR_EMERG on FD0 (Table 15.10). -/
def State.emerg (s : State) (bit : Nat) : Bool := decide (s.regField (regGa 48 0x130010) bit bit = 1)

/-- Whether E2 holds: its cap condition or its junction condition (R542). -/
def State.inE2 (s : State) : Bool := s.emerg 61 || s.emerg 60

/-- Whether E3 holds: a limit is active (R542). -/
def State.inE3 (s : State) : Bool := s.emerg 59 || s.emerg 58

/-- LEVEL of PWR_EMERG (R542): the highest level that holds. A shed that is put off counts the time below E2
(R508). -/
def State.showLevel (s : State) : State :=
  let low := !s.inE3 && !s.inE2
  let since (x : Shed) : Option Nat := if low then some (x.since.getD s.ftc) else none
  let s : State := { s with fw := { s.fw with shed := s.fw.shed.map fun x => { x with since := since x } } }
  s.setBoth 0x130010 63 62 (if s.inE3 then 3 else if s.inE2 then 2 else if s.pwr.e1 then 1 else 0)

/-- Conditions of E3 replaced (Table 15.10); an entry to E3 is counted (Table 15.16). -/
def State.setE3 (s : State) (hl clamp : Bool) : State :=
  let was := s.inE3
  let s := (s.setBoth 0x130010 59 59 (if hl then 1 else 0)).setBoth 0x130010 58 58 (if clamp then 1 else 0)
  (if (hl || clamp) && !was then s.bumpBoth 0x130410 1 else s).showLevel

/-- Whether the thermal clamp of some die acts. -/
def State.anyClamp (s : State) : Bool :=
  (List.range 52).any fun d => decide (s.regField (regGa d 0x140000) 46 45 = 2)

/-- An event of the supply and thermal monitor of a die (kind 0x0B). -/
def State.raisePwr (s : State) (cls : EvClass) (code die ctx location detail : Nat) : State :=
  s.raise { cls := cls, code := code, die := die, kind := 11, inst := 0, ctx := ctx, tile := none, location := location,
            step := 0, layer := 0, detail := detail }

/-- Measured input power and current recorded (Table 15.8). -/
def State.measure (s : State) (pin : Nat) : State :=
  (s.setBoth 0x130000 31 16 pin).setBoth 0x130000 15 0 (max pin (s.regField (regGa 48 0x130000) 15 0))

/-! ### Hardware limits -/

/-- A trip of HL_PEAK, HL_EXC or HL_CUR (R540, Table 15.11): its bit, the FTC of a first trip, every compute die
clamped, record 0x6003. -/
def State.hlTrip (s : State) (k : Nat) (pin iin : BitVec 16) : State :=
  let active := decide (s.regField (regGa 48 0x130018) (63 - k) (63 - k) = 1 ∧ s.regField (regGa 48 0x130018) 60 60 = 1)
  let s := (s.setBoth 0x130000 47 32 iin.toNat).setBoth 0x130000 15 0
    (max pin.toNat (s.regField (regGa 48 0x130000) 15 0))
  if active then s
  else
  let s := ([48, 49] : List Nat).foldl (fun s f =>
    let a := regGa f 0x130018
    let s := if s.regField a 63 61 = 0 then s.setField a 47 0 s.ftc else s
    (s.setField a (63 - k) (63 - k) 1).setField a 60 60 1) s
  (s.setE3 true (s.emerg 58)).raisePwr .contained 0x6003 48 0 s.ftc
    (k + pin.toNat * 2 ^ 8 + iin.toNat * 2 ^ 24)

/-- HL_PEAK (Table 15.3): input power above 16.5 kW. -/
def execHlPeak (pin iin : BitVec 16) (s : State) : Host.Outcome State Fault Refusal :=
  .next (if s.on && decide (16500 < pin.toNat) then s.hlTrip 0 pin iin else s)

/-- HL_EXC (Table 15.3): input power above 14.0 kW, for more than 10 ms. -/
def execHlExc (pin iin : BitVec 16) (s : State) : Host.Outcome State Fault Refusal :=
  .next (if s.on && decide (14000 < pin.toNat) then s.hlTrip 1 pin iin else s)

/-- HL_CUR (Table 15.3): input current above 365 A, in units of 100 mA. -/
def execHlCur (pin iin : BitVec 16) (s : State) : Host.Outcome State Fault Refusal :=
  .next (if s.on && decide (3650 < iin.toNat) then s.hlTrip 2 pin iin else s)

/-- HW_LIMIT_RELEASE (Table 15.3): below 14.0 kW and 304 A for 1 ms. -/
def execHwLimitRelease (pin iin : BitVec 16) (s : State) : Host.Outcome State Fault Refusal :=
  .next (
    if s.on && s.emerg 59 && decide (pin.toNat < 14000 ∧ iin.toNat < 3040) then
      let s := ((s.setBoth 0x130000 47 32 iin.toNat).measure pin.toNat).setBoth 0x130018 60 60 0
      s.setE3 false (s.emerg 58)
    else s)

/-! ### Junctions -/

/-- A temperature of 12 bits as a signed number of 1/16 °C (R561). -/
def temp (v : BitVec 12) : Int := ofTwos 12 v.toNat

/-- A temperature as two bytes of DETAIL (R635). -/
def temp16 (v : BitVec 12) : Nat := toTwos 16 (temp v)

/-- Whether a die has power (R549). -/
def State.dieUp (s : State) (d : DieId) : Bool :=
  if d.val < 48 then !(s.die d.val).tripped else !(s.fdTripped (d.val - 48))

/-- THM_CFG.POLICY of a die in 1/16 °C. -/
def State.policyOf (s : State) (d : Nat) : Int := 16 * (s.regField (regGa d 0x140008) 7 0 : Int)

/-- A junction temperature measured (R546, Table 15.15): TJ, its peak, the hottest sensor, which the command does
not say, and a crossing of POLICY. -/
def State.junction (s : State) (d : DieId) (tj : BitVec 12) : State :=
  let a := regGa d.val 0x140000
  let z := s.free
  let s := (z.2.setField a 63 52 tj.toNat).setField a 51 47 (z.1.toNat % (if d.val < 48 then 20 else 6))
  let s := if temp (BitVec.ofNat 12 (s.regField a 43 32)) < temp tj then s.setField a 43 32 tj.toNat else s
  let st := s.regField a 46 45
  let hot := decide (s.policyOf d.val ≤ temp tj)
  let s := if hot && decide (st = 0) then s.bump (regGa d.val 0x140100) 1 else s
  if st = 2 then s else s.setField a 46 45 (if hot then 1 else 0)

/-- THERMAL_CLAMP (R540, R548): a junction at or above 110 °C. -/
def execThermalClamp (d : DieId) (tj : BitVec 12) (s : State) : Host.Outcome State Fault Refusal :=
  .next (
    let a := regGa d.val 0x140000
    if !s.on || !(s.dieUp d) || decide (temp tj < 1760) then s
    else
      let was := decide (s.regField a 46 45 = 2)
      let s := s.junction d tj
      if was then s
      else
        let s := ((s.setField a 46 45 2).setField a 44 44 1).bump (regGa d.val 0x140108) 1
        let p := s.reg (regGa 48 0x130000)
        (s.setE3 (s.emerg 59) true).raisePwr .contained 0x6003 d.val 0 s.ftc
          (3 + bits p 31 16 * 2 ^ 8 + bits p 47 32 * 2 ^ 24 + d.val * 2 ^ 40 + temp16 tj * 2 ^ 48))

/-- THERMAL_CLAMP_RELEASE (Table 15.3): the junction is below 105 °C. -/
def execThermalClampRelease (d : DieId) (tj : BitVec 12) (s : State) : Host.Outcome State Fault Refusal :=
  .next (
    let a := regGa d.val 0x140000
    if s.on && s.dieUp d && decide (s.regField a 46 45 = 2 ∧ temp tj < 1680) then
      let s := (s.setField a 46 45 1).junction d tj
      s.setE3 (s.emerg 59) s.anyClamp
    else s)

/-- The home caches, storage and tiles of a compute die are lost (R549, R551). -/
def State.storageLost (s : State) (d : Nat) : State :=
  let out (k : Nat) : Bool := !(decide (gaDie k = d))
  { s with mem := s.mem.filter (fun e => out e.1), poison := s.poison.filter (fun e => out e.1),
           sync := s.sync.filter (fun e => out e.1),
           dies := mapSet DieSt.reset s.dies d { DieSt.reset with tripped := (s.die d).tripped } }

/-- A compute die without power (R549): its tiles stop, their units' collections carry FAULT, what it stored is
lost, and it is fenced; record 0x6004 against context 0 and every context that maps memory on it. -/
def State.dieLost (s : State) (d : Nat) : State :=
  let ctxs := (0 :: (s.mappers d).map (·.val)).dedup
  let s := s.setDie d { s.die d with tripped := true }
  let s := (List.range 12).foldl (fun s i =>
    let t := tileOf (d * 12 + i)
    let q := (s.tile t).seq
    s.setTile t { TileSt.reset with seq := { q with running := false, wait := .none, fault := q.fault || q.running } }) s
  let s := (s.mappers d).dedup.foldl (fun s c => if (s.slotOf c).isSome then s.noteFault c false else s) s
  let s := (s.storageLost d).applyFence ⟨3, d, 0, 0, 0, false⟩
  ctxs.foldl (fun s c => s.raisePwr .contained 0x6004 d c 0 0) s

/-- Contexts that FD2 or FD3 works for: those of its layers and buckets. -/
def State.fdUsers (s : State) (fd : Nat) : List CtxId :=
  (((List.range 128).filter fun l => decide (s.ld fd l 0 63 63 = 1)).map (s.ldCtx fd) ++
   ((List.range 256).filter fun b => decide (s.bktF fd b 0 63 63 = 1)).map (s.bktCtx fd)).dedup

/-- A fabric die without power (R549). -/
def State.fabricLost (s : State) (fd : Nat) : State :=
  let s := ([48, 49] : List Nat).foldl (fun s f => s.setField (regGa f 0x140010) (48 + fd) (48 + fd) 1) s
  if fd < 2 then s.raisePwr .fatal 0x6004 (48 + fd) 0 0 0
  else
    let s := (s.fdUsers fd).foldl (fun s c => s.noteFault c false) s
    let s := (s.fencePort (2 * fd)).fencePort (2 * fd + 1)
    s.raisePwr .contained 0x6004 (48 + fd) 0 0 0

/-- DIE_OFF_TRIP (R540, R549): a junction at or above 115 °C. -/
def execDieOffTrip (d : DieId) (tj : BitVec 12) (s : State) : Host.Outcome State Fault Refusal :=
  .next (
    if !s.on || !(s.dieUp d) || decide (temp tj < 1840) then s
    else
      let a := regGa d.val 0x140000
      let s := (s.junction d tj).setField a 46 45 1
      let s := s.setE3 (s.emerg 59) s.anyClamp
      if d.val < 48 then s.dieLost d.val else s.fabricLost (d.val - 48))

/-! ### The cap and the emergency levels -/

/-- The throttle of tiles lowered by firmware by amounts that the spec leaves to it (R542, R543): free values from
1 to the present one (DESIGN CHOICE, log entry 39). -/
def State.throttleSome (s : State) (p : State → TileId → Bool) : State :=
  (List.range 576).foldl (fun (s : State) k =>
    let t := tileOf k
    if !(p s t) then s
    else
      let a := regGa (tileDie t) (0x130208 + 0x10 * tileIdx t)
      let z := s.free
      let n := s.regField a 54 48
      z.2.setField a 54 48 (1 + z.1.toNat % (max n 1))) s

/-- The throttle of every tile back at 64. -/
def State.throttleNone (s : State) : State :=
  (List.range 576).foldl (fun s k =>
    s.setField (regGa (k / 12) (0x130208 + 0x10 * (k % 12))) 54 48 64) s

/-- Whether a tile belongs to a domain in static mode. -/
def State.inStatic (s : State) (t : TileId) : Bool :=
  ([0, 1] : List (Fin 2)).any fun d =>
    (s.dom d).started && decide ((s.dom d).dyn = .none) && (s.jobTiles d).contains t

/-- An entry to E1 (Table 15.4). -/
def State.enterE1 (s : State) : State :=
  let s := (({ s with pwr := { s.pwr with e1 := true } } : State).bumpBoth 0x130400 1).showLevel
  if s.fwActs then s.throttleSome fun s t => !(s.inStatic t) else s

/-- EMERGENCY_E1 (Table 15.4): input power at or above 95% of the cap. -/
def execEmergencyE1 (pin : BitVec 16) (s : State) : Host.Outcome State Fault Refusal :=
  .next (
    if s.on && decide (95 * s.capNow ≤ 100 * pin.toNat) then
      let s := s.measure pin.toNat
      if s.pwr.e1 then s else s.enterE1
    else s)

/-- A power hold requested of every started domain (R543). -/
def State.powerHold (s : State) (d : Fin 2) : State :=
  if !(s.dom d).started then s
  else (s.requestHold d .power (s.regField (domReg d.val 0) 31 24) false).bumpBoth 0x130418 1

/-- What firmware does on an entry to E2 (R543): power holds, tiles throttled, record 0x6002. A switch that a shed
awaits is put off by the level itself (R508). -/
def State.enterE2 (s : State) (detail : Nat) : State :=
  let s := ((s.powerHold 0).powerHold 1).throttleSome fun _ _ => true
  s.raisePwr .corrected 0x6002 48 0 0 detail

/-- EMERGENCY_E2 (R542, R543): input power above the cap for more than 1 ms, or a junction at or above POLICY. -/
def execEmergencyE2 (c : E2Cause) (s : State) : Host.Outcome State Fault Refusal :=
  .next (
    if !s.on then s
    else
      let was := s.inE2
      let enter (s : State) (detail : Nat) : State :=
        if was then s.showLevel
        else
          let s := (s.bumpBoth 0x130408 1).showLevel
          if s.fwActs then s.enterE2 detail else s
      match c with
      | .cap pin =>
        if pin.toNat ≤ s.capNow then s
        else enter ((s.measure pin.toNat).setBoth 0x130010 61 61 1) (s.capNow * 2 ^ 8 + pin.toNat * 2 ^ 24)
      | .junction d tj =>
        if !(s.dieUp d) || decide (temp tj < s.policyOf d.val) then s
        else enter ((s.junction d tj).setBoth 0x130010 60 60 1) (1 + d.val * 2 ^ 8 + temp16 tj * 2 ^ 16))

/-- POWER_HOLD_RENEW (R543): while E2 lasts each request is renewed. -/
def execPowerHoldRenew (d : Fin 2) (s : State) : Host.Outcome State Fault Refusal :=
  .next (if s.on && s.inE2 && s.fwActs then s.powerHold d else s)

/-- EMERGENCY_EXIT (R542): 10 ms below 97% of the cap, with every junction below POLICY − 3 K, ends E2; 10 ms
below 92% ends E1. Throttles that firmware lowered are raised once no level calls for them. -/
def execEmergencyExit (pin : BitVec 16) (s : State) : Host.Outcome State Fault Refusal :=
  .next (
    if !s.on then s
    else
      let cool := (List.finRange 52).all fun d => !(s.dieUp d) ||
        decide (temp (BitVec.ofNat 12 (s.regField (regGa d.val 0x140000) 63 52)) < s.policyOf d.val - 48)
      let e2 := s.inE2 && decide (100 * pin.toNat < 97 * s.capNow) && cool
      let e1 := s.pwr.e1 && decide (100 * pin.toNat < 92 * s.capNow)
      if !(e1 || e2) then s
      else
        let s := s.measure pin.toNat
        let s := if e2 then (s.setBoth 0x130010 61 61 0).setBoth 0x130010 60 60 0 else s
        let s : State := if e1 then { s with pwr := { s.pwr with e1 := false } } else s
        let s := s.showLevel
        if !s.pwr.e1 && !s.inE2 && s.fwActs then s.throttleNone else s)

/-! ### Rails -/

/-- VSET of a tile's rail. -/
def railReg (t : TileId) : Nat := regGa (tileDie t) (0x130200 + 0x10 * tileIdx t)

/-- The least step of the rail that gives V_need + 45 mV (R530), V_need in µV: at least 260. -/
def railFor (vneed : Nat) : Nat := max 260 ((vneed + 45000 + 2499) / 2500)

/-- MARGIN_ALARM (R532): slack below the equivalent of 15 mV, in units of 2.5 mV. -/
def execMarginAlarm (t : TileId) (slack : BitVec 8) (s : State) : Host.Outcome State Fault Refusal :=
  .next (
    if !(s.tileOn t) || decide (6 ≤ slack.toNat) then s
    else
      let a := railReg t
      let s := ((s.setField a 15 8 slack.toNat).setField a 0 0 1).bump (regGa (tileDie t) 0x130428) 1
      let s := s.raise { cls := .corrected, code := 0x6001, die := tileDie t, kind := 1, inst := tileIdx t, ctx := 0,
                         tile := some t, location := 0, step := 0, layer := 0, detail := 0 }
      if s.fwActs then s.setField a 24 16 (min 360 (s.regField a 24 16 + 4)) else s)

/-- POWER_ESTIMATE (R534): the estimates of a tile and of its die, whose weights the spec leaves to the hardware. -/
def execPowerEstimate (t : TileId) (s : State) : Host.Outcome State Fault Refusal :=
  .next (
    if !(s.tileOn t) then s
    else
      let z := s.free
      let s := z.2.setField (regGa (tileDie t) (0x130208 + 0x10 * tileIdx t)) 31 0 z.1.toNat
      let y := s.free
      y.2.setField (regGa (tileDie t) 0x130100) 31 0 y.1.toNat)

/-- POWER_CALIBRATION (R535): the fit of a die's GAIN and OFFSET, whose method the spec leaves to firmware. -/
def execPowerCalibration (d : CdId) (s : State) : Host.Outcome State Fault Refusal :=
  .next (
    if !(s.dieOn d.val) || !s.fwActs then s
    else
      let z := s.free
      let s := z.2.setField (regGa d.val 0x130108) 63 48 z.1.toNat
      let y := s.free
      y.2.setField (regGa d.val 0x130108) 31 0 y.1.toNat)

/-- COOLANT_ALARM (R550): the inlet above 40 °C, or the rise above 18 K, for 1 s. -/
def execCoolantAlarm (tin tout : BitVec 12) (s : State) : Host.Outcome State Fault Refusal :=
  .next (
    let hot := decide (640 < temp tin)
    let rise := decide (288 < temp tout - temp tin)
    if !s.on || !(s.dieUp 48) || !(hot || rise) then s
    else
      let a := regGa 48 0x140018
      ((s.setField a 63 52 tin.toNat).setField a 51 40 tout.toNat).raisePwr .corrected 0x6005 48 0 0
        ((if hot then 1 else 0) + (if rise then 2 else 0) + temp16 tin * 2 ^ 8 + temp16 tout * 2 ^ 24))

/-! ### Ageing -/

/-- A hot fence of a tile for want of voltage, at the next step boundary of a started domain (R558, R559). -/
def State.hotTile (s : State) (d : Fin 2) (t : TileId) : State :=
  if (s.dom d).fences.contains (2, t.val, 0, 0) then s
  else (s.setDom d { s.dom d with fences := (s.dom d).fences ++ [(2, t.val, 0, 0)] }).requestHold d .hotFence 0 false

/-- AGEING_READING (R556 to R559): the measured delay over the baseline gives the new fmax, in units of 10 MHz;
V_need at the planned clock and at 1.80 GHz, in µV, give the rail. A tile that its rail cannot serve is fenced (DEDUCED, log entry 40). -/
def execAgeingReading (t : TileId) (dNow dBase vneedPlanned vneed1800 : Nat) (s : State) :
    Host.Outcome State Fault Refusal :=
  .next (
    if !(s.tileOn t) || !s.fwActs || decide (dNow = 0) then s
    else
      let old := s.fmaxOf t
      let ship := (s.fw.images.map fun im => im.fmax.getD t.val 180).getD 180
      let new := ship * dBase / dNow
      let kept := max 180 new
      let s := if old ≤ kept then s
        else
          let s := (s.calWrite fun r => { r with fmax := mapSet 255 r.fmax t.val kept }).capBump
          s.raise { cls := .corrected, code := 0x6006, die := tileDie t, kind := 10, inst := 0, ctx := 0, tile := some t,
                    location := 0, step := 0, layer := 0, detail := kept }
      let mine := ([0, 1] : List (Fin 2)).find? fun d => (s.dom d).started && (s.jobTiles d).contains t
      let planned := decide (s.plannedOf t ≠ 0)
      let want := max (if planned then railFor vneedPlanned else 0) (if new < 180 then railFor vneed1800 else 0)
      if want = 0 then s
      else if want ≤ 360 then s.setField (railReg t) 24 16 want
      else
        let s := s.setField (railReg t) 24 16 360
        match mine with
        | some d => s.hotTile d t
        | none => { s with fw := { s.fw with weak := setPut s.fw.weak t.val true } })

/-! ### Power states -/

/-- Register of a tile that holds PSTATE and THROTTLE. -/
def ctlReg (t : TileId) : Nat := regGa (tileDie t) (0x130208 + 0x10 * tileIdx t)

/-- Whether a tile has no work in its engines. -/
def State.enginesIdle (s : State) (t : TileId) : Bool :=
  let x := s.tile t
  x.tge.launch.isNone && !(x.tge.groups.any fun e => e.2.isSome) && !x.vx.running && x.tmv.xfers.isEmpty

/-- Whether a tile has had no work, or is held with none, so that PS1 is open to it (R552): in a started domain
only at a TSQ.HOLD that lies more than 900 ft ahead, or in a hold. -/
def State.mayDoze (s : State) (t : TileId) : Bool :=
  let q := (s.tile t).seq
  s.enginesIdle t &&
  (match ([0, 1] : List (Fin 2)).find? fun d => (s.dom d).started && (s.jobTiles d).contains t with
   | none => !q.running
   | some d => (s.dom d).hold.active || !q.running ||
      (match q.wait with
       | .hold target => decide (s.sched d.val + 900 < target)
       | _ => false))

/-- TILE_IDLE (R552): PS1. -/
def execTileIdle (t : TileId) (s : State) : Host.Outcome State Fault Refusal :=
  .next (
    if s.tileOn t && decide (s.pwr.ps = 0 ∧ s.regField (ctlReg t) 63 61 = 0 ∧ 1 ≤ s.tilePs t) && s.mayDoze t then
      s.setField (ctlReg t) 63 61 1
    else s)

/-- n free words (DESIGN CHOICE, log entry 6). -/
def State.frees (s : State) (n : Nat) : List Word × State :=
  ((List.range n).map fun i => Config.freeWord (s.freeCount + i), { s with freeCount := s.freeCount + n })

/-- A number from words, the first one lowest. -/
def wordsNat : List Word → Nat
  | [] => 0
  | w :: rest => w.toNat + 2 ^ 64 * wordsNat rest

/-- What PS2 loses (Table 15.5): vector, mask and scalar registers hold open values, array buffers, near cache and
translation cache hold nothing. -/
def State.tileForgets (s : State) (t : TileId) : State :=
  let z := s.frees 2144
  let w (i n : Nat) : Nat := wordsNat ((z.1.drop i).take n)
  let x := z.2.tile t
  let v : VxSt := { x.vx with
    v := (List.range 32).foldl (fun m i => mapSet 0 m i (BitVec.ofNat 4096 (w (64 * i) 64))) [],
    p := (List.range 8).foldl (fun m i => mapSet 0 m i (BitVec.ofNat 512 (w (2048 + 8 * i) 8))) [],
    sreg := (List.range 32).foldl (fun m i => mapSet 0 m i (BitVec.ofNat 64 (w (2112 + i) 1))) [],
    ep := none }
  z.2.setTile t { x with mxa := { MxaSt.reset with pending := x.mxa.pending }, tge := TgeSt.reset, vx := v, tlb := [],
                         nc := [] }

/-- Whether a tile can enter PS2 (R552): no launch in progress, no run open, no wait queued. -/
def State.maySleep (s : State) (t : TileId) : Bool :=
  s.enginesIdle t && (s.tile t).mxa.run.isNone && !(s.tile t).seq.running &&
  !(s.sy.homes.any fun h => (h.2.queue ++ h.2.retry).any fun w => match w.who with
      | .seq u => decide (u = t)
      | .lanes u _ _ _ => decide (u = t)) &&
  !(s.sy.bars.any fun b => b.2.waiting.any fun w => match w.1 with
      | .seq u => decide (u = t)
      | .lanes u _ _ _ => decide (u = t))

/-- PS4 (Table 15.5): every content of the compute and stacked dies is lost; registers hold their reset values,
those of power and thermal control apart (DEDUCED, log entry 30). -/
def State.diesOff (s : State) (ps : Nat) : State :=
  let stays (a : Nat) : Bool := decide (48 ≤ a / 2 ^ 34 ∨ (0x130000 ≤ a % 2 ^ 30 ∧ a % 2 ^ 30 < 0x160000))
  let s := (List.range 48).foldl (fun s d => s.storageLost d) s
  { s with tiles := [], regs := s.regs.filter (fun e => stays e.1), pwr := { s.pwr with ps := ps } }

/-- POWER_STATE_ENTER (R552, R553): firmware moves a unit into a state that its tolerance permits. -/
def execPowerStateEnter (u : PowerUnit) (ps : Fin 6) (s : State) : Host.Outcome State Fault Refusal :=
  .next (
    if !s.fwActs || decide (s.pwr.ps ≠ 0 ∧ u ≠ .module) then s
    else
      match u with
      | .tile t =>
        if ps = 2 ∧ s.tileOn t ∧ 2 ≤ s.tilePs t ∧ s.regField (ctlReg t) 63 61 < 2 ∧ s.maySleep t then
          (s.tileForgets t).setField (ctlReg t) 63 61 2
        else s
      | .die d =>
        let tiles := (List.range 12).map fun i => tileOf (d.val * 12 + i)
        if ps = 3 ∧ s.dieOn d.val ∧ 3 ≤ s.diePs d.val ∧ s.regField (regGa d.val 0x130100) 63 61 ≠ 3 ∧
            tiles.all s.maySleep then
          let s := tiles.foldl (fun s t => s.tileForgets t) (s.flushAll d.val)
          (s.setDie d.val { s.die d.val with sets := [] }).setDiePs d.val 3
        else s
      | .allDies => if ps = 4 ∧ 4 ≤ s.modulePs then s.diesOff 4 else s
      | .module =>
        if ps = 5 ∧ s.modulePs = 5 ∧ s.pwr.ps ≠ 5 then
          (List.range 10).foldl (fun s l => s.setLinkState l 0) (s.diesOff 5)
        else s)

/-- A tile leaves PS1 or PS2 (R551). -/
def State.wakeTile (s : State) (t : TileId) : State :=
  match s.regField (ctlReg t) 63 61 with
  | 1 => s.setField (ctlReg t) 63 61 0
  | 2 => (s.setField (ctlReg t) 63 61 0).bump (regGa (tileDie t) 0x130430) 1
  | _ => s

/-- A die leaves PS3 (R551). -/
def State.wakeDie (s : State) (d : Nat) : State :=
  if s.regField (regGa d 0x130100) 63 61 = 3 then (s.setDiePs d 0).bump (regGa d 0x130430) 1 else s

/-- POWER_STATE_WAKE (R551 to R553): a wake event of the unit, or a condition that no longer holds. -/
def execPowerStateWake (u : PowerUnit) (s : State) : Host.Outcome State Fault Refusal :=
  .next (
    if !s.on then s
    else
      match u with
      | .tile t => if s.pwr.ps = 0 then (s.wakeDie (tileDie t)).wakeTile t else s
      | .die d => if s.pwr.ps = 0 then s.wakeDie d.val else s
      | .allDies => if s.pwr.ps = 4 then s.leaveDeep else s
      | .module => if s.pwr.ps = 5 then s.leaveDeep else s)

/-! ### Commands -/

/-- SET_LAT_TOL's payload out of order (Table 15.6). -/
def tolBad (c : MbxCmd) : Bool :=
  let p := c.payload
  !(payloadOk p 8 [(2, 2)]) || decide (1 < field p 0 1 ∨ 1 < field p 1 1)

/-- Dies with units of a context: those it maps memory on, and those of its jobs' tiles. -/
def State.diesOf (s : State) (c : CtxId) : List Nat :=
  (List.range 48).filter fun d =>
    (s.mappers d).contains c || (s.jobUsers (fun k => decide (k / 12 = d)) false).contains c

/-- SET_LAT_TOL's own part (R554): module scope on MBX0 only. -/
def State.tolAct (s : State) (c : MbxCmd) : MbxAns × State :=
  let p := c.payload
  let loss := decide (field p 1 1 = 1)
  let tol := field p 4 4
  if field p 0 1 = 0 then
    if c.mb ≠ 0 then (.done 5 [] [], s)
    else
      let s := (s.setBoth 0x130020 63 32 tol).setBoth 0x130020 31 31 (if loss then 1 else 0)
      (.done 0 (leBytes 1 (s.deepest (List.range 48))) [], s)
  else
    let ctx : CtxId := Fin.ofNat 64 c.hdr.ctx.toNat
    let s : State := { s with fw := { s.fw with tols := mapSet none s.fw.tols ctx.val (some (tol, loss)) } }
    (.done 0 (leBytes 1 (s.deepest (s.diesOf ctx))) [], s)

/-- SET_LAT_TOL's row (Table 14.7). -/
def rowSetLatTol : MbxRow := ⟨0x40, true, true, false, false, legalIn true true true true true false, false⟩

/-- SET_LAT_TOL (R553, R554). -/
def execSetLatTol (c : MbxCmd) (s : State) : Host.Outcome State Fault Refusal :=
  .next (s.mbxRun rowSetLatTol c (.setLatTol c) noJob (fun _ => tolBad c) fun s => s.tolAct c)

/-- SET_POWER_CAP's own part (R541, R545, R555): a cap above PCAP_MAX is denied; the levels are evaluated again
against the new one. -/
def State.capAct (s : State) (c : MbxCmd) : MbxAns × State :=
  let cap := field c.payload 0 4
  if ((s.fw.images.map (·.pcapMax)).getD 0) < cap then (.done 5 [] [], s)
  else
    let s := s.setBoth 0x130008 15 0 cap
    let s := if !s.pwr.e1 && decide (95 * cap ≤ 100 * s.regField (regGa 48 0x130000) 31 16) then s.enterE1 else s
    (.done 0 (leBytes 4 cap) [], s)

/-- SET_POWER_CAP's row (Table 14.7). -/
def rowSetPowerCap : MbxRow := ⟨0x41, true, false, true, true, legalIn true true true true true false, false⟩

/-- SET_POWER_CAP (R541, R555). -/
def execSetPowerCap (c : MbxCmd) (s : State) : Host.Outcome State Fault Refusal :=
  .next (s.mbxRun rowSetPowerCap c (.setPowerCap c) noJob
    (fun _ => !(payloadOk c.payload 8 [(4, 4)]) || decide (field c.payload 0 4 < 8000)) fun s => s.capAct c)

end Sys2Proof.Machine
end

