-- ==== Sys2Proof/Machine/Job.lean ====
section
/-!
DEFINITION. JOB_LOAD: reading and checking a job directory (R96, R237, R313, R318, R372, R400, R518 to R520, R580,
R584, R586).
-/

namespace Sys2Proof.Machine

/-! ### Entries -/

/-- A directory entry (Table 14.29). -/
structure JobEnt where
  kind   : Nat
  target : Nat
  len    : Nat
  ga     : Nat
  peer   : Nat
  flags  : Nat
  fd     : Nat
  layer  : Nat
  dest   : Nat
  aux    : Nat
  digest : BitVec 512
  spare  : Bool
  deriving DecidableEq, Repr

/-- An entry from its 128 bytes; `spare` says that its reserved bytes are zero. -/
def jobEnt (b : List Byte) : JobEnt :=
  ⟨field b 0 2, field b 2 2, field b 4 4, field b 8 8, field b 16 2, field b 18 1, field b 19 1, field b 20 2, field b 24 8,
    field b 32 8, BitVec.ofNat 512 (field b 64 64), zeros b 22 2 && zeros b 40 24⟩

/-- Whether a TARGET is one that its kind has (Table 14.30). -/
def targetOk (kind target : Nat) : Bool :=
  match kind with
  | 0x1 => decide (target < 576)
  | 0x3 => decide (target % 256 < 8 ∧ target / 256 < 2)
  | 0x4 => decide (target < 4)
  | 0x6 => decide (target < 4)
  | 0x7 => decide (target < 4)
  | 0x8 => decide (target < 4)
  | 0xB => decide (target % 256 < 48 ∧ target / 256 ≤ 8)
  | k => decide (target = 0) && [0x2, 0x5, 0x9, 0xA, 0xC, 0xD, 0x10, 0x11].contains k

/-- Whether a part's length fits its kind (Table 14.30). -/
def lengthOk (kind n : Nat) : Bool :=
  match kind with
  | 0x2 => decide (n = 2304)
  | 0x3 => decide (n = 2048)
  | 0x4 => decide (n = 32768)
  | 0x5 => decide (n % 16 = 0)
  | 0x6 => decide (n % 64 = 0)
  | 0x7 => decide (n % 40 = 0)
  | 0x8 => decide (n % 136 = 0)
  | 0x9 => decide (n % 96 = 0)
  | 0xA => decide (n = 64)
  | 0xB => decide (n % 8 = 0 ∧ n ≤ 64)
  | 0xC => decide (n % 24 = 0)
  | 0xD => decide (n % 24 = 0)
  | 0x11 => decide (n % 32 = 0)
  | _ => true

/-- Whether an entry is in order by itself (R519, Table 14.29). -/
def JobEnt.ok (e : JobEnt) : Bool :=
  e.spare && targetOk e.kind e.target && lengthOk e.kind e.len &&
  (if e.kind = 0x10 then
     decide (e.aux = 0 ∧ e.digest = 0 ∧ e.flags ≤ 1 ∧ (e.peer < 4096 ∨ e.peer = 0xFFFF) ∧ e.ga < 2 ^ 40) &&
     (if e.flags = 1 then decide (e.fd < 4 ∧ e.layer < 128 ∧ e.peer ≠ 0xFFFF) else decide (e.fd = 0 ∧ e.layer = 0))
   else
     decide (e.peer = 0 ∧ e.flags = 0 ∧ e.fd = 0 ∧ e.layer = 0 ∧ (e.kind = 1 ∨ (e.dest = 0 ∧ e.aux = 0))))

/-! ### Contents of parts -/

/-- Whether a register image sets no reserved bit and has no reserved encoding (R9) (DEDUCED, log entry 44). -/
def imageOk (ga : Nat) (v : Word) : Bool :=
  match regSpecAt ga with
  | none => false
  | some r =>
    decide (r.fields.foldl (fun w f => putBits w f.hi f.lo 0) v = 0) &&
    r.fields.all fun f => decide (f.acc ≠ .rw) || !(reservedIn f.bad (bits v f.hi f.lo))

/-- Images of a record, from its second doubleword on, for registers in a row. -/
def imagesOk (n : Nat) (reg : Nat → Nat) (r : List Byte) : Bool := (List.range n).all fun k => imageOk (reg k) (imgOf r (k + 1))

/-- Whether bytes of a tile part go to that tile's memory or to die SRAM (Table 14.30). -/
def State.tilePartOk (s : State) (t dest n : Nat) : Bool :=
  decide (n = 0) ||
  (s.rangeOk 48 dest n && (decide (gaRegion dest = 1) || (ownMem (tileOf t) dest && ownMem (tileOf t) (dest + n - 1))))

/-- A basis record (R96, R318): extent and width in range, and for a tile given work its clock and width within
what the tile has. -/
def State.basisOk (s : State) (t : Nat) (r : List Byte) : Bool :=
  let clock := field r 0 1
  decide (field r 1 1 ≤ 128 ∧ field r 2 1 ≤ 128 ∧ field r 3 1 = 0) &&
  (decide (clock = 0) ||
    (!(s.tileOut (tileOf t)) && decide (clock ≤ s.fmaxOf (tileOf t) ∧ field r 1 1 ≤ s.width (tileOf t))))

/-- A slot table (Table 9.2, R318): no reserved KIND, no stream in a free slot, no owned slot on a fenced port. -/
def State.slotsOk (s : State) (target : Nat) (bs : List Byte) : Bool :=
  (List.range 1024).all fun i =>
    let v := field bs (2 * i) 2
    decide (v / 2 ^ 14 ≠ 3) && (decide (v = 0) || (decide (v / 2 ^ 14 ≠ 0 ∧ s.linkState (target % 8) ≠ 6)))

/-- A stream table (R367). -/
def streamsOk (bs : List Byte) : Bool :=
  (List.range 16384).all fun i => decide (field bs (2 * i) 2 / 2 ^ 13 ≤ 5 ∧ field bs (2 * i) 2 % 256 = 0)

/-- A barrier record, on a die that is not fenced. -/
def State.barOk (s : State) (r : List Byte) : Bool :=
  let die := field r 1 1
  let n := field r 2 1
  zeros r 3 5 &&
  (match field r 0 1 with
   | 0 => decide (die < 48 ∧ n < 32) && !(s.dieFenced die) && imageOk (barReg die n 0) (imgOf r 1)
   | 1 => decide (die = 0 ∧ n < 64) && imageOk (mbcReg n 0) (imgOf r 1)
   | 2 => decide (die = 0 ∧ n < 64) && imageOk (mbcReg n 8) (imgOf r 1)
   | _ => false)

/-- A repeat-unit record, of tiles that are not fenced. -/
def State.unitOk (s : State) (r : List Byte) : Bool :=
  let m := BitVec.ofNat 576 (field r 24 72)
  decide (field r 2 1 < 64 ∧ field r 3 1 < 32) && zeros r 4 4 && zeros r 16 8 &&
  (List.range 576).all fun t => !(m.getLsbD t) || !(s.tileOut (tileOf t))

/-- The domain parameters: values that FAB_DOM_CFG can hold. -/
def paramsOk (r : List Byte) : Bool :=
  decide (field r 0 4 < 2 ^ 24 ∧ 1 ≤ field r 6 1 ∧ field r 6 1 ≤ 64 ∧ field r 7 1 ≤ 1) && zeros r 16 48

/-- A capture record (R595). -/
def captureOk (r : List Byte) : Bool :=
  let ga := field r 16 8
  decide (field r 0 2 < 576 ∧ 1 ≤ field r 12 1 ∧ field r 12 1 ≤ 128 ∧ ga < 2 ^ 40 ∧ gaRegion ga = 1 ∧ ga % 64 = 0) &&
  zeros r 13 3 && zeros r 24 8

/-- Whether a part's content is in order by itself (R9, R318, R519, R520). -/
def State.partOk (s : State) (ctx : CtxId) (key : Nat) (p : JobPart) : Bool :=
  match p.kind with
  | 0x1 => s.tilePartOk p.target p.dest p.bytes.length &&
      (decide (p.aux = 0) || !(s.tileOut (tileOf p.target)))
  | 0x2 => ((List.range 576).zip (recsOf 4 p.bytes)).all fun e => s.basisOk e.1 e.2
  | 0x3 => s.slotsOk p.target p.bytes
  | 0x4 => streamsOk p.bytes
  | 0x5 => (recsOf 16 p.bytes).all s.barOk
  | 0x6 => (recsOf 64 p.bytes).all fun r =>
      decide (field r 0 2 < 256) && zeros r 2 6 && imagesOk 7 (bktReg p.target (field r 0 2)) r
  | 0x7 => (recsOf 40 p.bytes).all fun r =>
      decide (field r 0 2 < 64) && zeros r 2 6 && imagesOk 4 (mcReg p.target (field r 0 2)) r
  | 0x8 => (recsOf 136 p.bytes).all fun r =>
      decide (field r 0 2 < 128) && zeros r 2 6 && imagesOk 16 (ldReg p.target (field r 0 2)) r
  | 0x9 => (recsOf 96 p.bytes).all s.unitOk
  | 0xA => paramsOk p.bytes
  | 0xB => !(s.dieFenced (p.target % 64)) &&
      (recsOf 8 p.bytes).all fun r => imageOk (hcReg (p.target % 64) 0x40) (imgOf r 0)
  | 0xC => (recsOf 24 p.bytes).all fun r =>
      decide (field r 0 1 < 16 ∧ field r 8 2 = key) && zeros r 1 7 && imagesOk 2 (fun k => regGa 48 (0x3000 + 8 * k)) r
  | 0xD => (recsOf 24 p.bytes).all fun r =>
      decide (field r 0 1 < 16 ∧ bits (imgOf r 1) 57 52 = ctx.val) && zeros r 1 7 &&
        imagesOk 2 (fun k => regGa 48 (0x30100 + 8 * k)) r
  | 0x11 => (recsOf 32 p.bytes).all captureOk
  | _ => false

/-! ### Descriptors together -/

/-- A descriptor's word once the directory is in place: the directory's last image of it, or what it holds. -/
def JobPlan.image (x : JobPlan) (kind n fd i k : Nat) (now : Word) : Word :=
  (x.recs kind n).foldl (fun w e => if e.1 = fd ∧ field e.2 0 2 = i then imgOf e.2 (k + 1) else w) now

def State.bktW (s : State) (x : JobPlan) (fd b k : Nat) : Word := x.image 6 64 fd b k (s.reg (bktReg fd b k))
def State.mcW (s : State) (x : JobPlan) (fd m k : Nat) : Word := x.image 7 40 fd m k (s.reg (mcReg fd m k))
def State.ldW (s : State) (x : JobPlan) (fd l k : Nat) : Word := x.image 8 136 fd l k (s.reg (ldReg fd l k))

/-- A bucket descriptor that R372 does not refuse. -/
def State.bktOk (s : State) (x : JobPlan) (fd b : Nat) : Bool :=
  let w := s.bktW x fd b
  let head := bits (w 0) 23 18
  let size := bits (w 3) 63 48
  let ports := (portsOf (bits (w 0) 15 8) ++ portsOf (bits (w 4) 55 48)) ++ (if bits (w 0) 59 59 = 1 then [] else [bits (w 0) 7 4])
  decide (bits (w 0) 63 63 = 0) ||
  (decide (bits (w 2) 31 16 ≤ 2 ^ head ∧ head ≤ (if bits (w 0) 60 60 = 0 then 16 else 32) ∧ 64 ≤ size ∧ size ≤ 8192) &&
    ((List.range 256).all fun o => decide (o = b) || decide (bits (s.bktW x fd o 0) 63 63 = 0) ||
      decide (bits (s.bktW x fd o 0) 47 32 ≠ bits (w 0) 47 32)) &&
    ports.all fun p => decide (p < 8) && !(s.portUnusable p))

/-- A bank of a layer as the die, region and offset at which it begins. -/
structure BankAt where
  die    : Nat
  region : Nat
  off    : Nat
  deriving DecidableEq, Repr

/-- The bank at a GA. -/
def bankAt (ga : Nat) : BankAt := ⟨gaDie ga, gaRegion ga, gaOff ga⟩

/-- Bytes of a bank on its j-th die (Table 11.10). -/
def bankLen (rows cols ndie : Nat) (nores : Bool) (j : Nat) : Nat :=
  let rpd := (rows + ndie - 1) / ndie
  secAt (min ((j + 1) * rpd) rows - j * rpd) cols nores (decide (j = 0)) .done

/-- Whether a bank lies on NDIE consecutive unfenced compute dies, inside one region (R400). -/
def State.bankOk (s : State) (a : BankAt) (ndie : Nat) (len : Nat → Nat) : Bool :=
  decide (1 ≤ ndie ∧ a.die + ndie ≤ 48 ∧ a.region ≤ 2) &&
  (List.range ndie).all fun j => !(s.dieFenced (a.die + j)) && !(s.die (a.die + j)).tripped &&
    (regionSize (a.die + j) a.region).any fun z => decide (a.off + len j ≤ z)

/-- Whether two banks of one layer share no byte. -/
def banksApart (a b : BankAt) (ndie : Nat) (len : Nat → Nat) : Bool :=
  (List.range ndie).all fun i => (List.range ndie).all fun j =>
    decide (a.die + i ≠ b.die + j ∨ a.region ≠ b.region ∨ a.off + len i ≤ b.off ∨ b.off + len j ≤ a.off)

/-- Whether NDIE multicast descriptors from a MID on are valid source descriptors of a generation (R400). -/
def State.midsOk (s : State) (x : JobPlan) (fd mid gen ndie : Nat) : Bool :=
  (List.range ndie).all fun j => (List.range 64).any fun m =>
    let w := s.mcW x fd m 0
    decide (bits w 63 62 = 2 ∧ bits w 47 32 = mid + j ∧ bits w 55 48 = gen)

/-- A layer descriptor that R400 does not refuse. -/
def State.layerOk (s : State) (x : JobPlan) (fd l : Nat) : Bool :=
  let w := s.ldW x fd l
  let rows := bits (w 1) 63 32
  let cols := bits (w 1) 31 0
  let hs := bits (w 3) 39 34
  let hn := bits (w 3) 33 28
  let ndie := bits (w 12) 47 42
  let len := bankLen rows cols ndie (decide (bits (w 0) 61 61 = 1))
  let a := bankAt (bits (w 10) 39 0)
  let b := bankAt (bits (w 11) 39 0)
  let r := bits (w 13) 63 58
  decide (bits (w 0) 63 63 = 0) ||
  (decide (1 ≤ rows ∧ rows ≤ 2 ^ 24 ∧ 1 ≤ cols ∧ cols ≤ 2 ^ 16 ∧ bits (w 2) 15 0 ≠ 0 ∧ max rows cols ≤ 2 ^ hs ∧
      rows * cols ≤ 2 ^ hn ∧ hs ≤ 40 ∧ hn ≤ 40) &&
    ((List.range 128).all fun o => decide (o = l) || decide (bits (s.ldW x fd o 0) 63 63 = 0) ||
      decide (bits (s.ldW x fd o 0) 31 0 ≠ bits (w 0) 31 0)) &&
    (decide (r = 0) || Config.hasRoutine ((s.fw.images.map (·.library)).getD 0) r) &&
    s.bankOk a ndie len && s.bankOk b ndie len && banksApart a b ndie len &&
    s.midsOk x fd (bits (w 9) 63 48) (bits (w 9) 47 40) ndie && s.midsOk x fd (bits (w 9) 39 24) (bits (w 9) 23 16) ndie)

/-- Whether the pin registers that a job needs are free (R237). -/
def State.pinsOk (s : State) (d : Fin 2) (x : JobPlan) : Bool :=
  let lists := x.parts.filter fun p => decide (p.kind = 0xB)
  (lists.map fun p => p.target % 64).all fun die =>
    let need := (lists.filter fun p => decide (p.target % 64 = die)).flatMap fun p => pinImages p.bytes
    let own := if x.reload then (s.dom d).pins.filter fun e => decide (e.1 = die) else []
    decide (need.length ≤ (s.freePins die).length + own.length)

/-- Whether the job shares no tile and no slot table with the other one that is loaded (R313). -/
def State.apart (s : State) (d : Fin 2) (x : JobPlan) : Bool :=
  let o : Fin 2 := if d = 0 then 1 else 0
  let y := s.dom o
  !y.loaded ||
  (decide (s.regField (domReg o.val 0) 53 53 ≠ field x.params 7 1) &&
    x.tiles.all fun t => (mapGet none y.firsts t).isNone && decide (mapGet (⟨0, 0, 0⟩ : PlanEnt) y.plan t = ⟨0, 0, 0⟩))

/-- The checks of R318, R372, R400 and R519 on a directory's parts. -/
def State.planOk (s : State) (d : Fin 2) (x : JobPlan) : Bool :=
  let one (k : Nat) : Bool := decide ((x.parts.filter fun p => decide (p.kind = k)).length = 1)
  one 2 && one 9 && one 0xA && (x.parts.all fun p => s.partOk x.ctx x.key.toNat p) &&
  ((x.recs 6 64).all fun e => s.bktOk x e.1 (field e.2 0 2)) &&
  ((x.recs 8 136).all fun e => s.layerOk x e.1 (field e.2 0 2)) && s.pinsOk d x && s.apart d x

/-! ### Copies -/

/-- Pieces of a copy into the live bank of a layer (R586), die by die: source, destination, bytes; and the bytes
that no die has room for. -/
def State.livePieces (s : State) (e : JobEnt) : List (Nat × Nat × Nat) × Nat :=
  let k := s.ld e.fd e.layer 0 60 60
  (List.range (s.ld e.fd e.layer 12 47 42)).foldl (fun (z : List (Nat × Nat × Nat) × Nat) j =>
    let n := min z.2 (s.secOff e.fd e.layer j .done)
    (z.1 ++ [(e.ga + j * 2 ^ 34, s.bankGa e.fd e.layer k j, n)], z.2 - n)) ([], e.len)

/-- Whether a COPY entry names ranges that exist (R580, R586). -/
def State.copyOk (s : State) (e : JobEnt) : Bool :=
  if e.flags = 1 then decide (s.ld e.fd e.layer 0 63 63 = 1 ∧ (s.livePieces e).2 = 0)
  else
    decide (e.len = 0) || (s.rangeOk 48 e.dest e.len && decide (gaRegion e.dest ≤ 2 ∧ e.dest + e.len ≤ 2 ^ 40))

/-- The steps of a COPY entry (DEDUCED, log entry 43). -/
def State.copySteps (s : State) (e : JobEnt) : List CopyStep :=
  if e.flags = 1 then
    .check e.peer e.fd e.layer :: (s.livePieces e).1.map fun p => .move (some e.peer) p.1 p.2.1 p.2.2
  else
    [.move (if e.peer = 0xFFFF ∨ e.peer = s.selfIndex.toNat then none else some e.peer) e.ga e.dest e.len]

/-! ### The command -/

/-- JOB_LOAD's payload out of order (Table 14.27). -/
def State.loadBad (s : State) (c : MbxCmd) : Bool :=
  let p := c.payload
  let ga := field p 8 8
  !(payloadOk p 64 [(48, 16)]) || decide (63 < field p 0 1 ∨ field p 2 2 = 0 ∨ 2 ^ 40 ≤ ga ∨ 48 ≤ gaDie ga) ||
  !(homed ga) || (mapGet none s.xl.ctxs (field p 0 1)).isNone

/-- The domain slot for a directory: of the held domain that a re-load names, or the lower free one; `none` when
there is none (R313, R519). -/
def State.loadSlot (s : State) (x : JobPlan) : Option (Fin 2) :=
  if x.reload then
    (s.slotById x.domId).filter fun d =>
      (s.dom d).hold.active && decide ((s.dom d).ctx = x.ctx ∧ (s.dom d).key = x.key)
  else ([0, 1] : List (Fin 2)).find? fun d => !(s.dom d).loaded

/-- Whether a header is one (Table 14.28), of a directory of its length made against the present map (R318). -/
def State.headerOk (s : State) (b : List Byte) (len : Nat) : Bool :=
  decide (slice b 0 8 = [0x46, 0x47, 0x4A, 0x4F, 0x42, 0x44, 0x52, 0x31]) &&
  decide (field b 8 4 = 1 ∧ 1 ≤ field b 12 4 ∧ field b 12 4 ≤ 4096 ∧ len = 64 + 128 * field b 12 4 ∧
    field b 16 8 = s.capVersion ∧ (field b 24 1 = 0 ∨ field b 24 1 = 1 ∨ field b 24 1 = 3)) && zeros b 25 39

/-- Parts read from device memory; `none` when a byte cannot be read, or a digest does not match (R519). -/
def State.readParts (s : State) : List JobEnt → Option (List JobPart) × State
  | [] => (some [], s)
  | e :: rest =>
    let r := s.foreignRead .controller 0 e.ga e.len 0
    if r.2.1 || decide (Config.sha512 r.1 ≠ e.digest) then (none, r.2.2)
    else
      let z := r.2.2.readParts rest
      (z.1.map fun l => ⟨e.kind, e.target, e.dest, e.aux, r.1⟩ :: l, z.2)

/-- Whether a part lies in this module's device memory. -/
def State.partThere (s : State) (e : JobEnt) : Bool :=
  decide (e.len = 0) || (decide (gaRegion e.ga ≤ 2 ∧ gaDie e.ga < 48) && s.rangeOk 48 e.ga e.len)

/-- A directory accepted: copies, parts, completion (R580). -/
def State.loadNow (s : State) (d : Fin 2) (x : JobPlan) : MbxAns × State :=
  let w := s.readyLines (x.lines ++ copyLinesOf x.todo)
  if w.1 then (.wait, w.2)
  else
    let z := (w.2.setPlan d (some x)).copiesRun d x.ctx x.key.toNat x.todo
    match z.1 with
    | none => (.later (.copies d), z.2)
    | some st => (.done st [] [], z.2.copiesEnd d x st)

/-- The directory of a payload, from its header, entries and parts. -/
def planFrom (s : State) (p dir : List Byte) (es : List JobEnt) (parts : List JobPart) : JobPlan :=
  let copies := es.filter fun e => decide (e.kind = 0x10)
  { ctx := Fin.ofNat 64 (field p 0 1), domId := field p 1 1, key := BitVec.ofNat 16 (field p 2 2),
    seed := BitVec.ofNat 128 (field p 16 16), dkey := BitVec.ofNat 128 (field p 32 16), digest := Config.sha512 dir,
    reload := decide (field dir 24 1 % 2 = 1), restart := decide (field dir 24 1 / 2 = 1), parts := parts,
    todo := copies.flatMap fun e => s.copySteps e,
    dests := (copies.filter fun e => decide (e.flags = 0 ∧ e.len ≠ 0)).map fun e => (e.dest, e.len), undo := [] }

/-- The entries checked, the parts read and checked, then the load (R519). -/
def State.loadParts (s : State) (p dir : List Byte) (foreign : Bool) : MbxAns × State :=
  let es := (recsOf 128 (dir.drop 64)).map jobEnt
  let ps := es.filter fun e => decide (e.kind ≠ 0x10)
  let key := field p 2 2
  if !(es.all fun e => e.ok && (if e.kind = 0x10 then s.copyOk e else s.partThere e)) then (.done 4 [] [], s)
  else
    let w := s.readyLines (ps.flatMap fun e => readyList e.ga e.len false)
    if w.1 then (.wait, w.2)
    else
      let z := w.2.readParts ps
      match z.1 with
      | none => (.done 4 [] [], z.2)
      | some parts =>
        let s := z.2
        let x := planFrom s p dir es parts
        let twice := !x.reload && ((s.slotById x.domId).isSome || ([0, 1] : List (Fin 2)).any fun d =>
          (s.dom d).loaded && decide ((s.dom d).key.toNat = key))
        match s.loadSlot x with
        | none => (.done (if x.reload || twice then 4 else if foreign then 5 else 1) [] [], s)
        | some d =>
          if twice || !(s.planOk d x) then (.done 4 [] [], s)
          else if foreign then (.done 5 [] [], s)
          else s.loadNow d x

/-- Tiles that wait to be fenced for want of voltage are fenced at a job load (R558) (DEDUCED, log entry 48). -/
def State.fenceWeak (s : State) : State :=
  let l := s.fw.weak.map (·.1)
  let s : State := { s with fw := { s.fw with weak := [] } }
  l.foldl (fun s t => s.applyFence ⟨2, t, 0, 0, 0, false⟩) s

/-- JOB_LOAD's own part: one at a time; a tenant loads jobs of its own context only (DEDUCED, log entry 42). -/
def State.loadAct (s : State) (c : MbxCmd) : MbxAns × State :=
  let p := c.payload
  let ga := field p 8 8
  let len := field p 4 4
  let foreign := tenantCmd c && decide (field p 0 1 ≠ (s.mboxCtx c.mb.val).val)
  if s.fw.plans ≠ [] then (.wait, s)
  else
    let s := (if s.pwr.ps = 4 then s.leaveDeep else s).fenceWeak
    if len < 192 ∨ 2 ^ 20 < len ∨ !(s.rangeOk 48 ga len) then (.done 4 [] [], s)
    else
      let w := s.readyLines (readyList ga len false)
      if w.1 then (.wait, w.2)
      else
        let r := w.2.foreignRead .controller 0 ga len 0
        if r.2.1 || !(r.2.2.headerOk r.1 len) then (.done 4 [] [], r.2.2) else r.2.2.loadParts p r.1 foreign

/-- JOB_LOAD's row (Table 14.7). -/
def rowJobLoad : MbxRow := ⟨0x20, true, true, false, false, legalIn true true true false false false, false⟩

/-- JOB_LOAD (R518). -/
def execJobLoad (c : MbxCmd) (s : State) : Host.Outcome State Fault Refusal :=
  .next (s.mbxRun rowJobLoad c (.jobLoad c) (fun s => s.slotById (field c.payload 1 1)) (fun s => s.loadBad c)
    fun s => s.loadAct c)

end Sys2Proof.Machine
end

