-- ==== Sys2Proof/Machine/JobCtl.lean ====
section
/-!
DEFINITION. Commands on jobs: JOB_START, JOB_HOLD, JOB_RESUME, JOB_DRAIN, REPLICA_SET and DIGEST_POLICY (R307, R312,
R413, R495, R521, R522, R583 to R585).
-/

namespace Sys2Proof.Machine

/-- The domain slot that a payload's first byte names. -/
def State.namedDom (s : State) (c : MbxCmd) : Option (Fin 2) := s.slotById (field c.payload 0 1)

/-- Whether a tenant names another context's domain. -/
def State.foreignDom (s : State) (c : MbxCmd) (d : Fin 2) : Bool :=
  tenantCmd c && decide ((s.dom d).ctx ≠ s.mboxCtx c.mb.val)

/-! ### JOB_START -/

/-- JOB_START's payload out of order (R521, Table 14.31). Whether its domain is loaded is looked at after the
module's state (R492). -/
def State.startBad (s : State) (c : MbxCmd) : Bool :=
  let f := field c.payload 8 8
  !(payloadOk c.payload 64 [(1, 7), (20, 44)]) || decide (f % 65536 ≠ 0) ||
  (match s.namedDom c with
   | none => false
   | some d => decide (f < s.ftc + s.holdLead d.val))

/-- A tile and its die woken for a job. -/
def State.wakeFor (s : State) (t : TileId) : State := (s.wakeDie (tileDie t)).wakeTile t

/-- The domain starts (R314, R319, R521): shift 0, and every stream at its first word with STEP0 and START_FTC. -/
def State.startDom (s : State) (d : Fin 2) (f : Nat) (step0 : BitVec 32) : State :=
  let s := (s.setDom d { s.dom d with started := true, start := f, step0 := step0, stepNo := 0 }).setDomField d.val 8 63 0 0
  let s := (s.dom d).firsts.foldl (fun s e =>
    (s.seqBegin d (tileOf e.1) ⟨step0, (e.2.getD 0).setWidth 48, f / 65536⟩).wakeFor (tileOf e.1)) s
  let s := (s.showHold d).showMode d
  if s.modState = 4 then s.toState 5 else s.showState

/-- JOB_START's own part: BUSY while time is not locked, or another domain is out of hold (R307, R312). -/
def State.startAct (s : State) (c : MbxCmd) : MbxAns × State :=
  match s.namedDom c with
  | none => (.done 4 [] [], s)
  | some d =>
    let o : Fin 2 := if d = 0 then 1 else 0
    if (s.dom d).started then (.done 4 [] [], s)
    else if s.foreignDom c d then (.done 5 [] [], s)
    else if s.timeField 53 52 ≠ 2 ∨ ((s.dom o).started ∧ !(s.dom o).hold.active) then (.done 1 [] [], s)
    else (.done 0 [] [], s.startDom d (field c.payload 8 8) (BitVec.ofNat 32 (field c.payload 16 4)))

/-- JOB_START's row (Table 14.7). -/
def rowJobStart : MbxRow := ⟨0x21, true, true, false, false, legalIn true true true false false false, false⟩

/-- JOB_START (R521). -/
def execJobStart (c : MbxCmd) (s : State) : Host.Outcome State Fault Refusal :=
  .next (s.mbxRun rowJobStart c (.jobStart c) (fun s => s.namedDom c) (fun s => s.startBad c) fun s => s.startAct c)

/-! ### JOB_HOLD and JOB_RESUME -/

/-- The domain slot that a payload's first byte names, when it has started. -/
def State.runningDom (s : State) (c : MbxCmd) : Option (Fin 2) :=
  (s.namedDom c).filter fun d => (s.dom d).started

/-- A payload out of order that uses `n` bytes (Table 14.9). -/
def domBad (c : MbxCmd) (n : Nat) : Bool := !(payloadOk c.payload 64 [(n, 64 - n)])

/-- JOB_HOLD's own part: it completes when the hold has begun, with B (DEDUCED, log entry 46). -/
def State.jobHoldAct (s : State) (c : MbxCmd) : MbxAns × State :=
  match s.runningDom c with
  | none => (.done 4 [] [], s)
  | some d =>
    if s.foreignDom c d then (.done 5 [] [], s)
    else
      let h := (s.dom d).hold
      let s := if h.active && h.reqs.any (fun r => decide (r.bit = 1)) then s
        else s.requestHold d .jobHold 0 (decide (field c.payload 1 1 = 1))
      if h.active then (.done 0 (leBytes 8 h.b) [], s) else (.later (.held d), s)

/-- JOB_HOLD's row (Table 14.7). -/
def rowJobHold : MbxRow := ⟨0x22, true, true, true, true, legalIn false true true true false false, false⟩

/-- JOB_HOLD (R334, Table 9.6). -/
def execJobHold (c : MbxCmd) (s : State) : Host.Outcome State Fault Refusal :=
  .next (s.mbxRun rowJobHold c (.jobHold c) (fun s => s.namedDom c)
    (fun _ => domBad c 2 || decide (1 < field c.payload 1 1)) fun s => s.jobHoldAct c)

/-- Units that had begun and not committed when a hold began (R584): a tile of each is past its start in the
present step. -/
def State.unitsCut (s : State) (d : Fin 2) : List RepUnit :=
  let x := s.dom d
  x.units.filter fun r => !(x.done.contains r.id) &&
    (s.jobTiles d).any fun t => r.tiles.getLsbD t.val &&
      (s.tile t).seq.marks.any fun m => decide (m.unit = r.id ∧ m.step.toNat = s.jobStep d)

/-- After a time-loss hold, units that had not committed run again from their start in dynamic mode (R332, R584):
each tile from the earliest of them that it had begun. -/
def State.rerunCut (s : State) (d : Fin 2) : State :=
  let us := s.unitsCut d
  if us = [] then s
  else
    let x := s.dom d
    let h := x.hold
    let s := us.foldl (fun s r => (s.unitLayers x.ctx r.id).foldl (fun s e => s.repeatLayer e.1 e.2) s) s
    let s := (s.jobTiles d).foldl (fun s t =>
      match ((s.tile t).seq.marks.reverse).find? fun m => us.any fun r => decide (r.id = m.unit) && r.tiles.getLsbD t.val with
      | none => s
      | some m => s.repeatTile m.unit t) s
    let s := s.setDom d { s.dom d with decided := none, dyn := .repeated (us.map (·.id)) }
    s.setHold d { h with reqs := (h.reqs.filter fun r => decide (r.bit ≠ 2)) ++ [(⟨2, false, h.b, 0, none⟩ : HoldReq)] }

/-- JOB_RESUME's own part (R413, R583, Table 9.6): it ends a JOB_HOLD hold, and a time-loss hold once time is locked
again. -/
def State.resumeAct (s : State) (c : MbxCmd) : MbxAns × State :=
  match s.runningDom c with
  | none => (.done 4 [] [], s)
  | some d =>
    let lost := (s.dom d).hold.active && (s.dom d).hold.reqs.any fun r => decide (r.bit = 6 ∧ r.ends = none)
    let f := frameUp (s.ftc + s.holdLead d.val)
    if s.foreignDom c d then (.done 5 [] [], s)
    else if s.skewHeld d then (.done 0x0A [] [], s)
    else
      let s := s.letEnd d 1 f
      (.done 0 [] [], if lost ∧ s.timeField 53 52 = 2 then (s.rerunCut d).letEnd d 6 f else s)

/-- JOB_RESUME's row (Table 14.7). -/
def rowJobResume : MbxRow := ⟨0x23, true, true, true, true, legalIn false true true false false false, false⟩

/-- JOB_RESUME (Table 14.9). -/
def execJobResume (c : MbxCmd) (s : State) : Host.Outcome State Fault Refusal :=
  .next (s.mbxRun rowJobResume c (.jobResume c) (fun s => s.namedDom c) (fun _ => domBad c 1) fun s => s.resumeAct c)

/-! ### JOB_DRAIN -/

/-- JOB_DRAIN's own part (R585, Table 14.9): in an open-ended hold the domain ends at once; else at the end of its
step. -/
def State.drainAct (s : State) (c : MbxCmd) : MbxAns × State :=
  match s.namedDom c with
  | none => (.done 4 [] [], s)
  | some d =>
    let x := s.dom d
    if s.foreignDom c d then (.done 5 [] [], s)
    else if !x.started || (x.hold.active && x.hold.reqs.any fun r => decide (r.frames = 0 ∧ s.reqB d.val r ≤ s.ftc)) then
      (.done 0 [] [], s.endDomain d)
    else (.later (.ended d), (s.setDom d { x with draining := some (s.stepBoundary d (s.ftc + 1) - s.shift d.val) }).toState 7)

/-- A draining domain ends with its step (Table 14.9): at the commit of the step's last unit, or at a frame
boundary from the step's end in schedule time on, once no tile is still in the step and no unit of it awaits its
commit (DEDUCED, log entry 58). -/
def State.drainTick (s : State) (d : Fin 2) : State :=
  let x := s.dom d
  match x.draining with
  | none => s
  | some e =>
    let past (t : TileId) : Bool := !(s.tile t).seq.running || decide (e ≤ (s.tile t).seq.stepBase * 65536)
    if x.started && !x.hold.active && decide (s.ftc % 65536 = 0 ∧ e ≤ s.sched d.val) && x.decided.isNone &&
        decide (s.unitsCut d = []) && (s.jobTiles d).all past then
      s.endDomain d
    else s

/-- JOB_DRAIN's row (Table 14.7). -/
def rowJobDrain : MbxRow := ⟨0x24, true, true, true, true, legalIn false true true true false false, false⟩

/-- JOB_DRAIN (Table 14.9). -/
def execJobDrain (c : MbxCmd) (s : State) : Host.Outcome State Fault Refusal :=
  .next (s.mbxRun rowJobDrain c (.jobDrain c) (fun s => s.namedDom c)
    (fun _ => domBad c 1) fun s => s.drainAct c)

/-! ### Replicas and digests -/

/-- The job that REPLICA_SET is for: a tenant's own, else the one in the lower slot (DEDUCED, log entry 47). -/
def State.replicaDom (s : State) (c : MbxCmd) : Option (Fin 2) :=
  if tenantCmd c then s.slotOf (s.mboxCtx c.mb.val) else ([0, 1] : List (Fin 2)).find? fun d => (s.dom d).loaded

/-- REPLICA_SET's payload out of order (R423, Table 14.32). -/
def replicaBad (c : MbxCmd) : Bool :=
  let p := c.payload
  let n := field p 20 2
  let ga := field p 8 8
  let w := field p 16 2
  !(payloadOk p (32 + 4 * n) [(7, 1), (18, 2), (22, 10)]) ||
  decide (512 < n ∨ field p 0 2 = 0 ∨ 4096 < field p 0 2 ∨ field p 0 2 ≤ field p 2 2 ∨ 4096 ≤ field p 4 2 ∨ field p 6 1 = 0 ∨
    2 ^ 40 ≤ ga ∨ ga % 1024 ≠ 0 ∨ 48 ≤ gaDie ga ∨ 65528 < w ∨ w % 8 ≠ 0) || !(homed ga)

/-- REPLICA_SET's own part (R522): at once while the job's domain is not started, else at the end of its hold. -/
def State.replicaAct (s : State) (c : MbxCmd) : MbxAns × State :=
  match s.replicaDom c with
  | none => (.done 4 [] [], s)
  | some d =>
    if (s.dom d).started then (.done 0 [] [], s.setDom d { s.dom d with replica := some c.payload })
    else (.done 0 [] [], s.replicaApply d c.payload)

/-- REPLICA_SET's row (Table 14.7). -/
def rowReplicaSet : MbxRow := ⟨0x30, true, true, false, false, legalIn true false true false false false, false⟩

/-- REPLICA_SET (R522). -/
def execReplicaSet (c : MbxCmd) (s : State) : Host.Outcome State Fault Refusal :=
  .next (s.mbxRun rowReplicaSet c (.replicaSet c) (fun s => s.replicaDom c) (fun _ => replicaBad c)
    fun s => s.replicaAct c)

/-- DIGEST_POLICY's own part (Table 14.9): from the next step boundary, at once when no domain runs. -/
def State.policyAct (s : State) (c : MbxCmd) : MbxAns × State :=
  let n := field c.payload 0 2
  (.done 0 [] [], if (s.dom 0).started || (s.dom 1).started then { s with fw := { s.fw with policy := some n } }
    else s.setDigestN n)

/-- DIGEST_POLICY's row (Table 14.7). -/
def rowDigestPolicy : MbxRow := ⟨0x31, true, true, false, false, legalIn true true true false false false, false⟩

/-- DIGEST_POLICY (R419, Table 14.9). -/
def execDigestPolicy (c : MbxCmd) (s : State) : Host.Outcome State Fault Refusal :=
  .next (s.mbxRun rowDigestPolicy c (.digestPolicy c) noJob
    (fun _ => !(payloadOk c.payload 64 [(2, 62)]) || decide (1024 < field c.payload 0 2)) fun s => s.policyAct c)

end Sys2Proof.Machine
end

