-- ==== Sys2Proof/Machine/Field.lean ====
section
/-!
DEFINITION. FENCE, UNFENCE_REQUEST and field tests (R495, R576 to R582, R587 to R590, R597).
-/

namespace Sys2Proof.Machine

/-! ### FENCE -/

/-- Identifiers of a unit (R578): how many a grain has, and whether they are in range. -/
def fenceIdsOk (grain a b c : Nat) : Bool :=
  match grain with
  | 0 => decide (a < 48 ∧ b < 12 ∧ c < 128)
  | 1 => decide (a < 48 ∧ b < 12 ∧ c = 0)
  | 2 => decide (a < 576 ∧ b = 0 ∧ c = 0)
  | 3 => decide (a < 48 ∧ b = 0 ∧ c = 0)
  | 4 => decide (a < 8 ∧ b < 2 ∧ c < 64)
  | 5 => decide (a < 8 ∧ b = 0 ∧ c = 0)
  | _ => false

/-- A unit that a payload names: grain and identifiers (R578). -/
def fenceUnit (p : List Byte) : FenceEnt := ⟨field p 0 1, field p 4 2, field p 6 2, field p 8 2, 0, false⟩

/-- FENCE's payload out of order (R578). -/
def fenceBad (c : MbxCmd) : Bool :=
  let f := fenceUnit c.payload
  !(payloadOk c.payload 64 [(1, 3), (10, 54)]) || !(fenceIdsOk f.grain f.a f.b f.c)

/-- Whether a FENCE has nothing to do (R495): the unit is fenced itself, or it would be a ninth column of an array
that is fenced whole. -/
def State.fenceThere (s : State) (f : FenceEnt) : Bool :=
  s.isFenced f.grain f.a f.b f.c ||
  (decide (f.grain = 0) &&
    (let t := tileOf (f.a * 12 + f.b)
     s.arrayFenced t && decide (8 ≤ (s.fencedCols t).length)))

/-- Whether a started job has a tile. -/
def State.domTile (s : State) (d : Fin 2) (t : Nat) : Bool :=
  let x := s.dom d
  (mapGet none x.firsts t).isSome || decide (mapGet (⟨0, 0, 0⟩ : PlanEnt) x.plan t ≠ ⟨0, 0, 0⟩)

/-- Whether a unit belongs to a started job (R578): its tile, a tile or mapped memory of its die; a port and its
lanes belong to every started job (DEDUCED, log entry 50). -/
def State.domUnit (s : State) (d : Fin 2) (f : FenceEnt) : Bool :=
  (s.dom d).started &&
  (match f.grain with
   | 0 => s.domTile d (f.a * 12 + f.b)
   | 1 => s.domTile d (f.a * 12 + f.b)
   | 2 => s.domTile d f.a
   | 3 => ((List.range 12).any fun i => s.domTile d (f.a * 12 + i)) || (s.mappers f.a).contains (s.dom d).ctx
   | _ => true)

/-- A hot fence noted for the hold that it requests (R579). -/
def State.hotUnit (s : State) (d : Fin 2) (f : FenceEnt) : State :=
  let x := s.dom d
  (s.setDom d { x with fences := x.fences ++ [(f.grain, f.a, f.b, f.c)] }).requestHold d .hotFence 0 false

/-- A hot fence inside another open-ended hold (R581): it joins that hold and applies at once. -/
def State.hotNow (s : State) (d : Fin 2) (f : FenceEnt) : State :=
  ((s.askHold d ⟨4, false, (s.dom d).hold.b, 0, none⟩).2).fenceHot d f

/-- FENCE's own part (R495, R578): at once for a unit of no started job, else as a hot fence. -/
def State.fenceAct (s : State) (c : MbxCmd) : MbxAns × State :=
  let f := fenceUnit c.payload
  if s.fenceThere f then (.done 0 (leBytes 8 s.capVersion) [], s)
  else
    match ([0, 1] : List (Fin 2)).find? fun d => s.domUnit d f with
    | none =>
      let s := s.fenceArray f
      (.done 0 (leBytes 8 s.capVersion) [], s)
    | some d =>
      let h := (s.dom d).hold
      if h.active && h.reqs.any (fun r => s.openEnded d r) then
        let s := s.hotNow d f
        (.done 0 (leBytes 8 s.capVersion) [], s)
      else (.later (.fenced d), s.hotUnit d f)

/-- FENCE's row (Table 14.7). -/
def rowFence : MbxRow := ⟨0x50, true, false, true, true, legalIn true true true true true false, false⟩

/-- FENCE (R495, R578). -/
def execFence (c : MbxCmd) (s : State) : Host.Outcome State Fault Refusal :=
  .next (s.mbxRun rowFence c (.fence c) noJob (fun _ => fenceBad c) fun s => s.fenceAct c)

/-! ### What a test leaves -/

/-- A tile after test programs (R590): what they leave in its memory and registers is open (DEDUCED, log entry 51). -/
def State.testWear (s : State) (t : TileId) : State :=
  let z := s.frees (2 ^ 19)
  let s := z.2.putBytes (tmGa t 0) (z.1.flatMap fun w => leBytes 8 w.toNat)
  (s.clearCovered [(tmGa t 0, 2 ^ 22)]).tileForgets t

/-- The module passes through SERVICE (Table 14.4): from READY into it and back, once the test is over. -/
def State.testOver (s : State) : State := if s.modState = 8 then s.toState 4 else s

/-- Into SERVICE from READY. -/
def State.testBegins (s : State) : State := if s.modState = 4 then s.toState 8 else s

/-! ### UNFENCE_REQUEST -/

/-- Tiles of a unit of grains 0 to 3. -/
def fenceTiles (f : FenceEnt) : List Nat :=
  match f.grain with
  | 2 => [f.a]
  | 3 => (List.range 12).map fun i => f.a * 12 + i
  | _ => [f.a * 12 + f.b]

/-- A field-test package slot. -/
def State.testPkg (s : State) (k : Nat) : Option TestPkg := mapGet none s.evt.pkgs k

/-- Bytes of a package. -/
def TestPkg.bytes (x : TestPkg) (o n : Nat) : List Byte := (List.range n).map fun i => mapGet 0 x.data (o + i)

/-- PKG_ID of a package (Table 16.11). -/
def TestPkg.id (x : TestPkg) : BitVec 64 := BitVec.ofNat 64 (leNat (x.bytes 16 8))

/-- Whether a package with a PKG_ID is loaded and accepted. -/
def State.pkgLoaded (s : State) (id : BitVec 64) : Bool :=
  s.evt.pkgs.any fun e => e.2.any fun x => x.accepted && decide (x.id = id)

/-- UNFENCE_REQUEST's own part (R582), given whether every run passes: a unit that is not fenced needs nothing; a
tripped die comes back by reset only; a convicting package must be loaded. -/
def State.unfenceAct (s : State) (c : MbxCmd) (pass : Bool) : MbxAns × State :=
  let f := fenceUnit c.payload
  match s.fences.find? fun e => decide (e.grain = f.grain ∧ e.a = f.a ∧ e.b = f.b ∧ e.c = f.c) with
  | none => (.done 0 [] [], s)
  | some e =>
    if (e.grain = 3 ∧ (s.die e.a).tripped) ∨ (e.pkg ≠ 0 ∧ !(s.pkgLoaded e.pkg)) then (.done 0x0B [] [], s)
    else
      let s := (fenceTiles e).foldl (fun s t => s.testWear (tileOf t)) s.testBegins
      if pass then (.done 0 [] [], (s.liftFence e).testOver) else (.done 0x0B [] [], s.testOver)

/-- UNFENCE_REQUEST's row (Table 14.7). -/
def rowUnfence : MbxRow := ⟨0x51, true, false, true, true, legalIn true false false false true false, false⟩

/-- UNFENCE_REQUEST (R582). -/
def execUnfenceRequest (c : MbxCmd) (pass : Bool) (s : State) : Host.Outcome State Fault Refusal :=
  .next (s.mbxRun rowUnfence c (.unfenceRequest c pass) noJob
    (fun _ => fenceBad c || decide (3 < (fenceUnit c.payload).grain)) fun s => s.unfenceAct c pass)

/-! ### Packages -/

/-- Whether an entry of a package is in order (Table 16.12), in a package of some length. -/
def pkgEntryOk (total : Nat) (e : List Byte) : Bool :=
  decide (field e 0 1 ≤ 1 ∧ field e 8 4 + field e 12 4 + 132 ≤ total ∧
    (field e 32 4 = 0 ∨ field e 32 4 + field e 36 4 + 132 ≤ total)) && zeros e 1 3 && zeros e 40 24

/-- The entries of a package. -/
def TestPkg.entries (x : TestPkg) : List (List Byte) :=
  (List.range (leNat (x.bytes 12 4))).map fun i => x.bytes (512 + 64 * i) 64

/-- Whether a package's header and entries are in order (R587, R588). -/
def TestPkg.formOk (x : TestPkg) : Bool :=
  let h := x.bytes 0 512
  decide (h.take 8 = [0x46, 0x47, 0x54, 0x41, 0x44, 0x50, 0x4C, 0x31]) &&
  decide (field h 8 4 = 1 ∧ 1 ≤ field h 12 4 ∧ field h 12 4 ≤ 256 ∧ field h 32 1 ≤ 4 ∧ field h 33 1 ≤ 1 ∧
    field h 36 4 = x.total ∧ 512 + 64 * field h 12 4 + 132 ≤ x.total ∧
    (field h 24 8 = 0 ∨ field h 24 8 = Config.serial.toNat)) &&
  zeros h 34 2 && zeros h 56 8 && zeros h 197 3 && zeros h 332 180 &&
  (decide (field h 32 1 = 0) || (zeros h 64 133 && zeros h 200 132)) && x.entries.all (pkgEntryOk x.total)

/-- Whether a package's signature verifies under a key that may sign it (R588). -/
def State.pkgSigned (s : State) (x : TestPkg) : Bool :=
  let h := x.bytes 0 512
  let body := x.bytes 0 (x.total - 132)
  let sig := x.bytes (x.total - 132) 132
  match s.fw.images with
  | none => false
  | some im =>
    if field h 32 1 = 0 then
      let root := slice (s.bankBytes im.dev im.bank 0 448) 32 133
      decide (Config.sha512 root = Config.rootHash) && Config.verifies root (slice h 64 136) (slice h 200 132) &&
        Config.verifies (slice h 64 133) body sig
    else im.owners.any fun o => decide (o.slot + 1 = field h 32 1 ∧ o.perms % 2 = 1) && Config.verifies o.pub body sig

/-- Bytes of the store that are free (R589). -/
def State.pkgRoom (s : State) : Nat :=
  s.pkgMib * 2 ^ 20 - s.evt.pkgs.foldl (fun n e => n + (e.2.elim 0 fun x => x.total)) 0

/-- A package slot replaced. -/
def State.setPkg (s : State) (k : Nat) (x : Option TestPkg) : State :=
  { s with evt := { s.evt with pkgs := mapSet none s.evt.pkgs k x } }

/-- A payload of TEST_PACKAGE_LOAD with another OP, a slot that does not exist, or reserved bytes set (R589). -/
def pkgBad (c : MbxCmd) (op n : Nat) : Bool :=
  let p := c.payload
  !(payloadOk p n [(2, 2), (12, 4), (24, 40)]) || decide (field p 0 1 ≠ op ∨ 15 < field p 1 1)

/-- TEST_PACKAGE_LOAD's row (Table 14.7). -/
def rowTestPackage : MbxRow := ⟨0x53, true, false, true, true, legalIn true true true true true false, false⟩

/-- BEGIN (R589): it frees what the slot held; BUSY when the package does not fit. -/
def State.pkgBegin (s : State) (c : MbxCmd) : MbxAns × State :=
  let k := field c.payload 1 1
  let n := field c.payload 8 4
  let t := s.setPkg k none
  if t.pkgRoom < n then (.done 1 [] [], s) else (.done 0 [] [], t.setPkg k (some ⟨n, [], false⟩))

/-- TEST_PACKAGE_BEGIN (R589): TOTAL is at most 64 MiB (Table 16.11). -/
def execTestPackageBegin (c : MbxCmd) (s : State) : Host.Outcome State Fault Refusal :=
  .next (s.mbxRun rowTestPackage c (.testPackageBegin c) noJob
    (fun _ => pkgBad c 0 64 || decide (2 ^ 26 < field c.payload 8 4)) fun s => s.pkgBegin c)

/-- Bytes that a DATA operation brings (Table 14.13): those inline, or, from device memory, those at a GA. -/
def State.dataBytes (s : State) (c : MbxCmd) (device : Bool) : List Byte × Bool × State :=
  let n := field c.payload 8 4
  if device then s.foreignRead .controller 0 (field c.payload 16 8) n 0
  else ((c.payload.drop 64).take n, false, s)

/-- Whether a DATA operation's source is in order: inline up to 4,032 bytes, or on MBX0 a range of die SRAM. -/
def State.dataBad (s : State) (c : MbxCmd) (device : Bool) : Bool :=
  let p := c.payload
  let n := field p 8 4
  let ga := field p 16 8
  if device then
    decide (c.mb ≠ 0 ∨ p.length ≠ 64 ∨ 2 ^ 40 ≤ ga ∨ gaRegion ga ≠ 1) || (decide (n ≠ 0) && !(s.rangeOk 48 ga n))
  else decide (4032 < n ∨ p.length ≠ 64 + n)

/-- Whether the bytes of a package come from device memory: it names a GA (DEDUCED, log entry 33). -/
def pkgDevice (c : MbxCmd) : Bool := decide (field c.payload 16 8 ≠ 0)

/-- DATA (R589). -/
def State.pkgData (s : State) (c : MbxCmd) : MbxAns × State :=
  let p := c.payload
  let k := field p 1 1
  let dev := pkgDevice c
  match s.testPkg k with
  | none => (.done 4 [] [], s)
  | some x =>
    let w := s.readyLines (if dev then readyList (field p 16 8) (field p 8 4) false else [])
    if w.1 then (.wait, w.2)
    else
      let r := w.2.dataBytes c dev
      if r.2.1 then (.done 0x0B [] [], r.2.2)
      else
        let data := ((List.range r.1.length).zip r.1).foldl (fun m e => mapSet 0 m (field p 4 4 + e.1) e.2) x.data
        (.done 0 [] [], r.2.2.setPkg k (some ⟨x.total, data, false⟩))

/-- DATA's payload out of order: a slot without a reservation, or bytes beyond its length (R589). -/
def State.pkgDataBad (s : State) (c : MbxCmd) : Bool :=
  let p := c.payload
  pkgBad c 1 p.length || s.dataBad c (pkgDevice c) ||
  ((s.testPkg (field p 1 1)).elim true fun x => decide (x.total < field p 4 4 + field p 8 4))

/-- TEST_PACKAGE_DATA (R589). -/
def execTestPackageData (c : MbxCmd) (s : State) : Host.Outcome State Fault Refusal :=
  .next (s.mbxRun rowTestPackage c (.testPackageData c) noJob (fun s => s.pkgDataBad c) fun s => s.pkgData c)

/-- COMMIT (R588, R589). -/
def State.pkgCommit (s : State) (c : MbxCmd) : MbxAns × State :=
  match s.testPkg (field c.payload 1 1) with
  | none => (.done 4 [] [], s)
  | some x =>
    if x.formOk && s.pkgSigned x then (.done 0 [] [], s.setPkg (field c.payload 1 1) (some { x with accepted := true }))
    else (.done 5 [] [], s)

/-- TEST_PACKAGE_COMMIT (R588, R589). -/
def execTestPackageCommit (c : MbxCmd) (s : State) : Host.Outcome State Fault Refusal :=
  .next (s.mbxRun rowTestPackage c (.testPackageCommit c) noJob
    (fun s => pkgBad c 2 64 || (s.testPkg (field c.payload 1 1)).isNone) fun s => s.pkgCommit c)

/-- TEST_PACKAGE_DELETE (R589). -/
def execTestPackageDelete (c : MbxCmd) (s : State) : Host.Outcome State Fault Refusal :=
  .next (s.mbxRun rowTestPackage c (.testPackageDelete c) noJob (fun _ => pkgBad c 3 64)
    fun s => (.done 0 [] [], s.setPkg (field c.payload 1 1) none))

/-! ### TEST_RUN -/

/-- Fields of a TEST_RUN payload (Table 16.13). -/
def testTiles (p : List Byte) : List Nat :=
  let m := BitVec.ofNat 576 (field p 8 72)
  (List.range 576).filter fun t => m.getLsbD t
def testFlag (p : List Byte) (k : Nat) : Bool := (field p 1 1).testBit k

/-- Bytes that an entry leaves at OUT_GA (R590): two lanes and its output bytes, padded to 64. -/
def entryOut (e : List Byte) : Nat := (16 + (if field e 32 4 = 0 then 0 else field e 36 4) + 63) / 64 * 64

/-- The entries that a slot runs; those of the standard suite are not given. -/
def State.testEntries (s : State) (slot : Nat) : List (List Byte) := ((s.testPkg slot).map (·.entries)).getD []

/-- TEST_RUN's payload out of order (Table 16.13): a package that is not accepted, a place that does not exist. -/
def State.testBad (s : State) (c : MbxCmd) : Bool :=
  let p := c.payload
  let slot := field p 0 1
  let n := (testTiles p).length * ((s.testEntries slot).map entryOut).foldl (· + ·) 0
  !(payloadOk p 128 [(4, 4), (88, 40)]) ||
  decide ((15 < slot ∧ slot ≠ 0xFF) ∨ 7 < field p 1 1 ∨ field p 2 2 = 0 ∨ 1000 < field p 2 2) ||
  (decide (slot ≤ 15) && !((s.testPkg slot).any (·.accepted))) ||
  (testFlag p 1 && (if c.mb = 0 then
      decide (2 ^ 40 ≤ field p 80 8 ∨ gaRegion (field p 80 8) ≠ 1) || (decide (n ≠ 0) && !(s.rangeOk 48 (field p 80 8) n))
    else decide (256 < (testTiles p).length * (s.testEntries slot).length)))

/-- The two lanes of an entry and its output bytes (R590): as the package expects them on a tile that passed, open
on one that failed. -/
def State.entryBytes (s : State) (x : Option TestPkg) (e : List Byte) (failed : Bool) : List Byte × State :=
  let n := if field e 32 4 = 0 then 0 else field e 36 4
  if failed then
    let z := s.frees ((16 + n + 7) / 8)
    ((z.1.flatMap fun w => leBytes 8 w.toNat).take (16 + n), z.2)
  else (slice e 16 16 ++ (x.elim [] fun y => y.bytes (field e 32 4) n), s)

/-- Records of the tiles in turn: the bytes for OUT_GA, the lanes alone. -/
def State.testRecord (s : State) (x : Option TestPkg) (es : List (List Byte)) (tiles : List (Nat × Bool)) :
    List Byte × List Byte × State :=
  (tiles.flatMap fun t => es.map fun e => (e, t.2)).foldl (fun (z : List Byte × List Byte × State) e =>
    let r := z.2.2.entryBytes x e.1 e.2
    (z.1 ++ slice r.1 0 (entryOut e.1), z.2.1 ++ r.1.take 16, r.2)) ([], [], s)

/-- The physical column behind a logical one (R106). -/
def State.physCol (s : State) (t : TileId) (c : Nat) : Nat :=
  ((List.range 128).filter fun k => !((s.fencedCols t).contains k)).getD c 127

/-- A tile that failed (R590): record 0x8002 with PKG_ID, entry and lowest failing column; with FENCE_ON_FAIL the tile
is fenced, or the column alone in which every failing element lies. Which entry failed is open. -/
def State.testFail (s : State) (p : List Byte) (x : Option TestPkg) (t : Nat) (col : Option Nat) : State :=
  let z := s.free
  let n := max 1 ((x.map fun y => y.entries.length).getD 1)
  let id := (x.map fun y => y.id.toNat).getD 0
  let s := z.2.raise { cls := .contained, code := 0x8002, die := t / 12, kind := 10, inst := 0, ctx := 0, tile := some (tileOf t),
                       location := 0, step := 0, layer := 0,
                       detail := id + z.1.toNat % n * 2 ^ 64 + col.getD 0 % 128 * 2 ^ 72 }
  let column := x.any fun y => decide (leNat (y.bytes 33 1) = 1)
  if !(testFlag p 0) then s
  else
    match col with
    | some k =>
      if column ∧ (s.fencedCols (tileOf t)).length < 8 then
        s.applyFence ⟨0, t / 12, t % 12, s.physCol (tileOf t) k, BitVec.ofNat 64 id, false⟩
      else s.applyFence ⟨2, t, 0, 0, BitVec.ofNat 64 id, false⟩
    | none => s.applyFence ⟨2, t, 0, 0, BitVec.ofNat 64 id, false⟩

/-- TEST_RUN's own part (R590, Table 14.9), given which of the tiles failed and in which column, and the time. -/
def State.testAct (s : State) (c : MbxCmd) (failed : List (Nat × Option Nat)) (ms : BitVec 32) : MbxAns × State :=
  let p := c.payload
  let tiles := (testTiles p).filter fun t => !(s.tileOut (tileOf t))
  let x := s.testPkg (field p 0 1)
  let es := s.testEntries (field p 0 1)
  let bad := failed.filter fun e => tiles.contains e.1
  let busy := decide (s.modState = 5 ∨ s.modState = 6) && tiles.any fun t =>
    ([0, 1] : List (Fin 2)).any fun d => (s.dom d).loaded && s.domTile d t
  let ga := field p 80 8
  let record := testFlag p 1
  let n := tiles.length * (es.map entryOut).foldl (· + ·) 0
  if busy then (.done 1 [] [], s)
  else
    let w := s.readyLines (if record ∧ c.mb = 0 then readyList ga n true else [])
    if w.1 then (.wait, w.2)
    else
      let before := w.2.fences.length
      let s := tiles.foldl (fun s t => s.testWear (tileOf t)) w.2.testBegins
      let z := s.testRecord x es (tiles.map fun t => (t, bad.any fun e => decide (e.1 = t)))
      let s := if record ∧ c.mb = 0 then z.2.2.foreignWrite 0 ga z.1 0 false else z.2.2
      let s := bad.foldl (fun s e => s.testFail p x e.1 e.2) s
      let res := leBytes 2 tiles.length ++ leBytes 2 bad.length ++ leBytes 2 (s.fences.length - before) ++ leBytes 2 0 ++
        leBytes 4 ms.toNat
      (.done 0 res (if record ∧ c.mb = 8 then z.2.1 else []), s.testOver)

/-- TEST_RUN's row (Table 14.7). -/
def rowTestRun : MbxRow := ⟨0x52, true, false, true, true, legalIn true true true false true false, false⟩

/-- TEST_RUN (R590). -/
def execTestRun (c : MbxCmd) (failed : List (Nat × Option Nat)) (elapsedMs : BitVec 32) (s : State) :
    Host.Outcome State Fault Refusal :=
  .next (s.mbxRun rowTestRun c (.testRun c failed elapsedMs) noJob (fun s => s.testBad c)
    fun s => s.testAct c failed elapsedMs)

end Sys2Proof.Machine
end

