-- ==== Sys2Proof/Machine/Shed.lean ====
section
/-!
DEFINITION. Staging and shedding firmware: FW_STAGE, FW_SHED and the switch (R506 to R510).
-/

namespace Sys2Proof.Machine

/-! ### FW_STAGE -/

/-- A payload of FW_STAGE with another OP or reserved bytes set (Table 14.13) (DEDUCED, log entry 52). -/
def stageBad (c : MbxCmd) (op n : Nat) : Bool :=
  !(payloadOk c.payload n [(2, 2), (12, 4), (24, 40)]) || decide (field c.payload 0 1 ≠ op)

/-- FW_STAGE's row (Table 14.7). -/
def rowFwStage : MbxRow := ⟨0x60, true, false, true, true, allLegal, true⟩

/-- The bank that is not active. -/
def State.spareBank (s : State) : Nat := 1 - (s.flashDev 0).selector.active

/-- A bank erased on both devices. -/
def State.eraseBoth (s : State) (bank : Nat) : State := (s.bankErase 0 bank).bankErase 1 bank

/-- The stage session replaced. -/
def State.setStage (s : State) (x : Option Stage) : State := { s with fw := { s.fw with stage := x } }

/-- The shed replaced. -/
def State.setShed (s : State) (x : Option Shed) : State := { s with fw := { s.fw with shed := x } }

/-- BEGIN (R506): BUSY while another mailbox's session is open, or the active bank is on trial. -/
def State.stageBegin (s : State) (c : MbxCmd) : MbxAns × State :=
  if (s.fw.stage.any fun x => decide (x.mb ≠ c.mb)) ∨ (s.flashDev 0).selector.trial then (.done 1 [] [], s)
  else (.done 0 [] [], (s.eraseBoth s.spareBank).setStage (some ⟨c.mb, s.spareBank⟩))

/-- FW_STAGE_BEGIN (R506). -/
def execFwStageBegin (c : MbxCmd) (s : State) : Host.Outcome State Fault Refusal :=
  .next (s.mbxRun rowFwStage c (.fwStageBegin c) noJob (fun _ => stageBad c 0 64) fun s => s.stageBegin c)

/-- What an operation on the open session does: BAD_ARG without one, BUSY when it is another mailbox's (R506). -/
def State.staged (s : State) (c : MbxCmd) (act : Stage → MbxAns × State) : MbxAns × State :=
  match s.fw.stage with
  | none => (.done 4 [] [], s)
  | some x => if x.mb = c.mb then act x else (.done 1 [] [], s)

/-- DATA's payload out of order (Table 14.13). -/
def State.stageDataBad (s : State) (c : MbxCmd) : Bool :=
  let p := c.payload
  stageBad c 1 p.length || decide (1 < field p 1 1 ∨ bankSize < field p 4 4 + field p 8 4) ||
  s.dataBad c (decide (field p 1 1 = 1)) || s.fw.stage.isNone

/-- DATA (R506): the bytes go to both devices. -/
def State.stageData (s : State) (c : MbxCmd) : MbxAns × State :=
  s.staged c fun x =>
    let p := c.payload
    let dev := decide (field p 1 1 = 1)
    let w := s.readyLines (if dev then readyList (field p 16 8) (field p 8 4) false else [])
    if w.1 then (.wait, w.2)
    else
      let r := w.2.dataBytes c dev
      if r.2.1 then (.done 0x0B [] [], r.2.2)
      else (.done 0 [] [], (r.2.2.bankWrite 0 x.bank (field p 4 4) r.1).bankWrite 1 x.bank (field p 4 4) r.1)

/-- FW_STAGE_DATA (R506). -/
def execFwStageData (c : MbxCmd) (s : State) : Host.Outcome State Fault Refusal :=
  .next (s.mbxRun rowFwStage c (.fwStageData c) noJob (fun s => s.stageDataBad c) fun s => s.stageData c)

/-- COMMIT (R456, R506, R509): with every check passed the bank becomes ACTIVE on trial, the session closes and a
pending shed is cancelled. -/
def State.stageCommit (s : State) (c : MbxCmd) : MbxAns × State :=
  s.staged c fun x =>
    let r := match (s.flashDev 0).minVersion with
      | none => Except.error 10
      | some least => s.checkBank 0 x.bank least
    match r with
    | .error code => (.done 0x0B (leBytes 1 code) [], s)
    | .ok im =>
      let s := ([0, 1] : List Nat).foldl (fun s d =>
        s.putSelector d { (s.flashDev d).selector with active := x.bank, trial := true, tries := 0 }) s
      let s := if s.fw.shed.any (·.late) then s.setShed none else s
      (.done 0 (leBytes 4 im.secVer) [], s.setStage none)

/-- FW_STAGE_COMMIT (R506). -/
def execFwStageCommit (c : MbxCmd) (s : State) : Host.Outcome State Fault Refusal :=
  .next (s.mbxRun rowFwStage c (.fwStageCommit c) noJob (fun s => stageBad c 2 64 || s.fw.stage.isNone)
    fun s => s.stageCommit c)

/-- FW_STAGE_ABORT (R506): the bank is erased and the session closes. -/
def execFwStageAbort (c : MbxCmd) (s : State) : Host.Outcome State Fault Refusal :=
  .next (s.mbxRun rowFwStage c (.fwStageAbort c) noJob (fun s => stageBad c 3 64 || s.fw.stage.isNone)
    fun s => s.staged c fun x => (.done 0 [] [], (s.eraseBoth x.bank).setStage none))

/-! ### FW_SHED -/

/-- SHA-512 of what a bank's manifest signs. -/
def State.bankDigest (s : State) (bank : Nat) : BitVec 512 := Config.sha512 (manBytes (s.bankBytes 0 bank))

/-- FW_SHED's payload out of order (R507): reserved bits, or the active bank's manifest is the one running. -/
def State.shedBad (s : State) (c : MbxCmd) : Bool :=
  !(payloadOk c.payload 64 [(1, 63)]) || decide (1 < field c.payload 0 1) ||
  (s.fw.images.any fun im => decide (im.digest = s.bankDigest (s.flashDev 0).selector.active))

/-- Preparation (R507): the active bank's images checked and held; a failure ends a pending shed too (R509). The
command completes when the switch has come, or is put off. -/
def State.shedAct (s : State) (c : MbxCmd) : MbxAns × State :=
  if s.fw.shed.any (!·.late) then (.done 1 [] [], s)
  else
    let r := match (s.flashDev 0).minVersion with
      | none => Except.error 10
      | some least => s.checkBank 0 (s.flashDev 0).selector.active least
    match r with
    | .error code => (.done 0x0B (leBytes 1 code) [], s.setShed none)
    | .ok im => (.later .shed, s.setShed (some ⟨im, decide (field c.payload 0 1 = 1), false, some c, none⟩))

/-- FW_SHED's row (Table 14.7). -/
def rowFwShed : MbxRow := ⟨0x61, true, false, true, true, legalIn true true true true true false, true⟩

/-- FW_SHED (R507). -/
def execFwShed (c : MbxCmd) (s : State) : Host.Outcome State Fault Refusal :=
  .next (s.mbxRun rowFwShed c (.fwShed c) noJob (fun s => s.shedBad c) fun s => s.shedAct c)

/-! ### The switch -/

/-- Registers that name the manifest in force (Tables 13.13 to 13.15) after a switch to it. -/
def State.manifestRegs (s : State) (im : Images) : State :=
  let own := im.owners.foldl (fun n o => n ||| 2 ^ o.slot) 0
  let trial := (s.flashDev 0).selector.trial
  ([48, 49] : List Nat).foldl (fun s f =>
    let s := (List.range 8).foldl (fun s n =>
      s.setReg (regGa f (0x70040 + 8 * n)) (BitVec.ofNat 64 (im.digest.toNat / 2 ^ (64 * n)))) s
    let a := regGa f 0x70000
    let s := ((s.setField a 51 51 im.dev).setField a 50 50 im.bank).setField a 49 49 (if trial then 1 else 0)
    (s.setField (regGa f 0x70008) 63 32 im.secVer).setField (regGa f 0x60000) 59 56 own) s

/-- Slots fetched again on every mailbox. -/
def State.fetchAll (s : State) : State := (List.finRange 8).foldl (fun s m => s.fetchNext m) s

/-- The switch (R507, R510, Table 14.14): the new images run everywhere, the role of system controller passes to the
other die; loaded jobs keep their library. FW_SHED completes, or a shed that had been put off reports (R508). -/
def State.shedSwitch (s : State) (x : Shed) : State :=
  let sc := s.regField (regGa 48 0x50000) 59 59
  let s : State := { s with fw := { s.fw with images := some x.images, shed := none } }
  let s := ((s.setBoth 0x50000 59 59 (1 - sc)).manifestRegs x.images).mbxBump 0x140
  let s := if x.cmd.isSome then s.settleLater .shed 0 (leBytes 4 x.images.secVer ++ leBytes 1 3)
    else s.raiseSc .corrected 0x7005 x.images.secVer
  s.fetchAll

/-- A shed put off (R508): FW_SHED completes with DEFERRED, once. -/
def State.shedDefer (s : State) (x : Shed) : State :=
  let s := (s.setShed (some { x with late := true, cmd := none, since := none })).mbxBump 0x148
  if x.cmd.isSome then s.settleLater .shed 7 [] else s

/-- SHED_SWITCH (R507, R508): once preparation has passed and no command is in progress. -/
def execShedSwitch (s : State) : Host.Outcome State Fault Refusal :=
  .next (
    match s.fw.shed with
    | none => s
    | some x =>
      if !s.fwActs || x.late then s
      else if s.inE2 || s.inE3 then s.shedDefer x
      else if s.fw.later.any fun e => decide (e.2 ≠ .shed) then s
      else s.shedSwitch x)

/-- SHED_AUTO_START (R508): a shed with AUTO that was put off is due for its switch, the level having stayed below
E2 for 1 s. -/
def execShedAutoStart (s : State) : Host.Outcome State Fault Refusal :=
  .next (
    match s.fw.shed with
    | none => s
    | some x =>
      if s.fwActs && x.late && x.auto && !s.inE2 && !s.inE3 && x.since.any (fun f => decide (f + secondFt ≤ s.ftc)) then
        s.setShed (some { x with late := false })
      else s)

end Sys2Proof.Machine
end

