-- ==== Sys2Proof/Machine/Crash.lean ====
section
/-!
DEFINITION. Controllers lost and brought back: WATCHDOG_FIRE (R499 to R505, R509).
-/

namespace Sys2Proof.Machine

/-- Where the losses of a controller are kept: dies, then fabric dies, then the system controller and the deputy. -/
def Ctl.key (k : Ctl) : Nat :=
  match k with
  | .die d => d.val
  | .fabric f => 48 + f.val
  | .system => 52
  | .deputy => 53

/-- Ticks of 20 ms and of 10 minutes. -/
def ft20ms : Nat := 9000000
def ft10min : Nat := 600 * secondFt

/-- FTCs at which a controller was lost, the latest first. -/
def State.lossesOf (s : State) (k : Ctl) : List Nat := mapGet [] s.fw.losses (Ctl.key k)

/-- A loss recorded. -/
def State.lossAt (s : State) (k : Ctl) : State :=
  { s with fw := { s.fw with losses := mapSet [] s.fw.losses (Ctl.key k) ((s.ftc :: s.lossesOf k).take 3) } }

/-- Whether a controller was lost within some ticks before now. -/
def State.lostWithin (s : State) (k : Ctl) (n : Nat) : Bool := (s.lossesOf k).any fun f => decide (s.ftc ≤ f + n)

/-- A controller that is down. -/
def State.markLost (s : State) (k : Ctl) : State := { s with fw := { s.fw with lost := s.fw.lost ++ [k] } }

/-- The system controller's and the deputy's loss (R504): FAULTED, and the role stays vacant. -/
def State.bothLost (s : State) : State :=
  ({ s with pwr := { s.pwr with vacant := true } } : State).raiseSc .fatal 0xF003 0

/-- The lost one of the two system dies is restarted as the deputy (R500); whether it succeeds is open. -/
def State.deputyAgain (s : State) : State :=
  let z := s.free
  let ok := z.1.getLsbD 0
  let s := (z.2.setBoth 0x50000 58 58 (if ok then 1 else 0)).setBoth 0x60000 62 62 (if ok then 1 else 0)
  if ok then s else s.raiseSc .contained 0x7004 0

/-- Whether a command that waits to complete is idempotent (Table 14.7). -/
def laterIdem (k : Later) : Bool :=
  match k with
  | .copies _ => false
  | .shed => false
  | _ => true

/-- A command that is not idempotent undone (R501, R509): it completes with RESTARTED. -/
def State.undoLater (s : State) (k : Later) : State :=
  match k with
  | .copies d =>
    let mine (r : OutReq) : Bool := decide (r.who = .copy d)
    let s : State := { s with fab := { s.fab with reqs := s.fab.reqs.filter fun r => !(mine r) } }
    (s.copiesUndo d).settleLater (.copies d) 8 []
  | .shed => (s.setShed none).settleLater .shed 8 []
  | _ => s

/-- A shed that was about to switch is given up with its controller (R509): one that had been put off before reports
it. -/
def State.shedLost (s : State) : State :=
  match s.fw.shed with
  | none => s
  | some x =>
    if x.late then s
    else if x.cmd.isSome then s.undoLater .shed
    else (s.setShed none).raiseSc .contained 0x7005 x.images.secVer

/-- The deputy takes the role (R500, R501): commands in progress are resolved, an open stage session is undone,
fetching goes on. -/
def State.takeover (s : State) : State :=
  let sc := s.regField (regGa 48 0x50000) 59 59
  let s := s.setBoth 0x50000 59 59 (1 - sc)
  let ks := s.fw.later.map (·.2)
  let s := ks.foldl (fun s k => if laterIdem k then s.mbxBump 0x120 else s.undoLater k) s.shedLost
  let s := match s.fw.stage with
    | none => s
    | some x => (s.eraseBoth x.bank).setStage none
  ((s.mbxBump 0x128).raiseSc .corrected 0x7001 0).fetchAll.deputyAgain

/-- The system controller is lost (R500, R504). -/
def State.systemLost (s : State) : State :=
  let alone := decide (s.regField (regGa 48 0x50000) 58 58 = 0) || s.lostWithin .deputy ft20ms || s.lostWithin .system ft20ms
  let s := s.lossAt .system
  if alone then s.bothLost else s.takeover

/-- The deputy is lost (R500, R504). -/
def State.deputyLost (s : State) : State :=
  let both := s.lostWithin .system ft20ms
  let s := s.lossAt .deputy
  if both then s.bothLost
  else (((s.setBoth 0x50000 58 58 0).setBoth 0x60000 62 62 0).shedLost).deputyAgain

/-- A record of a fabric or die controller (R505): restarted, or not. -/
def State.raiseCtl (s : State) (k : Ctl) (again : Bool) : State :=
  let at_ := match k with
    | .fabric f => (48 + f.val, 9)
    | .die d => (d.val, 10)
    | _ => (48, 8)
  s.raise { cls := if again then .corrected else .contained, code := if again then 0x7002 else 0x7003, die := at_.1,
            kind := at_.2, inst := 0, ctx := 0, tile := none, location := 0, step := 0, layer := 0, detail := 0 }

/-- A fabric controller is lost (R505): restarted, or for the third time in 10 minutes its two ports are fenced. -/
def State.fabricLostCtl (s : State) (f : FdId) : State :=
  let s := (s.lossAt (.fabric f)).shedLost
  let third := decide (3 ≤ ((s.lossesOf (.fabric f)).filter fun t => decide (s.ftc ≤ t + ft10min)).length)
  if third then
    let s := (s.markLost (.fabric f)).raiseCtl (.fabric f) false
    (s.fencePort (2 * f.val)).fencePort (2 * f.val + 1)
  else (s.mbxBump 0x130).raiseCtl (.fabric f) true

/-- The fabric controller that a die controller reports to (R479): CD0 to CD11 FD0, then FD2, FD3 and FD1. -/
def ctlFabric (d : CdId) : FdId :=
  match d.val / 12 with
  | 0 => 0
  | 1 => 2
  | 2 => 3
  | _ => 1

/-- A compute die fenced for want of a controller: with a hot fence when a started job uses it. -/
def State.dieGone (s : State) (d : CdId) : State :=
  let f : FenceEnt := ⟨3, d.val, 0, 0, 0, false⟩
  match ([0, 1] : List (Fin 2)).find? fun k => s.domUnit k f with
  | none => s.applyFence f
  | some k => s.hotUnit k f

/-- A die controller is lost (R505): restarted, unless its fabric controller is down; for the third time in 10 minutes
its die is fenced. -/
def State.dieLostCtl (s : State) (d : CdId) : State :=
  let s := (s.lossAt (.die d)).shedLost
  let third := decide (3 ≤ ((s.lossesOf (.die d)).filter fun t => decide (s.ftc ≤ t + ft10min)).length)
  if third then ((s.markLost (.die d)).raiseCtl (.die d) false).dieGone d
  else if s.fw.lost.contains (.fabric (ctlFabric d)) then s.markLost (.die d)
  else (s.mbxBump 0x138).raiseCtl (.die d) true

/-- WATCHDOG_FIRE (R499 to R505): a controller that is not down already is lost (DEDUCED, log entry 41). -/
def execWatchdogFire (k : Ctl) (s : State) : Host.Outcome State Fault Refusal :=
  .next (
    if !s.fwActs || s.fw.lost.contains k then s
    else
      match k with
      | .system => s.systemLost
      | .deputy => if s.regField (regGa 48 0x50000) 58 58 = 0 ∧ !(s.lostWithin .system ft20ms) then s else s.deputyLost
      | .fabric f => if s.fdTripped f.val then s else s.fabricLostCtl f
      | .die d => if (s.die d.val).tripped then s else s.dieLostCtl d)

end Sys2Proof.Machine
end

