-- ==== Sys2Proof/Machine/RegCmds.lean ====
section
/-!
DEFINITION. Reads and writes of registers that have no row of their own (R5 to R8, R187 to R190): by an engine
of a tile, through its mappings, and by firmware.
-/

namespace Sys2Proof.Machine

/-- Whether a context reaches a global address with loads or with stores (R197, R200, R204): context 0 reaches
every one, another through a mapped page that permits the access. -/
def State.ctxReaches (s : State) (c : CtxId) (ga : Nat) (store : Bool) : Bool :=
  s.ctxOn c &&
  (decide (c = 0) ||
    s.xl.maps.any fun m => decide (m.ctx = c ∧ m.ga ≤ ga ∧ ga < m.ga + (if m.big then 2 ^ 21 else 2 ^ 16)) &&
      (if store then m.w && !m.sro else m.r))

/-- Whether a tile's engine may access a register: the tile runs, the address is a register address that the
checks of R187 and R188 accept, and the context reaches it. -/
def State.regOpen (s : State) (t : TileId) (c : CtxId) (ga : Nat) (k : XKind) : Bool :=
  s.tileOn t && decide (gaRegion ga = 4) && (s.xCause (tileDie t) ga k .plain).isNone &&
    s.ctxReaches c ga (decide (k = .store))

/-- Ports follow their CFG register (Tables 10.16, 12.12): EN = 0 turns one off, EN = 1 starts one that was
off, and TRAIN asks for full training. -/
def State.portFollow (s : State) (l : Nat) (v : Word) : State :=
  if s.regField (linkReg l 0) 0 0 = 0 then s.setLinkState l 0
  else if v.getLsbD 1 then s.trainPort l
  else if s.linkState l = 0 then s.setLinkState l 1
  else s

/-- The link whose CFG register a global address is. -/
def linkOfCfg (ga : Nat) : Option Nat := (List.range 10).find? fun l => decide (linkReg l 0 = ga)

/-- A firmware write of a register of a compute die: barrier contexts (R280) and pinned ranges (R237) follow
it; any other takes its value. -/
def State.fwStoreCompute (s : State) (die : Nat) (ga : Nat) (v : Word) : State :=
  let o := ga % 2 ^ 30
  if o % 0x20 = 0 ∧ barReg die 0 0 ≤ ga ∧ ga < barReg die 32 0 then s.writeBarCfg die ((ga - barReg die 0 0) / 0x20) v
  else
    let s := s.regStore none ga v
    if ga = hcReg die 8 ∨ (hcReg die 0x40 ≤ ga ∧ ga < hcReg die 0x80) then s.pinTidy die else s

/-- A firmware write of a register of a fabric die: module barrier contexts (R290), buckets made invalid (R379),
windows to companion memory (R441) and ports (Tables 10.16, 12.12) follow it; any other takes its value. -/
def State.fwStoreFabric (s : State) (fd : Nat) (ga : Nat) (v : Word) : State :=
  let o := ga % 2 ^ 30
  if mbcReg 0 0 ≤ ga ∧ ga < mbcReg 64 0 ∧ (ga - mbcReg 0 0) % 0x20 = 0 then s.writeMbcCfg ((ga - mbcReg 0 0) / 0x20) v
  else if bktReg fd 0 0 ≤ ga ∧ ga < bktReg fd 256 0 ∧ (ga - bktReg fd 0 0) % 0x40 = 0 ∧ !(v.getLsbD 63) then
    (s.regStore none ga v).bktDrop fd ((ga - bktReg fd 0 0) / 0x40)
  else if fd < 2 ∧ 0x30100 ≤ o ∧ o < 0x30200 then
    let w := (o - 0x30100) / 16
    if o % 16 = 0 then s.setImport w v (s.reg (ga + 8)) else s.setImport w (s.reg (ga - 8)) v
  else
    let s := s.regStore none ga v
    match linkOfCfg ga with
    | some l => s.portFollow l v
    | none => s

/-- A register written by firmware (DESIGN CHOICE, log entry 62). -/
def State.fwStore (s : State) (ga : Nat) (v : Word) : State :=
  let a := ga / 8 * 8
  if gaRegion a ≠ 4 ∨ (regSpecAt a).isNone then s
  else if gaDie a < 48 then (if (s.die (gaDie a)).tripped then s else s.fwStoreCompute (gaDie a) a v)
  else if s.fdTripped (gaDie a - 48) then s
  else s.fwStoreFabric (gaDie a - 48) a v

/-- REGISTER_WRITE (R6 to R8, R188). A write of RED_MC_GO by firmware starts the multicast that it names
(R381). -/
def execRegisterWrite (a : RegAgent) (ga : BitVec 40) (v : Word) (s : State) : Host.Outcome State Fault Refusal :=
  .next (
    if !s.on then s
    else
      match a with
      | .tile t c =>
        if s.regOpen t c ga.toNat .store then s.regStoreBytes (some c.val) (ga.toNat / 8 * 8) (leBytes 8 v.toNat)
        else s
      | .firmware =>
        match (List.finRange 4).find? fun f : FdId => decide (redReg f.val 0x10 = ga.toNat / 8 * 8) with
        | none => s.fwStore ga.toNat v
        | some fd =>
          let r := s.mcGo fd v 0
          match r.1 with
          | some s' => s'
          | none => r.2.wait (.registerWrite .firmware ga v))

/-- A register read by an agent that gets its value: `out` holds it, and RC fields return to their reset values
(R6). -/
def State.readClear (s : State) (ga : Nat) : State :=
  let r := s.regRead (ga / 8 * 8) 8
  r.2.send (.regValue (BitVec.ofNat 40 (ga / 8 * 8)) (BitVec.ofNat 64 (leNat r.1)))

/-- READ_CLEAR_REGISTER (R6). -/
def execReadClearRegister (a : RegAgent) (ga : BitVec 40) (s : State) : Host.Outcome State Fault Refusal :=
  .next (
    if !s.on then s
    else
      match a with
      | .tile t c => if s.regOpen t c ga.toNat .load then s.readClear ga.toNat else s
      | .firmware =>
        if gaRegion ga.toNat = 4 ∧ (regSpecAt (ga.toNat / 8 * 8)).isSome then s.readClear ga.toNat else s)

end Sys2Proof.Machine
end

