-- ==== Sys2Proof/Machine/Service.lean ====
section
/-!
DEFINITION. The service connector: recovery (R474, R622), I3C (R620 to R623), management Ethernet (R617 to R619),
boundary scan (R624, R625).
-/

namespace Sys2Proof.Machine

/-! ### Recovery -/

/-- Length of RECOV_DATA. -/
def recoverySize : Nat := 4 * 2 ^ 20

/-- Whether the recovery path is served (R474, R622): FAULTED because no source could boot. -/
def State.recovers (s : State) : Bool := s.on && decide (s.modState = 9) && s.fw.images.isNone && !s.svc.rescue

/-- RECOVERY_OPEN (R622). -/
def execRecoveryOpen (s : State) : Host.Outcome State Fault Refusal :=
  .next (if s.recovers then { s with svc := { s.svc with recov := (1, 0), image := [] } } else s)

/-- RECOVERY_DATA (R622): bytes outside RECOV_DATA, or outside a recovery, are ignored. -/
def execRecoveryData (off : BitVec 32) (bytes : List Byte) (s : State) : Host.Outcome State Fault Refusal :=
  .next (
    if s.recovers ∧ s.svc.recov.1 = 1 then
      let bs := bytes.take (recoverySize - off.toNat)
      let image := ((List.range bs.length).zip bs).foldl (fun m e => mapSet (0 : Byte) m (off.toNat + e.1) e.2) s.svc.image
      { s with svc := { s.svc with image := image } }
    else s)

/-- n bytes of the recovery image. -/
def State.rescueBytes (s : State) (off n : Nat) : List Byte :=
  (List.range n).map fun i => mapGet (0 : Byte) s.svc.image (off + i)

/-- RECOVERY_CLOSE (R474, R622): checks 1 to 7, then the image runs or is refused. -/
def execRecoveryClose (s : State) : Host.Outcome State Fault Refusal :=
  .next (
    if s.recovers ∧ s.svc.recov.1 = 1 then
      match manCode s.rescueBytes recoverySize true (((s.flashDev 0).minVersion).getD 0) with
      | some c => { s with svc := { s.svc with recov := (4, c) } }
      | none => { s with svc := { s.svc with recov := (3, 0), rescue := true } }
    else s)

/-! ### I3C -/

/-- I3C_WAKE (Table 17.6, R551): WAKE takes the module out of PS5. -/
def execI3cWake (s : State) : Host.Outcome State Fault Refusal :=
  .next (if s.on && decide (s.pwr.ps = 5) then s.leaveDeep else s)

/-- Whether a management address record is valid (Table 17.7). -/
def addrOk (b : List Byte) : Bool :=
  decide (b.length = 64 ∧ field b 16 1 ≤ 128 ∧ field b 17 1 < 8 ∧ field b 18 2 < 4096 ∧ field b 24 1 ≤ 32) &&
  zeros b 25 7 && zeros b 52 12

/-- MGT_ADDR_WRITE (Table 17.7): a record with a reserved bit set or a prefix out of range is ignored whole. -/
def execMgtAddrWrite (p : Fin 2) (bytes : List Byte) (s : State) : Host.Outcome State Fault Refusal :=
  .next (
    if s.on && addrOk bytes then
      { s with svc := { s.svc with addrs := mapSet [] s.svc.addrs p.val bytes } }
    else s)

/-- An IPv6 address from its octets. -/
def ip6Of (l : List Byte) : BitVec 128 := BitVec.ofNat 128 (leNat (slice l 0 16).reverse)

/-- COLLECTOR_WRITE (R571, R621): the default collector, which takes every class (DEDUCED, log entry 24). -/
def execCollectorWrite (bytes : List Byte) (s : State) : Host.Outcome State Fault Refusal :=
  .next (
    if s.on && decide (bytes.length = 18) then
      let old := (s.evt.defColl.map (·.dseq)).getD 0
      let next := (s.evt.defColl.map (·.next)).getD s.evt.logged
      { s with evt := { s.evt with defColl := some ⟨0x0F, ip6Of bytes, BitVec.ofNat 16 (field bytes 16 2), old, next⟩ } }
    else s)

/-- ENEC and the addressing commands (R620, R623). -/
def execEnec (c : I3cCcc) (s : State) : Host.Outcome State Fault Refusal :=
  .next (
    if !s.on then s
    else
      match c with
      | .setdasa a => { s with svc := { s.svc with dyn := some a } }
      | .entdaa a => { s with svc := { s.svc with dyn := some a } }
      | .enec => { s with svc := { s.svc with ibi := true } })

/-! ### Management Ethernet -/

/-- MGT_LINK_CHANGE (R571, R617). -/
def execMgtLinkChange (p : Fin 2) (up : Bool) (s : State) : Host.Outcome State Fault Refusal :=
  .next { s with svc := { s.svc with links := setPut s.svc.links p.val up } }

/-- MAC address of a port (R618). -/
def macOf (p : Fin 2) : BitVec 48 :=
  BitVec.ofNat 48 (0x0A * 2 ^ 40 + (Config.serial.toNat % 2 ^ 39) * 2 + p.val)

/-- Link-local address of a port (R618): from its MAC address under RFC 4291. -/
def linkLocal (p : Fin 2) : BitVec 128 :=
  let m := (macOf p).toNat
  BitVec.ofNat 128 (0xFE80 * 2 ^ 112 + (m / 2 ^ 24) * 2 ^ 40 + 0xFFFE * 2 ^ 24 + m % 2 ^ 24) ^^^ (0x02#128 <<< 56)

/-- Addresses of a port (R618): the record written for it, and what DHCP gave where the record asks for it. -/
def State.ip6s (s : State) (p : Fin 2) : List (BitVec 128) :=
  let r := mapGet [] s.svc.addrs p.val
  let d := (mapGet (⟨none, none⟩ : DhcpSt) s.svc.dhcp p.val).ip6
  let own := ip6Of r
  [linkLocal p] ++ (if own = 0 then [] else [own]) ++
    (if field r 17 1 % 2 = 1 then (d.map fun x => [x.1]).getD [] else [])
def State.ip4s (s : State) (p : Fin 2) : List (BitVec 32) :=
  let r := mapGet [] s.svc.addrs p.val
  let d := (mapGet (⟨none, none⟩ : DhcpSt) s.svc.dhcp p.val).ip4
  let own := BitVec.ofNat 32 (leNat (slice r 20 4).reverse)
  (if own = 0 then [] else [own]) ++ (if field r 17 1 / 2 % 2 = 1 then (d.map fun x => [x.1]).getD [] else [])

/-- What DHCP gave a port, replaced. -/
def State.setDhcp (s : State) (p : Fin 2) (f : DhcpSt → DhcpSt) : State :=
  let d := mapGet (⟨none, none⟩ : DhcpSt) s.svc.dhcp p.val
  { s with svc := { s.svc with dhcp := mapSet ⟨none, none⟩ s.svc.dhcp p.val (f d) } }

/-- MGT_FRAME_RECEIVE (R618, R619): ARP, neighbour discovery and echo for an address of the port are answered;
a DHCP answer is used where the record asks for it; every other frame is discarded. -/
def execMgtFrameReceive (p : Fin 2) (f : MgtFrame) (s : State) : Host.Outcome State Fault Refusal :=
  .next (
    if !s.fwOn then s
    else
      let r := mapGet [] s.svc.addrs p.val
      match f with
      | .arpRequest a => if (s.ip4s p).contains a then s.send (.answer p (macOf p) f) else s
      | .neighbourSolicit a => if (s.ip6s p).contains a then s.send (.answer p (macOf p) f) else s
      | .icmpEcho a _ => if (s.ip4s p).contains a then s.send (.answer p (macOf p) f) else s
      | .icmp6Echo a _ => if (s.ip6s p).contains a then s.send (.answer p (macOf p) f) else s
      | .dhcp4Offer a l g =>
        if field r 17 1 / 2 % 2 = 1 then s.setDhcp p fun d => { d with ip4 := some (a, l, g) } else s
      | .dhcp6Reply a l => if field r 17 1 % 2 = 1 then s.setDhcp p fun d => { d with ip6 := some (a, l) } else s
      | .other => s)

/-! ### Boundary scan -/

/-- BOUNDARY_SCAN (R624, R625): only while MOD_RST_N is low and PWR_OK is high. The contacts that SAMPLE takes
are outside the module: their levels are open. -/
def execBoundaryScan (op : JtagOp) (s : State) : Host.Outcome State Fault Refusal :=
  .next (
    if !s.powered || s.pwr.rst then s
    else
      let ir (k : Nat) (s : State) : State := { s with svc := { s.svc with tap := k } }
      match op with
      | .bypass => (ir 0 s).send (.scan 0)
      | .idcode => (ir 1 s).send (.scan 0x1C480BC7)
      | .samplePreload v =>
        let z := s.free
        (ir 2 { z.2 with svc := { z.2.svc with cells := v } }).send (.scan z.1)
      | .extest v =>
        let z := s.free
        (ir 3 { z.2 with svc := { z.2.svc with cells := v } }).send (.scan z.1)
      | .clamp => (ir 4 s).send (.scan 0)
      | .highz => (ir 5 s).send (.scan 0))

end Sys2Proof.Machine
end

