-- ==== Sys2Proof/Machine/Reports.lean ====
section
/-!
DEFINITION. Delivery of event records: subscriptions and replay (R571 to R573), datagrams, summaries, rings,
the comparison of shadow digests (R594), and the loss of an event engine (R564, R570).
-/

namespace Sys2Proof.Machine

/-! ### Collectors -/

/-- Records in the log from a LOGSEQ up to another, oldest first, with their LOGSEQ (R570). -/
def State.logged (s : State) (lo hi : Nat) : List (Nat × EvtRec) :=
  let n := s.evt.log.length
  let first := s.evt.logged - n
  ((List.range n).zip s.evt.log.reverse).filterMap fun e =>
    let k := first + e.1
    if lo ≤ k ∧ k < hi then some (k, e.2) else none

/-- LOGSEQ of the oldest record still held. -/
def State.oldestSeq (s : State) : Nat := s.evt.logged - s.evt.log.length

/-- The port that datagrams leave on: MGT0, or MGT1 when MGT0 is down (R571). -/
def State.mgtPort (s : State) : Fin 2 := if setHas s.svc.links 0 then 0 else 1

/-- The die whose event engine delivers (R570): the system controller's, or the one left. -/
def State.engineDie (s : State) : Nat :=
  let sc := s.regField (regGa 48 0x50000) 59 59
  48 + if s.evt.lost.any fun k => decide (k.val = sc) then 1 - sc else sc

/-- A datagram of records (Table 16.6). -/
def State.evtDatagram (s : State) (k : Collector) (first : Nat) (rs : List EvtRec) (replay : Bool) : State :=
  let hdr := leBytes 8 Config.serial.toNat ++ leBytes 8 first ++ leBytes 1 rs.length ++ leBytes 1 (if replay then 1 else 0) ++
    leBytes 2 0 ++ leBytes 4 k.dseq.toNat
  (s.send (.datagram s.mgtPort k.addr k.port (hdr ++ rs.flatMap fun r => r.bytes false r.tag))).bump
    (regGa s.engineDie 0x150110) 1

/-- A collector's place: one subscribed through MBXM, or in place 0 the default collector until then (R571). -/
def State.collector (s : State) (i : Nat) : Option Collector :=
  if s.evt.served then mapGet none s.evt.colls i else if i = 0 then s.evt.defColl else none

/-- A collector replaced. -/
def State.setCollector (s : State) (i : Nat) (k : Collector) : State :=
  if s.evt.served then { s with evt := { s.evt with colls := mapSet none s.evt.colls i (some k) } }
  else { s with evt := { s.evt with defColl := some k } }

/-- EVENT_DATAGRAM_SEND (R571): once 22 records wait for a collector, or 1 ms after the oldest of them was
logged. -/
def execEventDatagramSend (coll : Fin 4) (s : State) : Host.Outcome State Fault Refusal :=
  .next (
    match s.collector coll.val with
    | none => s
    | some k =>
      let rs := (s.logged k.next s.evt.logged).filter fun e => classOn k.classes e.2.cls
      let due := decide (22 ≤ rs.length) || (rs.head?.any fun e => decide (e.2.ftc.toNat + 450000 ≤ s.ftc))
      if !s.on || s.evt.lost.length = 2 || !due then s
      else
        let now := rs.take 22
        let next := (now.getLast?.map fun e => e.1 + 1).getD k.next
        let s := s.evtDatagram k ((now.head?.map (·.1)).getD 0) (now.map (·.2)) false
        s.setCollector coll.val { k with dseq := k.dseq + 1, next := next })

/-- Records resent in datagrams of up to 22, one after another (R571). -/
def State.resend : Nat → State → Nat → Collector → List (Nat × EvtRec) → State
  | 0, s, i, k, _ => s.setCollector i k
  | fuel + 1, s, i, k, rs =>
    match rs with
    | [] => s.setCollector i k
    | e :: _ =>
      let now := rs.take 22
      let s := (s.evtDatagram k e.1 (now.map (·.2)) true).bump (regGa s.engineDie 0x150120) now.length
      State.resend fuel s i { k with dseq := k.dseq + 1 } (rs.drop 22)

/-- EVT_REPLAY's own part (R571, R636): a loss record for what has left the log, then what is still held of what
the collector has been sent. -/
def State.replayAct (s : State) (i from_ : Nat) (k : Collector) : State :=
  let gone := s.oldestSeq - from_
  let z : State × Collector :=
    if gone ≠ 0 then
      (s.evtDatagram k from_ [s.lossRec 0 gone from_] true, { k with dseq := k.dseq + 1 })
    else (s, k)
  let rs := (s.logged from_ k.next).filter fun e => classOn k.classes e.2.cls
  State.resend rs.length z.1 i z.2 rs

/-! ### EVT_SUBSCRIBE, EVT_UNSUBSCRIBE, EVT_REPLAY -/

/-- Rows of EVT_SUBSCRIBE (Table 14.7), of which three commands are operations (Table 16.7). -/
def rowEvt : MbxRow := ⟨0x80, true, true, true, true, legalIn true true true true true false, false⟩

/-- A payload of Table 16.7 out of order, for an operation (DEDUCED, log entry 37). -/
def evtBad (c : MbxCmd) (op : Nat) : Bool :=
  let p := c.payload
  !(payloadOk p 64 [(42, 6), (56, 8)]) || decide (field p 0 1 ≠ op ∨ 15 < field p 1 1 ∨ 2047 < field p 4 4) ||
  (if c.mb = 8 then decide (3 < field p 3 1)
   else decide (op = 2 ∨ (op = 0 ∧ (field p 2 1 < 6 ∨ 14 < field p 2 1 ∨ field p 8 8 % 4096 ≠ 0 ∨ 2 ^ 52 ≤ field p 8 8 ∨
     field p 16 8 % 8 ≠ 0 ∨ 2 ^ 52 ≤ field p 16 8))))

/-- EVT_SUBSCRIBE's own part (R571 to R573): a ring of the mailbox, or a collector, from the next record on. -/
def State.subscribeAct (s : State) (c : MbxCmd) : MbxAns × State :=
  let p := c.payload
  let cls := BitVec.ofNat 8 (field p 1 1)
  let s' : State :=
    if c.mb = 8 then
      let k : Collector := ⟨cls, ip6Of (slice p 24 16), BitVec.ofNat 16 (field p 40 2), 0, s.evt.logged⟩
      { s with evt := { s.evt with colls := mapSet none s.evt.colls (field p 3 1) (some k), served := true } }
    else
      let m := c.mb.val
      let g : EvtRing :=
        { ctx := (s.mboxCtx m).val, classes := cls, k := field p 2 1, vector := BitVec.ofNat 11 (field p 4 4),
          base := BitVec.ofNat 52 (field p 8 8), headAt := BitVec.ofNat 52 (field p 16 8), tail := 0, head := 0, queue := [],
          dropped := 0, unann := 0, oldest := 0 }
      { s with evt := { s.evt with rings := mapSet none s.evt.rings m (some g) } }
  (.done 0 [] [], s')

/-- EVT_SUBSCRIBE (R573). -/
def execEvtSubscribe (c : MbxCmd) (s : State) : Host.Outcome State Fault Refusal :=
  .next (s.mbxRun rowEvt c (.evtSubscribe c) noJob (fun _ => evtBad c 0) fun s => s.subscribeAct c)

/-- EVT_UNSUBSCRIBE's own part. -/
def State.unsubscribeAct (s : State) (c : MbxCmd) : MbxAns × State :=
  let s' : State :=
    if c.mb = 8 then { s with evt := { s.evt with colls := mapSet none s.evt.colls (field c.payload 3 1) none } }
    else { s with evt := { s.evt with rings := mapSet none s.evt.rings c.mb.val none } }
  (.done 0 [] [], s')

/-- EVT_UNSUBSCRIBE (R573). -/
def execEvtUnsubscribe (c : MbxCmd) (s : State) : Host.Outcome State Fault Refusal :=
  .next (s.mbxRun rowEvt c (.evtUnsubscribe c) noJob (fun _ => evtBad c 1) fun s => s.unsubscribeAct c)

/-- EVT_REPLAY (R571): for a collector that is subscribed. -/
def execEvtReplay (c : MbxCmd) (s : State) : Host.Outcome State Fault Refusal :=
  .next (s.mbxRun rowEvt c (.evtReplay c) noJob
    (fun s => evtBad c 2 || !(s.evt.served && (s.collector (field c.payload 3 1)).isSome)) fun s =>
    (.done 0 [] [], match s.collector (field c.payload 3 1) with
      | none => s
      | some k => s.replayAct (field c.payload 3 1) (field c.payload 48 8) k))

/-! ### Rings, summaries, engines -/

/-- EVENT_RING_SPACE_RETURN (R572): the head word read again. -/
def execEventRingSpaceReturn (mb : Fin 8) (head : BitVec 64) (s : State) : Host.Outcome State Fault Refusal :=
  .next (if s.on && s.evt.lost.length ≠ 2 then s.ringSpace mb.val head.toNat else s)

/-- RATE_SUMMARY (R568): the summary of a second that has ended, in which a source held records back. -/
def execRateSummary (src : BitVec 32) (s : State) : Host.Outcome State Fault Refusal :=
  .next (
    let st := mapGet (⟨0, 0, 0, 0⟩ : RateSt) s.evt.rates src.toNat
    let v := src.toNat
    if s.on && decide (st.second < s.ftc / secondFt ∧ v / 2 ^ 20 = s.selfIndex.toNat) then
      s.sendSummary { cls := .corrected, code := 0xF002, die := v / 2 ^ 14 % 64, kind := v / 2 ^ 8 % 64, inst := v % 256, ctx := 0,
                      tile := none, location := 0, step := 0, layer := 0, detail := 0 }
    else s)

/-- EVENT_ENGINE_LOSS (R564, R570): the other engine delivers, and may deliver up to 64 records again; the loss
of both leaves the module FAULTED, with no record sent. -/
def execEventEngineLoss (e : Fin 2) (s : State) : Host.Outcome State Fault Refusal :=
  .next (
    if !s.on || s.evt.lost.contains e then s
    else
      let s : State := { s with evt := { s.evt with lost := s.evt.lost ++ [e] } }
      if s.evt.lost.length = 2 then (if s.modState = 9 then s else s.toState 9) else s)

/-! ### Shadow digests -/

/-- The entry at a place of a tile's output-digest log (Table 16.14). -/
def State.digestEntry (s : State) (t : TileId) (pos : Nat) : List Byte :=
  let cfg := s.reg (tileReg t 0x600)
  s.bytesAt (bits cfg 39 0 + 32 * (pos % 2 ^ (bits cfg 47 44 + 8))) 32

/-- A tile's newest entry for a STEP and LAYER. -/
def State.digestFor (s : State) (t : TileId) (step layer : Nat) : Option (List Byte) :=
  let n := 2 ^ (s.regField (tileReg t 0x600) 47 44 + 8)
  let p := (s.tile t).seq.odigPos
  ((List.range n).map fun k => s.digestEntry t (p + n - 1 - k)).find? fun e =>
    decide (field e 0 4 = step ∧ field e 4 4 = layer ∧ field e 24 2 = t.val ∧ field e 28 4 ≠ 0)

/-- Entries of a shadow compared in order as far as the primary has its own (R594). -/
def State.compareShadow : Nat → State → TileId → TileId → State
  | 0, s, _, _ => s
  | fuel + 1, s, t, p =>
    let q := (s.tile t).seq
    let n := 2 ^ (s.regField (tileReg t 0x600) 47 44 + 8)
    if q.odigSeen % n = q.odigPos % n then s
    else
      let e := s.digestEntry t q.odigSeen
      match s.digestFor p (field e 0 4) (field e 4 4) with
      | none => s
      | some f =>
        let s := s.setSeq t { q with odigSeen := (q.odigSeen + 1) % n }
        let s := if slice e 8 16 = slice f 8 16 then s
          else s.raise { cls := .contained, code := 0x5004, die := 48 + s.regField (regGa 48 0x50000) 59 59, kind := 8, inst := 0,
                         ctx := q.ctx.val, tile := some p, location := 0, step := field e 0 4, layer := field e 4 4,
                         detail := p.val + t.val * 2 ^ 16 + field f 8 4 * 2 ^ 32 + field f 16 4 * 2 ^ 64 + field e 8 4 * 2 ^ 96 +
                           field e 16 4 * 2 ^ 128 }
        State.compareShadow fuel s t p

/-- SHADOW_DIGEST_COMPARE (R594): after TSQ.UEND, a shadow tile's entries and its primary's. -/
def execShadowDigestCompare (shadow : TileId) (s : State) : Host.Outcome State Fault Refusal :=
  .next (
    let cfg := s.reg (tileReg shadow 0x600)
    let p := bits cfg 57 48
    if s.fwOn && !s.pwr.vacant && cfg.getLsbD 62 && decide (p < 576) then
      State.compareShadow (2 ^ (bits cfg 47 44 + 8)) s shadow (tileOf p)
    else s)

end Sys2Proof.Machine
end

