-- ==== Sys2Proof/Machine/Vx.lean ====
section
/-!
DEFINITION. The vector-engine instructions (Table 5.4), of a tile's engine and of an update core.
-/

namespace Sys2Proof.Machine

/-- VX.LAUNCH (R154): waits while the engine runs a program; else the program starts with VL 0, VLEW 16
bits and s1 the parameter address. -/
def execVxLaunch (t : TileId) (w : BitVec 120) (s : State) : Host.Outcome State Fault Refusal :=
  .next (
    if s.seqReady t && ((s.tile t).seq.vxBusy || (s.tile t).vx.running) then s.wait (.vxLaunch t w)
    else s.seqWord t fun _ s =>
      if wbits w 119 96 ≠ 0 then s.seqFault t 1
      else
        let x := s.tile t
        let v : VxSt := { x.vx with vl := 0, vlew := 1, running := true, pc := BitVec.ofNat 48 (wbits w 47 0),
                                    ctx := x.seq.ctx, ep := none }
        s.setTile t { x with vx := v.setS 1 (BitVec.ofNat 64 (wbits w 95 48)),
                             seq := { x.seq with vxBusy := true } })

/-- VX.END (Table 5.4): the program ends, and with it the loaded element program (R178). -/
def execVxEnd (u : VUnit) (w : BitVec 56) (s : State) : Host.Outcome State Fault Refusal :=
  .next (s.vuInstr u fun x s =>
    if !(vxWordOk w) then s.vuFault u 1 0 0 0 .load
    else
      let s := s.setVu u { x with running := false, ep := none, pc := x.pc + 8 }
      match u with
      | .tile t => s.setSeq t { (s.tile t).seq with vxBusy := false }
      | .core _ _ => s)

/-- VX.FENCE (R163): every earlier access of the engine has been performed at its destination. -/
def execVxFence (u : VUnit) (w : BitVec 56) (s : State) : Host.Outcome State Fault Refusal :=
  .next (s.vuCompute u fun _ x => if vxWordOk w then vxOk x else vxIllegal)

/-- VX.SETVL (R155). -/
def execVxSetvl (u : VUnit) (w : BitVec 56) (s : State) : Host.Outcome State Fault Refusal :=
  .next (s.vuCompute u fun e x => vxSetvl e x w)

/-- VX.SADD. -/
def execVxSadd (u : VUnit) (w : BitVec 56) (s : State) : Host.Outcome State Fault Refusal :=
  .next (s.vuCompute u fun _ x => vxScalar x w (x.s (vxVs1 w) + x.s (vxVs2 w)))

/-- VX.SADDI. -/
def execVxSaddi (u : VUnit) (w : BitVec 56) (s : State) : Host.Outcome State Fault Refusal :=
  .next (s.vuCompute u fun _ x => vxScalar x w (x.s (vxVs1 w) + BitVec.ofInt 64 (vxImmS w)))

/-- VX.SMUL. -/
def execVxSmul (u : VUnit) (w : BitVec 56) (s : State) : Host.Outcome State Fault Refusal :=
  .next (s.vuCompute u fun _ x => vxScalar x w (x.s (vxVs1 w) * x.s (vxVs2 w)))

/-- VX.SBNE. -/
def execVxSbne (u : VUnit) (w : BitVec 56) (s : State) : Host.Outcome State Fault Refusal :=
  .next (s.vuCompute u fun _ x => vxBranch x w (decide (x.s (vxVs1 w) ≠ x.s (vxVs2 w))))

/-- VX.SBLT. -/
def execVxSblt (u : VUnit) (w : BitVec 56) (s : State) : Host.Outcome State Fault Refusal :=
  .next (s.vuCompute u fun _ x => vxBranch x w (decide ((x.s (vxVs1 w)).toInt < (x.s (vxVs2 w)).toInt)))

/-- VX.ADD. -/
def execVxAdd (u : VUnit) (w : BitVec 56) (s : State) : Host.Outcome State Fault Refusal :=
  .next (s.vuCompute u fun e x => vxElems e x w (!(vxEsf (vxType w))) (vxWidth (vxType w)) fun i =>
    vxArith (vxType w) (· + ·) FVal.add (x.el (vxVs1 w) (vxWidth (vxType w)) i) (x.el (vxVs2 w) (vxWidth (vxType w)) i))

/-- VX.SUB. -/
def execVxSub (u : VUnit) (w : BitVec 56) (s : State) : Host.Outcome State Fault Refusal :=
  .next (s.vuCompute u fun e x => vxElems e x w (!(vxEsf (vxType w))) (vxWidth (vxType w)) fun i =>
    vxArith (vxType w) (· - ·) FVal.sub (x.el (vxVs1 w) (vxWidth (vxType w)) i) (x.el (vxVs2 w) (vxWidth (vxType w)) i))

/-- VX.MUL: integers keep the low bits. -/
def execVxMul (u : VUnit) (w : BitVec 56) (s : State) : Host.Outcome State Fault Refusal :=
  .next (s.vuCompute u fun e x => vxElems e x w (!(vxEsf (vxType w))) (vxWidth (vxType w)) fun i =>
    vxArith (vxType w) (· * ·) FVal.mul (x.el (vxVs1 w) (vxWidth (vxType w)) i) (x.el (vxVs2 w) (vxWidth (vxType w)) i))

/-- VX.MULH: the high bits of the integer product. -/
def execVxMulh (u : VUnit) (w : BitVec 56) (s : State) : Host.Outcome State Fault Refusal :=
  .next (s.vuCompute u fun e x => vxElems e x w (vxInt (vxType w)) (vxWidth (vxType w)) fun i =>
    intRes (vxType w) (Int.fdiv (vxIntVal (vxType w) (x.el (vxVs1 w) (vxWidth (vxType w)) i) * vxIntVal (vxType w) (x.el (vxVs2 w) (vxWidth (vxType w)) i)) (2 ^ vxWidth (vxType w))))

/-- VX.FMA: floating point rounds once. -/
def execVxFma (u : VUnit) (w : BitVec 56) (s : State) : Host.Outcome State Fault Refusal :=
  .next (s.vuCompute u fun e x => vxElems e x w (!(vxEsf (vxType w))) (vxWidth (vxType w)) fun i =>
    vxFmaEl (vxType w) (x.el (vxVs1 w) (vxWidth (vxType w)) i) (x.el (vxVs2 w) (vxWidth (vxType w)) i)
      (x.el (vxVs3 w) (vxWidth (vxType w)) i))

/-- VX.MIN, in the ordering of Table 2.6. -/
def execVxMin (u : VUnit) (w : BitVec 56) (s : State) : Host.Outcome State Fault Refusal :=
  .next (s.vuCompute u fun e x => vxElems e x w (!(vxEsf (vxType w))) (vxWidth (vxType w)) fun i =>
    vxPick false (vxType w) (x.el (vxVs1 w) (vxWidth (vxType w)) i) (x.el (vxVs2 w) (vxWidth (vxType w)) i))

/-- VX.MAX, in the ordering of Table 2.6. -/
def execVxMax (u : VUnit) (w : BitVec 56) (s : State) : Host.Outcome State Fault Refusal :=
  .next (s.vuCompute u fun e x => vxElems e x w (!(vxEsf (vxType w))) (vxWidth (vxType w)) fun i =>
    vxPick true (vxType w) (x.el (vxVs1 w) (vxWidth (vxType w)) i) (x.el (vxVs2 w) (vxWidth (vxType w)) i))

/-- VX.ABS. -/
def execVxAbs (u : VUnit) (w : BitVec 56) (s : State) : Host.Outcome State Fault Refusal :=
  .next (s.vuCompute u fun e x => vxElems e x w (!(vxEsf (vxType w))) (vxWidth (vxType w)) fun i =>
    if vxInt (vxType w) then intRes (vxType w) (vxIntVal (vxType w) (x.el (vxVs1 w) (vxWidth (vxType w)) i)).natAbs
    else float1 (vxType w) FVal.abs (x.el (vxVs1 w) (vxWidth (vxType w)) i))

/-- VX.NEG. -/
def execVxNeg (u : VUnit) (w : BitVec 56) (s : State) : Host.Outcome State Fault Refusal :=
  .next (s.vuCompute u fun e x => vxElems e x w (!(vxEsf (vxType w))) (vxWidth (vxType w)) fun i =>
    if vxInt (vxType w) then intRes (vxType w) (-(vxIntVal (vxType w) (x.el (vxVs1 w) (vxWidth (vxType w)) i)))
    else float1 (vxType w) FVal.neg (x.el (vxVs1 w) (vxWidth (vxType w)) i))

/-- VX.AND. -/
def execVxAnd (u : VUnit) (w : BitVec 56) (s : State) : Host.Outcome State Fault Refusal :=
  .next (s.vuCompute u fun e x => vxElems e x w (vxInt (vxType w)) (vxWidth (vxType w)) fun i =>
    ((x.el (vxVs1 w) (vxWidth (vxType w)) i) &&& (x.el (vxVs2 w) (vxWidth (vxType w)) i), .none))

/-- VX.OR. -/
def execVxOr (u : VUnit) (w : BitVec 56) (s : State) : Host.Outcome State Fault Refusal :=
  .next (s.vuCompute u fun e x => vxElems e x w (vxInt (vxType w)) (vxWidth (vxType w)) fun i =>
    ((x.el (vxVs1 w) (vxWidth (vxType w)) i) ||| (x.el (vxVs2 w) (vxWidth (vxType w)) i), .none))

/-- VX.XOR. -/
def execVxXor (u : VUnit) (w : BitVec 56) (s : State) : Host.Outcome State Fault Refusal :=
  .next (s.vuCompute u fun e x => vxElems e x w (vxInt (vxType w)) (vxWidth (vxType w)) fun i =>
    ((x.el (vxVs1 w) (vxWidth (vxType w)) i) ^^^ (x.el (vxVs2 w) (vxWidth (vxType w)) i), .none))

/-- VX.SHL: by vs2 mod w. -/
def execVxShl (u : VUnit) (w : BitVec 56) (s : State) : Host.Outcome State Fault Refusal :=
  .next (s.vuCompute u fun e x => vxElems e x w (vxInt (vxType w)) (vxWidth (vxType w)) fun i =>
    vxShift true (vxType w) (x.el (vxVs1 w) (vxWidth (vxType w)) i) (x.el (vxVs2 w) (vxWidth (vxType w)) i))

/-- VX.SHR: arithmetic for signed types. -/
def execVxShr (u : VUnit) (w : BitVec 56) (s : State) : Host.Outcome State Fault Refusal :=
  .next (s.vuCompute u fun e x => vxElems e x w (vxInt (vxType w)) (vxWidth (vxType w)) fun i =>
    vxShift false (vxType w) (x.el (vxVs1 w) (vxWidth (vxType w)) i) (x.el (vxVs2 w) (vxWidth (vxType w)) i))

/-- VX.DIV (R162). -/
def execVxDiv (u : VUnit) (w : BitVec 56) (s : State) : Host.Outcome State Fault Refusal :=
  .next (s.vuCompute u fun e x => vxElems e x w (vxFloat (vxType w)) (vxWidth (vxType w)) fun i =>
    float2 (vxType w) FVal.div (x.el (vxVs1 w) (vxWidth (vxType w)) i) (x.el (vxVs2 w) (vxWidth (vxType w)) i))

/-- VX.SQRT (R162). -/
def execVxSqrt (u : VUnit) (w : BitVec 56) (s : State) : Host.Outcome State Fault Refusal :=
  .next (s.vuCompute u fun e x => vxElems e x w (vxFloat (vxType w)) (vxWidth (vxType w)) fun i =>
    float1 (vxType w) FVal.sqrt (x.el (vxVs1 w) (vxWidth (vxType w)) i))

/-- VX.FN (R162): IMM 0 to 5. -/
def execVxFn (u : VUnit) (w : BitVec 56) (s : State) : Host.Outcome State Fault Refusal :=
  .next (s.vuCompute u fun e x => vxElems e x w (vxFloat (vxType w) && decide (vxImm w ≤ 5)) (vxWidth (vxType w)) fun i =>
    float1 (vxType w) (vxFnOf (vxImm w)) (x.el (vxVs1 w) (vxWidth (vxType w)) i))

/-- VX.EADD (R172). -/
def execVxEadd (u : VUnit) (w : BitVec 56) (s : State) : Host.Outcome State Fault Refusal :=
  .next (s.vuCompute u fun e x => vxElems e x w (vxEsf (vxType w)) (vxWidth (vxType w)) fun i =>
    vxEaddEl (vxType w) (x.el (vxVs1 w) (vxWidth (vxType w)) i) (x.el (vxVs2 w) (vxWidth (vxType w)) i))

/-- VX.CMP (R159). -/
def execVxCmp (u : VUnit) (w : BitVec 56) (s : State) : Host.Outcome State Fault Refusal :=
  .next (s.vuCompute u fun e x => vxCmp e x w)

/-- VX.SEL: bit i of p(VS3) chooses vs1 or vs2. -/
def execVxSel (u : VUnit) (w : BitVec 56) (s : State) : Host.Outcome State Fault Refusal :=
  .next (s.vuCompute u fun e x => vxElems e x w (decide (vxVs3 w ≤ 7)) (vxWidth (vxType w)) fun i =>
    (if (x.pr (vxVs3 w)).getLsbD i then (x.el (vxVs1 w) (vxWidth (vxType w)) i) else (x.el (vxVs2 w) (vxWidth (vxType w)) i), .none))

/-- VX.BCAST: the low bits of sa. -/
def execVxBcast (u : VUnit) (w : BitVec 56) (s : State) : Host.Outcome State Fault Refusal :=
  .next (s.vuCompute u fun e x => vxElems e x w (true) (vxWidth (vxType w)) fun _ =>
    ((x.s (vxVs1 w)).toNat % 2 ^ vxWidth (vxType w), .none))

/-- VX.EXT. -/
def execVxExt (u : VUnit) (w : BitVec 56) (s : State) : Host.Outcome State Fault Refusal :=
  .next (s.vuCompute u fun e x => vxExt e x w)

/-- VX.PLOG. -/
def execVxPlog (u : VUnit) (w : BitVec 56) (s : State) : Host.Outcome State Fault Refusal :=
  .next (s.vuCompute u fun _ x => vxPlog x w)

/-- VX.PCNT. -/
def execVxPcnt (u : VUnit) (w : BitVec 56) (s : State) : Host.Outcome State Fault Refusal :=
  .next (s.vuCompute u fun _ x => vxPcnt x w)

/-- VX.PERM (R165). -/
def execVxPerm (u : VUnit) (w : BitVec 56) (s : State) : Host.Outcome State Fault Refusal :=
  .next (s.vuCompute u fun e x => vxPerm e x w)

/-- VX.PERM2 (R165). -/
def execVxPerm2 (u : VUnit) (w : BitVec 56) (s : State) : Host.Outcome State Fault Refusal :=
  .next (s.vuCompute u fun e x => vxPerm2 e x w)

/-- VX.SHUF (R166). -/
def execVxShuf (u : VUnit) (w : BitVec 56) (s : State) : Host.Outcome State Fault Refusal :=
  .next (s.vuCompute u fun e x => vxShuf e x w)

/-- VX.PACK (R167). -/
def execVxPack (u : VUnit) (w : BitVec 56) (s : State) : Host.Outcome State Fault Refusal :=
  .next (s.vuCompute u fun e x => vxPack e x w)

/-- VX.UNPACK (R168). -/
def execVxUnpack (u : VUnit) (w : BitVec 56) (s : State) : Host.Outcome State Fault Refusal :=
  .next (s.vuCompute u fun e x => vxUnpack e x w)

/-- VX.COMPRESS (R169). -/
def execVxCompress (u : VUnit) (w : BitVec 56) (s : State) : Host.Outcome State Fault Refusal :=
  .next (s.vuCompute u fun e x => vxCompress e x w)

/-- VX.CVT (R170, R171). -/
def execVxCvt (u : VUnit) (w : BitVec 56) (s : State) : Host.Outcome State Fault Refusal :=
  .next (s.vuCompute u fun e x => vxCvt e x w)

/-- VX.RADD (Table 5.7). -/
def execVxRadd (u : VUnit) (w : BitVec 56) (s : State) : Host.Outcome State Fault Refusal :=
  .next (s.vuCompute u fun e x => vxRadd e x w)

/-- VX.RADDS (Table 5.7). -/
def execVxRadds (u : VUnit) (w : BitVec 56) (s : State) : Host.Outcome State Fault Refusal :=
  .next (s.vuCompute u fun e x => vxRadds e x w)

/-- VX.RMIN (Table 5.7). -/
def execVxRmin (u : VUnit) (w : BitVec 56) (s : State) : Host.Outcome State Fault Refusal :=
  .next (s.vuCompute u fun e x => vxRext false e x w)

/-- VX.RMAX (Table 5.7). -/
def execVxRmax (u : VUnit) (w : BitVec 56) (s : State) : Host.Outcome State Fault Refusal :=
  .next (s.vuCompute u fun e x => vxRext true e x w)

/-- VX.RARGMAX (Table 5.7). -/
def execVxRargmax (u : VUnit) (w : BitVec 56) (s : State) : Host.Outcome State Fault Refusal :=
  .next (s.vuCompute u fun e x => vxRargmax e x w)

/-- VX.FSUMX (R174). -/
def execVxFsumx (u : VUnit) (w : BitVec 56) (s : State) : Host.Outcome State Fault Refusal :=
  .next (s.vuCompute u fun e x => vxFsum false e x w)

/-- VX.FSSQX (R174). -/
def execVxFssqx (u : VUnit) (w : BitVec 56) (s : State) : Host.Outcome State Fault Refusal :=
  .next (s.vuCompute u fun e x => vxFsum true e x w)

/-- VX.ESUM (R174). -/
def execVxEsum (u : VUnit) (w : BitVec 56) (s : State) : Host.Outcome State Fault Refusal :=
  .next (s.vuCompute u fun e x => vxEsum e x w)

/-- VX.CBG (R175). -/
def execVxCbg (u : VUnit) (w : BitVec 56) (s : State) : Host.Outcome State Fault Refusal :=
  .next (s.vuCompute u fun e x => vxCbg e x w)

/-- VX.CBGM (R176). -/
def execVxCbgm (u : VUnit) (w : BitVec 56) (s : State) : Host.Outcome State Fault Refusal :=
  .next (s.vuCompute u fun e x => vxCbgm e x w)

/-- VX.LD: unit stride. -/
def execVxLd (u : VUnit) (w : BitVec 56) (s : State) : Host.Outcome State Fault Refusal :=
  .next (s.vuVecLoad u w (.vxLd u w) 0 (vxUnit w (vxVs1 w)))

/-- VX.LDS: stride sb. -/
def execVxLds (u : VUnit) (w : BitVec 56) (s : State) : Host.Outcome State Fault Refusal :=
  .next (s.vuVecLoad u w (.vxLds u w) 0 (vxStride (vxVs1 w) (vxVs2 w)))

/-- VX.LDX: byte offsets in vs3. -/
def execVxLdx (u : VUnit) (w : BitVec 56) (s : State) : Host.Outcome State Fault Refusal :=
  .next (s.vuVecLoad u w (.vxLdx u w) (vxIdxWidth w) (vxIndexed w (vxVs1 w)))

/-- VX.ST: unit stride, from base register sb. -/
def execVxSt (u : VUnit) (w : BitVec 56) (s : State) : Host.Outcome State Fault Refusal :=
  .next (s.vuVecStore u w (.vxSt u w) 0 (vxUnit w (vxVs2 w)))

/-- VX.STS: base register sb, stride s(VS3). -/
def execVxSts (u : VUnit) (w : BitVec 56) (s : State) : Host.Outcome State Fault Refusal :=
  .next (s.vuVecStore u w (.vxSts u w) 0 (vxStride (vxVs2 w) (vxVs3 w)))

/-- VX.STX: byte offsets in vs3. -/
def execVxStx (u : VUnit) (w : BitVec 56) (s : State) : Host.Outcome State Fault Refusal :=
  .next (s.vuVecStore u w (.vxStx u w) (vxIdxWidth w) (vxIndexed w (vxVs2 w)))

/-- Address of a scalar load or store: sa + 8 × IMM (DEDUCED, log entry 11). -/
def vxScalarAddr (x : VxSt) (w : BitVec 56) : Nat := ((x.s (vxVs1 w)).toNat + 8 * vxImm w) % 2 ^ 48

/-- VX.SLD. -/
def execVxSld (u : VUnit) (w : BitVec 56) (s : State) : Host.Outcome State Fault Refusal :=
  .next (s.vuInstr u fun x s =>
    if !(vxWordOk w) then s.vuFault u 1 0 0 0 .load
    else s.vuLoad u (.vxSld u w) 8 0 [(0, vxScalarAddr x w)] fun vals =>
      ⟨x.setS (vxVd w) (BitVec.ofNat 64 ((vals.head?.map (·.2)).getD 0)), .none, 0, 0, false, none⟩)

/-- VX.SST. -/
def execVxSst (u : VUnit) (w : BitVec 56) (s : State) : Host.Outcome State Fault Refusal :=
  .next (s.vuInstr u fun x s =>
    if !(vxWordOk w) then s.vuFault u 1 0 0 0 .store
    else s.vuStore u (.vxSst u w) 8 0 [(0, vxScalarAddr x w)] (fun _ => (x.s (vxVs2 w)).toNat)
      ⟨x, .none, 0, 0, false, none⟩)

/-- VX.EPLD (R177, R178): 41 words at a 256-byte-aligned address in tile memory. After one that fails no
program is loaded. Illegal on an update core (Table 11.2). -/
def execVxEpld (u : VUnit) (w : BitVec 56) (s : State) : Host.Outcome State Fault Refusal :=
  .next (s.vuInstr u fun x s =>
    match u with
    | .core _ _ => s.vuFault u 1 0 0 0 .load
    | .tile t =>
      let va := (x.s (vxVs1 w)).toNat % 2 ^ 48
      if !(vxWordOk w) then s.vuFault u 1 0 0 0 .load
      else if va % 256 ≠ 0 then s.vuFault u 3 0 va 0 .load
      else
        match s.xlAns (tileDie t) x.ctx va .load .plain with
        | .error c => s.vuFault u 4 0 va c .load
        | .ok a =>
          let s := s.xlLookup t x.ctx va
          let s := s.setVu u { x with ep := none }
          if !(ownMem t a.ga) then s.vuFault u 6 0 va 0 .load
          else if s.poisonedAt a.ga 164 then (s.bump (hcReg (gaDie a.ga) 0xF10) 1).vuFault u 5 0 va 0 .load
          else
            let bs := s.bytesAt a.ga 164
            let p := (List.range 41).map fun i => field bs (4 * i) 4
            if !(epCheck p) then s.vuFault u 6 0 va 0 .load
            else s.vuApply u ⟨{ x with ep := some p, epAt := va }, .none, 0, 0, false, none⟩)

/-- VX.EPRUN (R179); it executes NOPS + 1 micro-operations. Illegal on an update core (Table 11.2). -/
def execVxEprun (u : VUnit) (w : BitVec 56) (s : State) : Host.Outcome State Fault Refusal :=
  .next (s.vuInstr u fun x s =>
    match u with
    | .core _ _ => s.vuFault u 1 0 0 0 .load
    | .tile t =>
      match vxEprun (s.vuEnv u) x w (if x.ep.isSome then x.epAt else 0) with
      | .error e => s.vuFault u e.code e.elem e.addr 0 .load
      | .ok o => (s.vuApply u o).bump (vxReg t 0x118) ((x.ep.elim 0 fun p => p.getD 0 0 / 2 ^ 27 + 1)))

end Sys2Proof.Machine
end

