-- ==== Sys2Proof/Machine/Dispatch.lean ====
section
/-!
DEFINITION. The meaning of each command, one arm per constructor.
-/

namespace Sys2Proof.Machine

def exec (i : Instr) (s : State) : Host.Outcome State Fault Refusal :=
  match i with
  | .mxaLds t w => Sys2Proof.Machine.execMxaLds t w s
  | .mxaMm t w => Sys2Proof.Machine.execMxaMm t w s
  | .mxaMmt t w => Sys2Proof.Machine.execMxaMmt t w s
  | .mxaRd t w => Sys2Proof.Machine.execMxaRd t w s
  | .mxaClr t w => Sys2Proof.Machine.execMxaClr t w s
  | .mxaAts t w => Sys2Proof.Machine.execMxaAts t w s
  | .mxaAtv t w => Sys2Proof.Machine.execMxaAtv t w s
  | .mxaAtf t w => Sys2Proof.Machine.execMxaAtf t w s
  | .tgLaunch t w => Sys2Proof.Machine.execTgLaunch t w s
  | .blockPlace t => Sys2Proof.Machine.execBlockPlace t s
  | .tgLd t g m => Sys2Proof.Machine.execTgLd t g m s
  | .tgSt t g m => Sys2Proof.Machine.execTgSt t g m s
  | .tgAtom t g m => Sys2Proof.Machine.execTgAtom t g m s
  | .tgLdb t g m => Sys2Proof.Machine.execTgLdb t g m s
  | .tgStb t g m => Sys2Proof.Machine.execTgStb t g m s
  | .tgAtomb t g m => Sys2Proof.Machine.execTgAtomb t g m s
  | .tgSreg t g rd sel => Sys2Proof.Machine.execTgSreg t g rd sel s
  | .tgBr t g taken target rpc => Sys2Proof.Machine.execTgBr t g taken target rpc s
  | .tgAcq t g pred ra rpc => Sys2Proof.Machine.execTgAcq t g pred ra rpc s
  | .tgRel t g ra => Sys2Proof.Machine.execTgRel t g ra s
  | .tgBar t g id => Sys2Proof.Machine.execTgBar t g id s
  | .tgExit t g => Sys2Proof.Machine.execTgExit t g s
  | .tgFence t g => Sys2Proof.Machine.execTgFence t g s
  | .groupDataReturn t g => Sys2Proof.Machine.execGroupDataReturn t g s
  | .requestSlotGrant t => Sys2Proof.Machine.execRequestSlotGrant t s
  | .lockTimeout t g => Sys2Proof.Machine.execLockTimeout t g s
  | .groupLivelock t g => Sys2Proof.Machine.execGroupLivelock t g s
  | .vxLaunch t w => Sys2Proof.Machine.execVxLaunch t w s
  | .vxSetvl u w => Sys2Proof.Machine.execVxSetvl u w s
  | .vxSadd u w => Sys2Proof.Machine.execVxSadd u w s
  | .vxSaddi u w => Sys2Proof.Machine.execVxSaddi u w s
  | .vxSmul u w => Sys2Proof.Machine.execVxSmul u w s
  | .vxSld u w => Sys2Proof.Machine.execVxSld u w s
  | .vxSst u w => Sys2Proof.Machine.execVxSst u w s
  | .vxSbne u w => Sys2Proof.Machine.execVxSbne u w s
  | .vxSblt u w => Sys2Proof.Machine.execVxSblt u w s
  | .vxEnd u w => Sys2Proof.Machine.execVxEnd u w s
  | .vxFence u w => Sys2Proof.Machine.execVxFence u w s
  | .vxLd u w => Sys2Proof.Machine.execVxLd u w s
  | .vxLds u w => Sys2Proof.Machine.execVxLds u w s
  | .vxLdx u w => Sys2Proof.Machine.execVxLdx u w s
  | .vxSt u w => Sys2Proof.Machine.execVxSt u w s
  | .vxSts u w => Sys2Proof.Machine.execVxSts u w s
  | .vxStx u w => Sys2Proof.Machine.execVxStx u w s
  | .vxAdd u w => Sys2Proof.Machine.execVxAdd u w s
  | .vxSub u w => Sys2Proof.Machine.execVxSub u w s
  | .vxMul u w => Sys2Proof.Machine.execVxMul u w s
  | .vxMulh u w => Sys2Proof.Machine.execVxMulh u w s
  | .vxFma u w => Sys2Proof.Machine.execVxFma u w s
  | .vxMin u w => Sys2Proof.Machine.execVxMin u w s
  | .vxMax u w => Sys2Proof.Machine.execVxMax u w s
  | .vxAbs u w => Sys2Proof.Machine.execVxAbs u w s
  | .vxNeg u w => Sys2Proof.Machine.execVxNeg u w s
  | .vxAnd u w => Sys2Proof.Machine.execVxAnd u w s
  | .vxOr u w => Sys2Proof.Machine.execVxOr u w s
  | .vxXor u w => Sys2Proof.Machine.execVxXor u w s
  | .vxShl u w => Sys2Proof.Machine.execVxShl u w s
  | .vxShr u w => Sys2Proof.Machine.execVxShr u w s
  | .vxDiv u w => Sys2Proof.Machine.execVxDiv u w s
  | .vxSqrt u w => Sys2Proof.Machine.execVxSqrt u w s
  | .vxFn u w => Sys2Proof.Machine.execVxFn u w s
  | .vxEadd u w => Sys2Proof.Machine.execVxEadd u w s
  | .vxCmp u w => Sys2Proof.Machine.execVxCmp u w s
  | .vxSel u w => Sys2Proof.Machine.execVxSel u w s
  | .vxBcast u w => Sys2Proof.Machine.execVxBcast u w s
  | .vxExt u w => Sys2Proof.Machine.execVxExt u w s
  | .vxPlog u w => Sys2Proof.Machine.execVxPlog u w s
  | .vxPcnt u w => Sys2Proof.Machine.execVxPcnt u w s
  | .vxPerm u w => Sys2Proof.Machine.execVxPerm u w s
  | .vxPerm2 u w => Sys2Proof.Machine.execVxPerm2 u w s
  | .vxShuf u w => Sys2Proof.Machine.execVxShuf u w s
  | .vxPack u w => Sys2Proof.Machine.execVxPack u w s
  | .vxUnpack u w => Sys2Proof.Machine.execVxUnpack u w s
  | .vxCompress u w => Sys2Proof.Machine.execVxCompress u w s
  | .vxCvt u w => Sys2Proof.Machine.execVxCvt u w s
  | .vxRadd u w => Sys2Proof.Machine.execVxRadd u w s
  | .vxRadds u w => Sys2Proof.Machine.execVxRadds u w s
  | .vxRmin u w => Sys2Proof.Machine.execVxRmin u w s
  | .vxRmax u w => Sys2Proof.Machine.execVxRmax u w s
  | .vxRargmax u w => Sys2Proof.Machine.execVxRargmax u w s
  | .vxFsumx u w => Sys2Proof.Machine.execVxFsumx u w s
  | .vxFssqx u w => Sys2Proof.Machine.execVxFssqx u w s
  | .vxEsum u w => Sys2Proof.Machine.execVxEsum u w s
  | .vxCbg u w => Sys2Proof.Machine.execVxCbg u w s
  | .vxCbgm u w => Sys2Proof.Machine.execVxCbgm u w s
  | .vxEpld u w => Sys2Proof.Machine.execVxEpld u w s
  | .vxEprun u w => Sys2Proof.Machine.execVxEprun u w s
  | .patrolScrub d => Sys2Proof.Machine.execPatrolScrub d s
  | .healComplete d line data poison => Sys2Proof.Machine.execHealComplete d line data poison s
  | .healTimeout d line => Sys2Proof.Machine.execHealTimeout d line s
  | .hcFillComplete d line => Sys2Proof.Machine.execHcFillComplete d line s
  | .streamEntryExpire d => Sys2Proof.Machine.execStreamEntryExpire d s
  | .reduceWrite iss c ga fmt mask data => Sys2Proof.Machine.execReduceWrite iss c ga fmt mask data s
  | .runAheadFetch t => Sys2Proof.Machine.execRunAheadFetch t s
  | .ncGranuleInvalidate ga => Sys2Proof.Machine.execNcGranuleInvalidate ga s
  | .hcFlush d => Sys2Proof.Machine.execHcFlush d s
  | .hcFlushComplete d => Sys2Proof.Machine.execHcFlushComplete d s
  | .hcPinLoad d => Sys2Proof.Machine.execHcPinLoad d s
  | .hcPinLoadComplete d => Sys2Proof.Machine.execHcPinLoadComplete d s
  | .ncDisable t => Sys2Proof.Machine.execNcDisable t s
  | .tmvXfer t w => Sys2Proof.Machine.execTmvXfer t w s
  | .tmvXferComplete t tag tagGen => Sys2Proof.Machine.execTmvXferComplete t tag tagGen s
  | .syInit o => Sys2Proof.Machine.execSyInit o s
  | .sySig o => Sys2Proof.Machine.execSySig o s
  | .syWait o => Sys2Proof.Machine.execSyWait o s
  | .syTry o => Sys2Proof.Machine.execSyTry o s
  | .syPoll o => Sys2Proof.Machine.execSyPoll o s
  | .syCsig o => Sys2Proof.Machine.execSyCsig o s
  | .syBar o => Sys2Proof.Machine.execSyBar o s
  | .syncWaitTimeout d => Sys2Proof.Machine.execSyncWaitTimeout d s
  | .syncWaitRetry d => Sys2Proof.Machine.execSyncWaitRetry d s
  | .barrierPhaseCheck d n => Sys2Proof.Machine.execBarrierPhaseCheck d n s
  | .dieBarrierReport d c => Sys2Proof.Machine.execDieBarrierReport d c s
  | .moduleBarrierReport p c gen deadline flags => Sys2Proof.Machine.execModuleBarrierReport p c gen deadline flags s
  | .moduleBarrierRelease p c gen => Sys2Proof.Machine.execModuleBarrierRelease p c gen s
  | .dieBarrierRelease d c => Sys2Proof.Machine.execDieBarrierRelease d c s
  | .mbcTimedCheck c => Sys2Proof.Machine.execMbcTimedCheck c s
  | .barCfgWrite d n v => Sys2Proof.Machine.execBarCfgWrite d n v s
  | .syncMbcCfgWrite c v => Sys2Proof.Machine.execSyncMbcCfgWrite c v s
  | .ppsEdge => Sys2Proof.Machine.execPpsEdge s
  | .ppsLoss => Sys2Proof.Machine.execPpsLoss s
  | .timeSend p => Sys2Proof.Machine.execTimeSend p s
  | .time p lgen m => Sys2Proof.Machine.execTime p lgen m s
  | .parentTimeout => Sys2Proof.Machine.execParentTimeout s
  | .holdoverTimeout => Sys2Proof.Machine.execHoldoverTimeout s
  | .deputyMasterTakeover => Sys2Proof.Machine.execDeputyMasterTakeover s
  | .refclkLoss => Sys2Proof.Machine.execRefclkLoss s
  | .refclkHoldTimeout => Sys2Proof.Machine.execRefclkHoldTimeout s
  | .refclkReturn => Sys2Proof.Machine.execRefclkReturn s
  | .tsqHold t w => Sys2Proof.Machine.execTsqHold t w s
  | .tsqHoldTarget t => Sys2Proof.Machine.execTsqHoldTarget t s
  | .tsqJoin t w => Sys2Proof.Machine.execTsqJoin t w s
  | .tsqNext t w => Sys2Proof.Machine.execTsqNext t w s
  | .tsqUnit t w => Sys2Proof.Machine.execTsqUnit t w s
  | .tsqUend t w => Sys2Proof.Machine.execTsqUend t w s
  | .tsqLayer t w => Sys2Proof.Machine.execTsqLayer t w s
  | .tsqReq t w => Sys2Proof.Machine.execTsqReq t w s
  | .tsqMark t w => Sys2Proof.Machine.execTsqMark t w s
  | .tsqEnd t w => Sys2Proof.Machine.execTsqEnd t w s
  | .unitCommit d u => Sys2Proof.Machine.execUnitCommit d u s
  | .unitRepeat d u => Sys2Proof.Machine.execUnitRepeat d u s
  | .holdRequest d cause frames atStep => Sys2Proof.Machine.execHoldRequest d cause frames atStep s
  | .holdNotice dom gen b frames cause => Sys2Proof.Machine.execHoldNotice dom gen b frames cause s
  | .holdBegin d => Sys2Proof.Machine.execHoldBegin d s
  | .holdEnd d => Sys2Proof.Machine.execHoldEnd d s
  | .flitReceive l h payload crcOk fecOk => Sys2Proof.Machine.execFlitReceive l h payload crcOk fecOk s
  | .ack l lgen m => Sys2Proof.Machine.execAck l lgen m s
  | .ackSend l => Sys2Proof.Machine.execAckSend l s
  | .credit l lgen m => Sys2Proof.Machine.execCredit l lgen m s
  | .lane l lgen m => Sys2Proof.Machine.execLane l lgen m s
  | .portDetect l => Sys2Proof.Machine.execPortDetect l s
  | .trainComplete l ok partnerRates good => Sys2Proof.Machine.execTrainComplete l ok partnerRates good s
  | .alignComplete l good => Sys2Proof.Machine.execAlignComplete l good s
  | .laneBad l k cause => Sys2Proof.Machine.execLaneBad l k cause s
  | .cablePresentChange l present => Sys2Proof.Machine.execCablePresentChange l present s
  | .portTrainRequest l => Sys2Proof.Machine.execPortTrainRequest l s
  | .remoteRequest p h data => Sys2Proof.Machine.execRemoteRequest p h data s
  | .remoteResponse p h data => Sys2Proof.Machine.execRemoteResponse p h data s
  | .bucketFlit fd p h payload => Sys2Proof.Machine.execBucketFlit fd p h payload s
  | .bucketLocalInput fd b => Sys2Proof.Machine.execBucketLocalInput fd b s
  | .bucketComplete fd b => Sys2Proof.Machine.execBucketComplete fd b s
  | .bucketDiscard fd b => Sys2Proof.Machine.execBucketDiscard fd b s
  | .redMcGo fd v => Sys2Proof.Machine.execRedMcGo fd v s
  | .multicastFlit fd p h payload => Sys2Proof.Machine.execMulticastFlit fd p h payload s
  | .multicastComplete fd m => Sys2Proof.Machine.execMulticastComplete fd m s
  | .gradientNotice fd n => Sys2Proof.Machine.execGradientNotice fd n s
  | .unitBeginNotice u => Sys2Proof.Machine.execUnitBeginNotice u s
  | .layerStart fd l => Sys2Proof.Machine.execLayerStart fd l s
  | .ueLdd fd c w => Sys2Proof.Machine.execUeLdd fd c w s
  | .ueXadd fd c w => Sys2Proof.Machine.execUeXadd fd c w s
  | .ueGbar fd c w => Sys2Proof.Machine.execUeGbar fd c w s
  | .ueDig fd c w => Sys2Proof.Machine.execUeDig fd c w s
  | .ueDone fd c w => Sys2Proof.Machine.execUeDone fd c w s
  | .digestReport k => Sys2Proof.Machine.execDigestReport k s
  | .digestCompare step reports => Sys2Proof.Machine.execDigestCompare step reports s
  | .rdS p h => Sys2Proof.Machine.execRdS p h s
  | .rdM p h => Sys2Proof.Machine.execRdM p h s
  | .rdU p h => Sys2Proof.Machine.execRdU p h s
  | .wrU p h data => Sys2Proof.Machine.execWrU p h data s
  | .wb p h data => Sys2Proof.Machine.execWb p h data s
  | .drop p h => Sys2Proof.Machine.execDrop p h s
  | .red p h data => Sys2Proof.Machine.execRed p h data s
  | .signal p h data => Sys2Proof.Machine.execSignal p h data s
  | .doorbell p h data => Sys2Proof.Machine.execDoorbell p h data s
  | .ringSetup p h data => Sys2Proof.Machine.execRingSetup p h data s
  | .snpAck p h data => Sys2Proof.Machine.execSnpAck p h data s
  | .snoopTimeout d line => Sys2Proof.Machine.execSnoopTimeout d line s
  | .rspD p h data => Sys2Proof.Machine.execRspD p h data s
  | .rspA p h => Sys2Proof.Machine.execRspA p h s
  | .completionInterruptTimeout mb => Sys2Proof.Machine.execCompletionInterruptTimeout mb s
  | .importWindowWrite w a b => Sys2Proof.Machine.execImportWindowWrite w a b s
  | .hello c => Sys2Proof.Machine.execHello c s
  | .getInfo c => Sys2Proof.Machine.execGetInfo c s
  | .getState c => Sys2Proof.Machine.execGetState c s
  | .capmapRead c => Sys2Proof.Machine.execCapmapRead c s
  | .ringRelease c => Sys2Proof.Machine.execRingRelease c s
  | .ctxCreate c => Sys2Proof.Machine.execCtxCreate c s
  | .ctxDestroy c => Sys2Proof.Machine.execCtxDestroy c s
  | .map c => Sys2Proof.Machine.execMap c s
  | .unmap c => Sys2Proof.Machine.execUnmap c s
  | .registerBacking c => Sys2Proof.Machine.execRegisterBacking c s
  | .jobLoad c => Sys2Proof.Machine.execJobLoad c s
  | .jobStart c => Sys2Proof.Machine.execJobStart c s
  | .jobHold c => Sys2Proof.Machine.execJobHold c s
  | .jobResume c => Sys2Proof.Machine.execJobResume c s
  | .jobDrain c => Sys2Proof.Machine.execJobDrain c s
  | .replicaSet c => Sys2Proof.Machine.execReplicaSet c s
  | .digestPolicy c => Sys2Proof.Machine.execDigestPolicy c s
  | .setLatTol c => Sys2Proof.Machine.execSetLatTol c s
  | .setPowerCap c => Sys2Proof.Machine.execSetPowerCap c s
  | .fence c => Sys2Proof.Machine.execFence c s
  | .unfenceRequest c pass => Sys2Proof.Machine.execUnfenceRequest c pass s
  | .testRun c failed elapsedMs => Sys2Proof.Machine.execTestRun c failed elapsedMs s
  | .testPackageBegin c => Sys2Proof.Machine.execTestPackageBegin c s
  | .testPackageData c => Sys2Proof.Machine.execTestPackageData c s
  | .testPackageCommit c => Sys2Proof.Machine.execTestPackageCommit c s
  | .testPackageDelete c => Sys2Proof.Machine.execTestPackageDelete c s
  | .fwStageBegin c => Sys2Proof.Machine.execFwStageBegin c s
  | .fwStageData c => Sys2Proof.Machine.execFwStageData c s
  | .fwStageCommit c => Sys2Proof.Machine.execFwStageCommit c s
  | .fwStageAbort c => Sys2Proof.Machine.execFwStageAbort c s
  | .fwShed c => Sys2Proof.Machine.execFwShed c s
  | .shedSwitch => Sys2Proof.Machine.execShedSwitch s
  | .shedAutoStart => Sys2Proof.Machine.execShedAutoStart s
  | .attest c => Sys2Proof.Machine.execAttest c s
  | .getCerts c => Sys2Proof.Machine.execGetCerts c s
  | .evtSubscribe c => Sys2Proof.Machine.execEvtSubscribe c s
  | .evtUnsubscribe c => Sys2Proof.Machine.execEvtUnsubscribe c s
  | .evtReplay c => Sys2Proof.Machine.execEvtReplay c s
  | .countersRead c => Sys2Proof.Machine.execCountersRead c s
  | .masterSet c => Sys2Proof.Machine.execMasterSet c s
  | .timeStatus c => Sys2Proof.Machine.execTimeStatus c s
  | .readClearRegister a ga => Sys2Proof.Machine.execReadClearRegister a ga s
  | .registerWrite a ga v => Sys2Proof.Machine.execRegisterWrite a ga v s
  | .watchdogFire k => Sys2Proof.Machine.execWatchdogFire k s
  | .hlPeak pin iin => Sys2Proof.Machine.execHlPeak pin iin s
  | .hlExc pin iin => Sys2Proof.Machine.execHlExc pin iin s
  | .hlCur pin iin => Sys2Proof.Machine.execHlCur pin iin s
  | .hwLimitRelease pin iin => Sys2Proof.Machine.execHwLimitRelease pin iin s
  | .thermalClamp d tj => Sys2Proof.Machine.execThermalClamp d tj s
  | .thermalClampRelease d tj => Sys2Proof.Machine.execThermalClampRelease d tj s
  | .dieOffTrip d tj => Sys2Proof.Machine.execDieOffTrip d tj s
  | .emergencyE1 pin => Sys2Proof.Machine.execEmergencyE1 pin s
  | .emergencyE2 c => Sys2Proof.Machine.execEmergencyE2 c s
  | .powerHoldRenew d => Sys2Proof.Machine.execPowerHoldRenew d s
  | .emergencyExit pin => Sys2Proof.Machine.execEmergencyExit pin s
  | .marginAlarm t slack => Sys2Proof.Machine.execMarginAlarm t slack s
  | .powerEstimate t => Sys2Proof.Machine.execPowerEstimate t s
  | .powerCalibration d => Sys2Proof.Machine.execPowerCalibration d s
  | .coolantAlarm tin tout => Sys2Proof.Machine.execCoolantAlarm tin tout s
  | .ageingReading t dNow dBase vneedPlanned vneed1800 => Sys2Proof.Machine.execAgeingReading t dNow dBase vneedPlanned vneed1800 s
  | .tileIdle t => Sys2Proof.Machine.execTileIdle t s
  | .powerStateEnter u ps => Sys2Proof.Machine.execPowerStateEnter u ps s
  | .powerStateWake u => Sys2Proof.Machine.execPowerStateWake u s
  | .rateSummary src => Sys2Proof.Machine.execRateSummary src s
  | .eventDatagramSend coll => Sys2Proof.Machine.execEventDatagramSend coll s
  | .eventRingSpaceReturn mb head => Sys2Proof.Machine.execEventRingSpaceReturn mb head s
  | .shadowDigestCompare shadow => Sys2Proof.Machine.execShadowDigestCompare shadow s
  | .retrainComplete l ok => Sys2Proof.Machine.execRetrainComplete l ok s
  | .powerUpRetry => Sys2Proof.Machine.execPowerUpRetry s
  | .mgtLinkChange p up => Sys2Proof.Machine.execMgtLinkChange p up s
  | .mgtFrameReceive p f => Sys2Proof.Machine.execMgtFrameReceive p f s
  | .enec c => Sys2Proof.Machine.execEnec c s
  | .boundaryScan op => Sys2Proof.Machine.execBoundaryScan op s
  | .eventEngineLoss e => Sys2Proof.Machine.execEventEngineLoss e s
  | .inputTurnOn => Sys2Proof.Machine.execInputTurnOn s
  | .inrushTimeout => Sys2Proof.Machine.execInrushTimeout s
  | .inrushRetry => Sys2Proof.Machine.execInrushRetry s
  | .supplyShutdown c => Sys2Proof.Machine.execSupplyShutdown c s
  | .clipSenseBreak clip => Sys2Proof.Machine.execClipSenseBreak clip s
  | .modRstNRise b => Sys2Proof.Machine.execModRstNRise b s
  | .modRstNFall ns => Sys2Proof.Machine.execModRstNFall ns s
  | .recoveryOpen => Sys2Proof.Machine.execRecoveryOpen s
  | .recoveryData off bytes => Sys2Proof.Machine.execRecoveryData off bytes s
  | .recoveryClose => Sys2Proof.Machine.execRecoveryClose s
  | .i3cWake => Sys2Proof.Machine.execI3cWake s
  | .mgtAddrWrite p bytes => Sys2Proof.Machine.execMgtAddrWrite p bytes s
  | .collectorWrite bytes => Sys2Proof.Machine.execCollectorWrite bytes s

end Sys2Proof.Machine
end

