-- ==== Sys2Proof/Machine/Tick.lean ====
section
/-!
DEFINITION. One fabric tick (R10, R301): what comes about on an empty queue.
-/

namespace Sys2Proof.Machine

/-- A tick of a domain slot's hold (R289, R314): schedule time stands still; at a frame boundary the
frames held are counted. -/
def State.domTick (s : State) (d : Fin 2) : State :=
  if (s.dom d).started && (s.dom d).hold.active then
    let s := s.holdTicks d 1
    if s.ftc % 65536 = 0 then s.fabBump 0x108 1 else s
  else s

/-- Microseconds that compute dies stay clamped are counted (Table 15.16). -/
def State.clampTick (s : State) : State :=
  if s.ftc % 450 ≠ 0 then s
  else (List.finRange 48).foldl (fun s d => if s.clamped d then s.bump (regGa d.val 0x130420) 1 else s) s

/-- Waiting commands are given again (DESIGN CHOICE, log entry 8). -/
def State.retry (s : State) : State := { s with pending := s.waits, waits := [] }

/-- One fabric tick on an empty queue (DESIGN CHOICE, log entry 14): the FTC advances while the module runs, and held domains'
shifts with it; draining domains end; event rings announce their records in time; commands that wait are given again. -/
def State.tick (s : State) : State :=
  if s.on then
    let s := (({ s with ftc := s.ftc + 1 } : State).domTick 0).domTick 1
    let s := (s.drainTick 0).drainTick 1
    ((List.range 8).foldl (fun s m => s.ringTimer m) s.clampTick).retry
  else s.retry

end Sys2Proof.Machine
end

