-- ==== Sys2Proof/Machine/Step.lean ====
section
/-!
DEFINITION. One step of the block: the front command, or one fabric tick on an empty queue.
-/

namespace Sys2Proof.Machine

/-- The step (DESIGN CHOICE, log entry 14): the command at the front of the queue is taken and performed on the state
with the queue's rest; on an empty queue one fabric tick passes (DESIGN CHOICE, log entry 74). -/
def step (s : State) : Host.Outcome State Fault Refusal :=
  match s.pending with
  | [] => .next s.tick
  | c :: rest => exec c { s with pending := rest }

/-- The state with the command that a word spells put at the front of its queue; the table gives no bits,
so no word spells one. -/
def State.withFetchWord (s : State) (nbits w : Nat) : State :=
  match decodeTableWord nbits w with
  | none => s
  | some c => { s with pending := c :: s.pending }

end Sys2Proof.Machine
end

