-- ==== Sys2Proof/Safety.lean ====
section
/-!
DEFINITION. What counts as a safe state of the block, the canonical form of its sparse data; and the terms in which
the statements say when a command acts and what it leaves alone.
-/

namespace Sys2Proof

open Machine

/-! ### Canonical form -/

/-- Whether memory has its canonical form: addresses strictly rising, no byte at what an unlisted one
reads as. -/
def Memory.wf (m : SMap Byte) : Bool := mapWf 0 m

/-- The canonical form of the state's memory and of its sets of poisoned granules and sync words. -/
def tidy (s : Machine.State) : Bool := Memory.wf s.mem && mapWf false s.poison && mapWf 0 s.sync

/-! ### When a unit acts -/

/-- A tile's sequencer issues its next word: it can, and the word's fetch translates (R197, R321). -/
def seqGoes (s : Machine.State) (t : TileId) : Prop :=
  s.seqReady t = true ∧
  ∃ x, s.xlAns (tileDie t) (s.tile t).seq.ctx (s.tile t).seq.pc.toNat .fetch .plain = .ok x

/-- A group issues its next instruction with `u`: it can, stands on a path, and the fetch translates (R118). -/
def tgGoes (s : Machine.State) (t : TileId) (g : Nat) (u : TgIssue) : Prop :=
  s.tgReady t g = some u ∧ u.ent.st = .path ∧
  ∃ x, s.xlAns (tileDie t) u.ctx u.ent.pc.toNat .fetch .plain = .ok x

/-- A vector engine issues its next instruction: it runs a program, and the fetch translates and finds no
poison; or an update core runs one and does not wait at UE.GBAR (R154, R197, R389). -/
def vuGoes (s : Machine.State) (u : VUnit) : Prop :=
  (s.vu u).running = true ∧
  match u with
  | .tile t => s.tileOn t = true ∧
      ∃ x, s.xlAns (tileDie t) (s.vu u).ctx (s.vu u).pc.toNat .fetch .plain = .ok x ∧ s.poisonedAt x.ga 8 = false
  | .core fd c => s.fdOn fd.val = true ∧ s.coreFree fd.val c.val = true

/-! ### What a command leaves alone -/

/-- Nothing but one tile and its registers differs. -/
def tileOnly (s t : Machine.State) (k : TileId) : Prop :=
  t = { s with tiles := t.tiles, regs := t.regs } ∧ (∀ j, j ≠ k → t.tile j = s.tile j) ∧
  ∀ a, (a < tileReg k 0 ∨ tileReg k 0x10000 ≤ a) → t.reg a = s.reg a

/-- Every byte outside a range is as before. -/
def memoryBut (s t : Machine.State) (ga n : Nat) : Prop :=
  ∀ a, (a < ga ∨ ga + n ≤ a) → t.byte a = s.byte a

/-- Nothing but the FTC, the time unit and FAB_TIME_STATUS of the fabric dies differs. -/
def timeOnly (s t : Machine.State) : Prop :=
  t = { s with regs := t.regs, ftc := t.ftc, time := t.time } ∧
  ∀ a, (∀ f, f < 4 → a ≠ regGa (48 + f) 0x8010) → t.reg a = s.reg a

/-- Nothing but registers, the fabric's links and what has been sent differs; and of the links only one, of the
registers only those of its block. -/
def linkOnly (s t : Machine.State) (l : Nat) : Prop :=
  t = { s with regs := t.regs, fab := t.fab, out := t.out } ∧ t.fab = { s.fab with links := t.fab.links } ∧
  (∀ k, k ≠ l → t.link k = s.link k) ∧
  ∀ a, (a < linkReg l 0 ∨ linkReg l 0x1000 ≤ a) → t.reg a = s.reg a

/-- Memory, its poison and the sync words are as before. -/
def memorySame (s t : Machine.State) : Prop := t.mem = s.mem ∧ t.poison = s.poison ∧ t.sync = s.sync

/-! ### Mailbox commands -/

/-- A mailbox's command reaches its own part: firmware runs and its role is filled, the rings it came by are on, it is
no retransmission, no earlier command stands before it, and none of the checks of R492 refuses it, those of its
payload apart. -/
def mbxGoes (s : Machine.State) (r : MbxRow) (c : MbxCmd) (job : Option (Fin 2)) : Prop :=
  s.fwOn = true ∧ (s.pwr.ps = 5 → c.mb ≠ 8) ∧ (c.mb.val < 8 → s.ringsOn c.mb.val = true) ∧
  ¬(c.mb = 8 ∧ s.fw.mLast.map (·.1) = some c) ∧ s.pwr.vacant = false ∧ s.mbxBehind c.mb.val job = false ∧
  (s.mbxEarly r c).1 = none ∧ (mbxSigned r c = true → c.hdr.flags.getLsbD 1 = true ∧ s.sigOk r c = true) ∧
  s.mbxLegal r = true

/-- Once it reaches its own part, a command completes with a status, a RESULT and a response payload, in a state of
which `post` says how it differs from the one in which its own part began. -/
def mbxAnswers (s : Machine.State) (i : Instr) (r : MbxRow) (c : MbxCmd) (job : Option (Fin 2)) (st : Nat)
    (res resp : List Byte) (post : Machine.State → Machine.State → Prop) : Prop :=
  mbxGoes s r c job →
    ∃ x : Machine.State, exec i s = .next (x.complete c r.code st res resp) ∧ post (s.mbxTaken r c) x

/-- Once it reaches its own part, a command takes effect and completes later, when `k` has come about. -/
def mbxLater (s : Machine.State) (i : Instr) (r : MbxRow) (c : MbxCmd) (job : Option (Fin 2)) (k : Later)
    (post : Machine.State → Machine.State → Prop) : Prop :=
  mbxGoes s r c job →
    ∃ n : Machine.State, exec i s = .next n ∧ n.fw.later = s.fw.later ++ [(c, k)] ∧ post (s.mbxTaken r c) n

/-- Nothing differs. -/
def unchanged (y x : Machine.State) : Prop := x = y

/-! ### Accesses of a group's lanes -/

/-- The register rd of every lane of a mask holds what a load of `sz` bytes at `ga lane` gives, and every other
register is as before (R121). -/
def laneLoaded (s : Machine.State) (g g' : TgGroup) (mask : BitVec 32) (rd : BitVec 8) (sz : Nat) (sx : Bool)
    (ga : Nat → Nat) : Prop :=
  (∀ l ∈ lanes mask,
    if sz = 8 then g'.pair l rd.toNat = BitVec.ofNat 64 (leNat (s.bytesAt (ga l) 8))
    else g'.reg l rd.toNat =
      if sx then BitVec.ofInt 32 (ofTwos (8 * sz) (leNat (s.bytesAt (ga l) sz)))
      else BitVec.ofNat 32 (leNat (s.bytesAt (ga l) sz))) ∧
  ∀ l r, l < 32 → r < 256 → (l ∉ lanes mask ∨ (r ≠ rd.toNat ∧ (sz = 8 → r ≠ rd.toNat + 1))) →
    g'.reg l r = g.reg l r

/-- Memory holds what every lane of a mask stored at `ga lane`, where no other lane's bytes overlap, and is as
before outside the stored bytes. -/
def laneStored (s t : Machine.State) (mask : BitVec 32) (sz : Nat) (ga : Nat → Nat) (data : Nat → List Byte) : Prop :=
  (∀ a, (∀ l ∈ lanes mask, a < ga l ∨ ga l + sz ≤ a) → t.byte a = s.byte a) ∧
  ∀ l ∈ lanes mask, (∀ k ∈ lanes mask, k ≠ l → ga k + sz ≤ ga l ∨ ga l + sz ≤ ga k) →
    t.bytesAt (ga l) sz = data l

/-- Every lane of a mask accesses the tile's own memory, in order, at `ga lane`. -/
def lanesOwn (s : Machine.State) (t : TileId) (u : TgIssue) (k : XKind) (mask : BitVec 32) (sz : Nat)
    (va : Nat → Nat) (ga : Nat → Nat) : Prop :=
  ∀ l ∈ lanes mask, ownMem t (ga l) = true ∧ ∃ x, s.checkLane t u.ctx k sz l (va l) = .ok x ∧ x.ga = ga l

/-! ### Results of vector instructions -/

/-- Element i of the operands VS1, VS2 and VS3 of a word, at its type's width. -/
def vxA (x : VxSt) (w : BitVec 56) (i : Nat) : Nat := x.el (vxVs1 w) (vxWidth (vxType w)) i
/-- Element i of VS2. -/
def vxB (x : VxSt) (w : BitVec 56) (i : Nat) : Nat := x.el (vxVs2 w) (vxWidth (vxType w)) i
/-- Element i of VS3. -/
def vxC (x : VxSt) (w : BitVec 56) (i : Nat) : Nat := x.el (vxVs3 w) (vxWidth (vxType w)) i

/-- What R156 says of an element-wise result: the first VL elements of VD that the mask lets through hold the
results, those masked off are kept or, under MZ, zero, and those from VL on are kept; every other register, VL,
memory and the sync words are as before, and the program goes on behind the word. -/
def vxElemDone (s n : Machine.State) (u : VUnit) (w : BitVec 56) (f : Nat → Nat) : Prop :=
  let x := s.vu u
  let y := n.vu u
  let wd := vxWidth (vxType w)
  (∀ i, i < x.vl → y.el (vxVd w) wd i =
    if x.act w i then f i % 2 ^ wd else if vxMz w then 0 else x.el (vxVd w) wd i) ∧
  (∀ i, x.vl ≤ i → i < 4096 / wd → y.el (vxVd w) wd i = x.el (vxVd w) wd i) ∧
  (∀ r, r ≠ vxVd w → y.vr r = x.vr r) ∧ y.sreg = x.sreg ∧ y.p = x.p ∧ y.vl = x.vl ∧ y.pc = x.pc + 8 ∧
  n.mem = s.mem ∧ n.sync = s.sync

/-- A command is the element-wise instruction that `f` describes: legal words (`ok`), whose widest operand has
`wide` bits, complete with its results. -/
def vxElemwise (c : VUnit → BitVec 56 → Instr) (wide : BitVec 56 → Nat) (ok : VxEnv → VxSt → BitVec 56 → Bool)
    (f : VxEnv → VxSt → BitVec 56 → Nat → Nat) : Prop :=
  ∀ (s : Machine.State) (u : VUnit) (w : BitVec 56), vuGoes s u → vxWordOk w = true →
    ok (s.vuEnv u) (s.vu u) w = true → (s.vu u).vl ≤ vlMax (s.vuEnv u).rbits (wide w) →
    ∃ n, exec (c u w) s = .next n ∧ vxElemDone s n u w (f (s.vuEnv u) (s.vu u) w)

/-- What a scalar result leaves: the register named holds it (s0 stays 0), and every other register, VL and memory
are as before. -/
def vxScalarDone (s n : Machine.State) (u : VUnit) (r : Nat) (v : BitVec 64) : Prop :=
  let x := s.vu u
  let y := n.vu u
  y.s r = (if r = 0 then 0 else v) ∧ (∀ k, k ≠ r → y.s k = x.s k) ∧ y.v = x.v ∧ y.p = x.p ∧ y.vl = x.vl ∧
  y.pc = x.pc + 8 ∧ n.mem = s.mem ∧ n.sync = s.sync

/-- A command is the instruction with the scalar result that `f` describes, into the register VD. -/
def vxScalarly (c : VUnit → BitVec 56 → Instr) (wide : BitVec 56 → Nat) (ok : VxEnv → VxSt → BitVec 56 → Bool)
    (f : VxEnv → VxSt → BitVec 56 → BitVec 64) : Prop :=
  ∀ (s : Machine.State) (u : VUnit) (w : BitVec 56), vuGoes s u → vxWordOk w = true →
    ok (s.vuEnv u) (s.vu u) w = true → (s.vu u).vl ≤ vlMax (s.vuEnv u).rbits (wide w) →
    ∃ n, exec (c u w) s = .next n ∧ vxScalarDone s n u (vxVd w) (f (s.vuEnv u) (s.vu u) w)

/-- A command is the instruction with the mask result that `f` describes, into the mask register VD: p0 stays all
ones, and every other register, VL and memory are as before (R159). -/
def vxMaskly (c : VUnit → BitVec 56 → Instr) (wide : BitVec 56 → Nat) (ok : VxEnv → VxSt → BitVec 56 → Bool)
    (f : VxEnv → VxSt → BitVec 56 → Nat → Bool) : Prop :=
  ∀ (s : Machine.State) (u : VUnit) (w : BitVec 56), vuGoes s u → vxWordOk w = true →
    ok (s.vuEnv u) (s.vu u) w = true → (s.vu u).vl ≤ vlMax (s.vuEnv u).rbits (wide w) →
    ∃ n, exec (c u w) s = .next n ∧
      (∀ i, i < 512 → ((n.vu u).pr (vxVd w)).getLsbD i =
        if vxVd w = 0 then true else f (s.vuEnv u) (s.vu u) w i) ∧
      (∀ k, k ≠ vxVd w → (n.vu u).pr k = (s.vu u).pr k) ∧ (n.vu u).v = (s.vu u).v ∧
      (n.vu u).sreg = (s.vu u).sreg ∧ (n.vu u).vl = (s.vu u).vl ∧ (n.vu u).pc = (s.vu u).pc + 8 ∧ n.mem = s.mem

/-- Every active element of a word accesses the tile's own memory at `ga i`, at the address `va i`. -/
def vxOwn (s : Machine.State) (t : TileId) (w : BitVec 56) (store : Bool) (n : Nat) (va ga : Nat → Nat) : Prop :=
  ∀ i ∈ (s.tile t).vx.actives w (s.tile t).vx.vl, ownMem t (ga i) = true ∧
    ∃ a, s.vuCheck (.tile t) store n (i, va i % 2 ^ 48) = .ok a ∧ a.x.ga = ga i

/-- Memory holds what every active element stored at `ga i`, where no other's bytes overlap, and is as before
outside the stored bytes; registers keep their values. -/
def vxStored (s m : Machine.State) (t : TileId) (w : BitVec 56) (n : Nat) (ga : Nat → Nat) (v : Nat → Nat) : Prop :=
  let l := (s.tile t).vx.actives w (s.tile t).vx.vl
  (∀ a, (∀ i ∈ l, a < ga i ∨ ga i + n ≤ a) → m.byte a = s.byte a) ∧
  (∀ i ∈ l, (∀ k ∈ l, k ≠ i → ga k + n ≤ ga i ∨ ga i + n ≤ ga k) → m.bytesAt (ga i) n = leBytes n (v i)) ∧
  (m.tile t).vx = { (s.tile t).vx with pc := (s.tile t).vx.pc + 8 } ∧ m.sync = s.sync

end Sys2Proof
end

