-- ==== Sys2Proof/Certificates/Slice0/Obligations.lean ====
section
/-!
DEFINITION. The statements for the provers, family by family.
-/

open Sys2Proof Sys2Proof.Machine

/-! ### Sequencer words (chapter 9) -/

/-- R315, R323, R335: TSQ.HOLD passes at its planned tick and notes how late it is after it. Before it, or at a tick
at which a hold stands, it keeps its tile waiting until TSQ_HOLD_TARGET finds that both have changed. In dynamic mode
it does not wait. Table 9.4, R329, R332, R340, R341: TSQ.JOIN passes when the engines it names have finished and waits
for them otherwise; TSQ.UNIT begins a unit with fresh flags and marks where a repeat returns to; TSQ.LAYER names the
layer and takes the widenings in force for it; TSQ.MARK sets the mark and, for 1 and 2, opens and closes the domain's
window. Model's choices in it: log entries 8 and 46. -/
def Obligations.TsqHoldsJoinsUnitsMarks : Prop :=
  (∀ (s : State) (t : TileId) (w : BitVec 120),
      (seqGoes s t → wbits w 119 40 = 0 →
        let i := s.seqIssued t
        let q := (i.tile t).seq
        let target := q.stepBase * 65536 + wbits w 39 0
        (i.tileDynamic t = true → exec (.tsqHold t w) s = .next i) ∧
        (i.tileDynamic t = false → target < i.sched q.dom.val →
          exec (.tsqHold t w) s = .next (i.noteLate t (i.sched q.dom.val - target))) ∧
        (i.tileDynamic t = false → target = i.sched q.dom.val → (i.dom q.dom).hold.active = false →
          exec (.tsqHold t w) s = .next i) ∧
        (i.tileDynamic t = false →
          i.sched q.dom.val < target ∨ (target = i.sched q.dom.val ∧ (i.dom q.dom).hold.active = true) →
          ∃ n, exec (.tsqHold t w) s = .next n ∧ (n.tile t).seq = { q with wait := .hold target } ∧
            tileOnly i n t)) ∧
      (∀ target, (s.tile t).seq.wait = .hold target → s.tileOn t = true → (s.tile t).seq.running = true →
        s.domLets t = true → s.holdPasses t target = true →
        ∃ n, exec (.tsqHoldTarget t) s = .next n ∧ (n.tile t).seq = { (s.tile t).seq with wait := .none } ∧
          tileOnly s n t)) ∧
  (∀ (s : State) (t : TileId) (w : BitVec 120), seqGoes s t →
      let i := s.seqIssued t
      let q := (i.tile t).seq
      (wbits w 119 4 = 0 →
        (i.joined t (wbits w 3 0) = true → exec (.tsqJoin t w) s = .next i) ∧
        (i.joined t (wbits w 3 0) = false → ∃ n, exec (.tsqJoin t w) s = .next n ∧
          (n.tile t).seq = { q with wait := .join (wbits w 3 0) } ∧ tileOnly i n t)) ∧
      (wbits w 119 16 = 0 → ∃ n, exec (.tsqUnit t w) s = .next n ∧
        (n.tile t).seq.unit = some (wbits w 15 0) ∧ (n.tile t).seq.flags = [] ∧
        (n.tile t).seq.marks.head? = some ⟨wbits w 15 0, q.pc, q.step, q.stepBase⟩ ∧
        (∀ m, m.unit ≠ wbits w 15 0 → (m ∈ (n.tile t).seq.marks ↔ m ∈ q.marks)) ∧ tileOnly i n t) ∧
      (wbits w 119 32 = 0 → q.odigElems = 0 → ∃ n, exec (.tsqLayer t w) s = .next n ∧
        (n.tile t).seq.layer = wbits w 31 0 ∧ (n.tile t).seq.arrayIdx = 0 ∧
        (∀ v, (i.dom q.dom).widens.find? (·.layer = wbits w 31 0) = some v →
          (n.tile t).seq.wideA = v.a ∧ (n.tile t).seq.wideR = v.r ∧ (n.tile t).seq.wideE = v.e) ∧
        tileOnly i n t) ∧
      (wbits w 119 2 = 0 → ∃ n,
        (wbits w 1 0 = 1 ∨ wbits w 1 0 = 2 → exec (.tsqMark t w) s = .next n ∧
          (n.tile t).seq = { q with mark := wbits w 1 0 } ∧
          (n.dom q.dom) = { i.dom q.dom with window := decide (wbits w 1 0 = 1) }) ∧
        (wbits w 1 0 = 0 → exec (.tsqMark t w) s = .next n ∧ (n.tile t).seq = { q with mark := 0 })))

/-- R325, R339, R321, Table 14.4: TSQ.NEXT takes the stream to the next step: STEP and STEP_BASE advance and the PC is
the word named; in a fallback the tile then waits for the step's end. TSQ.REQ asks for a fallback when the word it
names is not zero. TSQ.END ends the stream. R329: TSQ.UEND ends the unit and arrives at the named counter with what
the tile gathered in it: the flags with their layers, FAULT and TIMEOUT, which start afresh. Model's choices in it:
log entries 58 and 63. -/
def Obligations.TsqStepsAndReports : Prop :=
  (∀ (s : State) (t : TileId) (w : BitVec 120), seqGoes s t →
      let i := s.seqIssued t
      let q := (i.tile t).seq
      (wbits w 119 48 = 0 → ∃ n, exec (.tsqNext t w) s = .next n ∧
        (n.tile t).seq = { q with step := q.step + 1, stepBase := q.stepBase + i.regField (domReg q.dom.val 0) 23 0,
                                  pc := BitVec.ofNat 48 (wbits w 47 0),
                                  wait := if (i.dom q.dom).dyn = .fallback then .stepEnd else .none } ∧
        n.mem = i.mem ∧ n.sync = i.sync) ∧
      (wbits w 23 22 = 0 → wbits w 119 24 = 0 → wbits w 21 0 % 8 = 0 →
        (i.bytesAt (tmGa t (wbits w 21 0)) 8 = leBytes 8 0 → exec (.tsqReq t w) s = .next i) ∧
        (i.bytesAt (tmGa t (wbits w 21 0)) 8 ≠ leBytes 8 0 → (i.dom q.dom).dyn ≠ .fallback →
          exec (.tsqReq t w) s = .next (i.requestHold q.dom .fallback 0 false))) ∧
      (w = 0 → ∃ n, exec (.tsqEnd t w) s = .next n ∧
        ((i.setSeq t { q with running := false, unit := none }).streamsEnded q.dom = false →
          (n.tile t).seq = { q with running := false, unit := none } ∧ tileOnly i n t) ∧
        ((i.setSeq t { q with running := false, unit := none }).streamsEnded q.dom = true →
          (n.dom q.dom).started = false))) ∧
  (∀ (s : State) (t : TileId) (w : BitVec 120), seqGoes s t → wbits w 47 21 = 0 → wbits w 71 56 = 0 →
      wbits w 119 112 = 0 →
      let i := (s.seqIssued t).digestLog t
      let q := (i.tile t).seq
      exec (.tsqUend t w) s = .next
        ((i.setSeq t { q with unit := none, flags := [], fault := false, late := false }).seqArrive t (wbits w 20 16)
          (wbits w 55 48)
          ((i.setSeq t { q with unit := none, flags := [], fault := false, late := false }).seqDeadline t
            (wbits w 111 72))
          (some ⟨q.flags.map fun g => ⟨BitVec.ofNat 32 g.layer, g.wovf, g.rovf, g.eovf, g.special, g.noWider⟩,
            q.fault, false, q.late⟩)))

/-! ### The matrix array (chapter 3) -/

/-- R65 to R72, R69, R84: MXA.MM and MXA.MMT that raise no fault leave the run that they add to open with K × P more
products, or, with RD = 1, read it out and close it. Every instruction advances SEQ (Table 3.13). R68, R72, R84:
MXA.LDS puts the first chunk of the stored operand into the shadow buffer and touches no accumulator; MXA.RD reads the
open run out and closes it, MXA.CLR closes it without readout. -/
def Obligations.MxaMultiplyLoadRead : Prop :=
  (∀ (s : State) (t : TileId) (w : BitVec 120) (mmt : Bool), seqGoes s t →
      let i := (s.seqIssued t).arrayStart t
      let op := if mmt then 3 else 2
      let a := (arrWord op w).widened ((s.seqIssued t).tile t).seq
      let d := a.dims (i.opd t a.sd) (i.opd t a.bd)
      let old := if a.clr then 0 else (i.tile t).mxa.run.elim 0 (·.count)
      i.mmFault t a = none → (i.die (tileDie t)).errs = [] → i.poison = [] →
      ∃ n, exec (if mmt then .mxaMmt t w else .mxaMm t w) s = .next n ∧
        (a.rd = false → (n.tile t).mxa.run =
          some ⟨mmt, a.shape, a.anchor, a.headroom, d.m, d.n, old + d.k * passes a.fmt⟩) ∧
        (a.rd = true → (n.tile t).mxa.run = none ∧ (n.tile t).mxa.cells = []) ∧
        (n.tile t).mxa.shadowNew = false) ∧
  (∀ (s : State) (t : TileId) (w : BitVec 120), seqGoes s t →
      let i := (s.seqIssued t).arrayStart t
      let q := ((s.seqIssued t).tile t).seq
      ((i.die (tileDie t)).errs = [] → i.poison = [] →
        let a := (arrWord 1 w).widened q;
        i.ldsFault t a = none → ∃ n, exec (.mxaLds t w) s = .next n ∧
          (n.tile t).mxa.shadow = some (i.loadChunk t a.lform a.shape (i.width t) (fmtWide a.fmt).1 (i.opd t a.sd)
            (ldsDims a (i.opd t a.sd)) 0 0) ∧
          (n.tile t).mxa.shadowNew = true ∧ (n.tile t).mxa.active = (i.tile t).mxa.active ∧
          (n.tile t).mxa.run = (i.tile t).mxa.run ∧ (n.tile t).mxa.cells = (i.tile t).mxa.cells) ∧
      (let a := (arrWord 4 w).widened q;
        i.rdFault t a = none → ∃ n, exec (.mxaRd t w) s = .next n ∧ (n.tile t).mxa.run = none ∧
          ((i.tile t).mxa.run ≠ none → (n.tile t).mxa.cells = [])) ∧
      (let a := (arrWord 5 w).widened q;
        a.illegal = false → i.width t ≠ 0 → ∃ n, exec (.mxaClr t w) s = .next n ∧ (n.tile t).mxa.run = none ∧
          (n.tile t).mxa.cells = [] ∧ (n.tile t).mxa.active = (i.tile t).mxa.active))

/-- R87, R89, R90, R92: without a fault or poison, MXA.ATS leaves an ATV due at its KPOS, MXA.ATV performs it, and
MXA.ATF ends the sequence. The first two close the open run, the third leaves it. -/
def Obligations.AttentionSequence : Prop :=
  ∀ (s : State) (t : TileId) (w : BitVec 120), seqGoes s t →
    let i := (s.seqIssued t).arrayStart t
    let q := ((s.seqIssued t).tile t).seq
    (i.die (tileDie t)).errs = [] → i.poison = [] →
    (let a := (arrWord 8 w).widened q;
      i.attFault t a = none → ∃ n, exec (.mxaAts t w) s = .next n ∧
        ((i.attParam t a.ad).recomp = false → ∃ f, (n.tile t).mxa.att = some ⟨true, f, (i.attParam t a.ad).kpos⟩) ∧
        ((i.attParam t a.ad).recomp = true → (n.tile t).mxa.att = (i.tile t).mxa.att) ∧
        (n.tile t).mxa.run = none) ∧
    (let a := (arrWord 9 w).widened q;
      i.attFault t a = none → ∃ n, exec (.mxaAtv t w) s = .next n ∧
        (n.tile t).mxa.att = (i.tile t).mxa.att.map (fun x => ⟨false, false, x.kpos⟩) ∧
        (n.tile t).mxa.stats = (i.tile t).mxa.stats ∧ (n.tile t).mxa.run = none) ∧
    (let a := (arrWord 10 w).widened q;
      i.attFault t a = none → ∃ n, exec (.mxaAtf t w) s = .next n ∧
        (n.tile t).mxa.att = none ∧ (n.tile t).mxa.run = (i.tile t).mxa.run)

/-! ### Thread groups (chapter 4) -/

/-- R113, R115, R322: TG.LAUNCH takes the kernel that its descriptor gives, and the engine is busy; a busy engine
makes the word wait. R111, R114: with nothing resident, BLOCK_PLACE places the next block: its groups, in the lowest
slots, stand at the entry with the lanes that exist, and the launch goes on to the next index. R120, R123:
GROUP_DATA_RETURN gives a group whose requests have all left and been answered its values and frees its slots;
REQUEST_SLOT_GRANT lets the first waiting request that finds a slot leave the queue. Model's choices in it: log
entries 8 and 10. -/
def Obligations.TgLaunchesPlacesAnswers : Prop :=
  (∀ (s : State) (t : TileId) (w : BitVec 120),
      (s.seqReady t = true → ((s.tile t).seq.tgBusy = true ∨ (s.tile t).tge.launch.isSome = true) →
        exec (.tgLaunch t w) s = .next (s.wait (.tgLaunch t w))) ∧
      (seqGoes s t → (s.tile t).seq.tgBusy = false → (s.tile t).tge.launch = none → wbits w 119 48 = 0 →
        let i := s.seqIssued t
        ∀ x d, i.xlAns (tileDie t) (s.tile t).seq.ctx (wbits w 47 0) .load .plain = .ok x →
          i.poisonedAt x.ga 64 = false → kernelDesc (i.bytesAt x.ga 64) = some d → d.fits (i.bsmPool t) = true →
          ∃ n, exec (.tgLaunch t w) s = .next n ∧ (n.tile t).tge.launch = some ⟨d, (s.tile t).seq.ctx, 0⟩ ∧
            (n.tile t).seq.tgBusy = true ∧ tileOnly i n t)) ∧
  (∀ (s : State) (t : TileId) (l : TgLaunchSt), s.tileOn t = true → (s.tile t).tge.launch = some l →
      (s.tile t).tge.groups = [] → (s.tile t).tge.blocks = [] → l.next < l.desc.blocks → 1 ≤ l.desc.threads →
      l.desc.threads ≤ 1024 → l.desc.fits (s.bsmPool t) = true →
      ∃ n, exec (.blockPlace t) s = .next n ∧ (n.tile t).tge.launch = some { l with next := l.next + 1 } ∧
        (∀ k, k < l.desc.groups → ∃ g, (n.tile t).tge.group k = some g ∧ g.num = k ∧
          g.stack = [⟨l.desc.entry, lanesOf l.desc.threads k, none, .path⟩]) ∧
        (∀ k, l.desc.groups ≤ k → (n.tile t).tge.group k = none) ∧ tileOnly s n t) ∧
  (∀ (s : State) (t : TileId), s.tileOn t = true →
      (∀ (g : Fin 48) (gr : TgGroup), (s.tile t).tge.group g.val = some gr → gr.banks ≠ [] →
        (∀ r ∈ (s.tile t).tge.queue, r.group ≠ g.val) →
        ∃ g', exec (.groupDataReturn t g) s = .next (s.putGroup t g.val g') ∧ g'.banks = [] ∧ g'.back = [] ∧
          g'.regs = gr.back.foldl (fun m e => mapSet 0 m e.1 e.2) gr.regs ∧ g'.stack = gr.stack) ∧
      (∀ r rest, grantable (s.tile t) [] (s.tile t).tge.queue = some (r, rest) → ∀ x,
        s.mustWait (r.accs.map fun a => (a.ga, match a.act with | .load _ _ => false | _ => true)) = (false, x) →
        exec (.requestSlotGrant t) s = .next (x.grant t r rest)))

/-- R119 to R122: in the tile's own memory, TG.LD gives each lane of the mask the bytes at its address, TG.ST leaves
there what the lane's register holds, and the path goes on behind the instruction. R121, R125: in the tile's own
memory, TG.ATOM leaves at each lane's word, where the words are distinct, the operation's result on what it held, and
RET gives the lane what it held. R116, R121, R125: TG.LDB, TG.STB and TG.ATOMB do the same in the block's shared
memory, at the offsets that lie in it, aligned. Model's choices in it: log entry 10. -/
def Obligations.TgMemoryAccess : Prop :=
  (∀ (s : State) (t : TileId) (g : Fin 48) (u : TgIssue) (m : TgMem) (ga : Nat → Nat), tgGoes s t g.val u →
      u.pairOk m.ra.toNat = true → u.valOk m.rd m.size = true → m.hint.toNat ≤ 4 →
      (s.die (tileDie t)).errs = [] → s.poison = [] →
      let i := s.tgIssued t u
      let sz := 2 ^ m.size.val
      let va := fun l => laneVa u.g l m.ra m.off
      (lanesOwn i t u .load u.ent.mask sz va ga →
        ∃ x g', exec (.tgLd t g m) s = .next (x.putGroup t g.val g') ∧ tileOnly i x t ∧
          g'.stack = u.advance.stack ∧ laneLoaded i u.g g' u.ent.mask m.rd sz m.sx ga) ∧
      (lanesOwn i t u .store u.ent.mask sz va ga →
        ∃ x, exec (.tgSt t g m) s = .next (x.putGroup t g.val { u.advance with win := none }) ∧
          laneStored i x u.ent.mask sz ga (fun l => u.g.bytes l m.rd sz) ∧ x.sync = i.sync)) ∧
  (∀ (s : State) (t : TileId) (g : Fin 48) (u : TgIssue) (m : TgAtomic) (ga : Nat → Nat), tgGoes s t g.val u →
      u.atomicOk m true = true → s.tgRefused u m.op = false → (s.die (tileDie t)).errs = [] → s.poison = [] →
      let i := s.tgIssued t u
      let sz := if m.w64 then 8 else 4
      lanesOwn i t u .atomic u.ent.mask sz (fun l => laneVa u.g l m.ra 0) ga →
      (∀ l ∈ lanes u.ent.mask, ∀ k ∈ lanes u.ent.mask, k ≠ l → ga k + sz ≤ ga l ∨ ga l + sz ≤ ga k) →
      ∃ x g', exec (.tgAtom t g m) s = .next (x.putGroup t g.val g') ∧ g'.stack = u.advance.stack ∧
        laneStored i x u.ent.mask sz ga (fun l => leBytes sz (atomValue m.op (8 * sz) (leNat (i.bytesAt (ga l) sz))
          ((u.g.operand l m.rb m.w64).toNat % 2 ^ (8 * sz)) ((u.g.operand l m.rc m.w64).toNat % 2 ^ (8 * sz)))) ∧
        (m.ret = true → laneLoaded i u.g g' u.ent.mask m.rd sz false ga) ∧
        (m.ret = false → g'.regs = u.g.regs)) ∧
  (∀ (s : State) (t : TileId) (g : Fin 48) (u : TgIssue) (off : Nat → Nat), tgGoes s t g.val u →
      (s.die (tileDie t)).errs = [] → s.poison = [] →
      let i := s.tgIssued t u
      let ga := fun l => i.sharedGa t u (off l)
      ownMem t (i.sharedGa t u 0) = true → (∀ l ∈ lanes u.ent.mask, ownMem t (ga l) = true) →
      (∀ m : TgMem, u.regOk m.ra.toNat = true → u.valOk m.rd m.size = true →
        let sz := 2 ^ m.size.val
        (∀ l ∈ lanes u.ent.mask, sharedOff u.g l m.ra m.off = (off l : Int) ∧ off l % sz = 0 ∧
          off l + sz ≤ u.desc.shared ∧ off l < 2 ^ 48) →
        (∃ x g', exec (.tgLdb t g m) s = .next (x.putGroup t g.val g') ∧ tileOnly i x t ∧
          g'.stack = u.advance.stack ∧ laneLoaded i u.g g' u.ent.mask m.rd sz m.sx ga) ∧
        (∃ x g', exec (.tgStb t g m) s = .next (x.putGroup t g.val g') ∧ g'.stack = u.advance.stack ∧
          g'.regs = u.g.regs ∧ laneStored i x u.ent.mask sz ga (fun l => u.g.bytes l m.rd sz))) ∧
      (∀ m : TgAtomic, u.atomicOk m false = true → s.tgRefused u m.op = false →
        let sz := if m.w64 then 8 else 4
        (∀ l ∈ lanes u.ent.mask, sharedOff u.g l m.ra 0 = (off l : Int) ∧ off l % sz = 0 ∧
          off l + sz ≤ u.desc.shared ∧ off l < 2 ^ 48) →
        (∀ l ∈ lanes u.ent.mask, ∀ k ∈ lanes u.ent.mask, k ≠ l → ga k + sz ≤ ga l ∨ ga l + sz ≤ ga k) →
        ∃ x g', exec (.tgAtomb t g m) s = .next (x.putGroup t g.val g') ∧ g'.stack = u.advance.stack ∧
          laneStored i x u.ent.mask sz ga (fun l => leBytes sz (atomValue m.op (8 * sz) (leNat (i.bytesAt (ga l) sz))
            ((u.g.operand l m.rb m.w64).toNat % 2 ^ (8 * sz)) ((u.g.operand l m.rc m.w64).toNat % 2 ^ (8 * sz)))) ∧
          (m.ret = true → laneLoaded i u.g g' u.ent.mask m.rd sz false ga)))

/-- R113, R127, R128: TG.SREG puts the parameter address into a register pair of every lane of the mask; TG.BR moves a
path on which all lanes agree, and splits one on which they do not into the taken path, the other and their
reconvergence point; TG.FENCE goes on. R137, R139, R140: TG.BAR makes the path wait at its id and TG.EXIT takes its
lanes away, unless one holds a lock; then the block's barriers are examined. Model's choices in it: log entries 6 and
10. -/
def Obligations.TgPathsAndBarriers : Prop :=
  (∀ (s : State) (t : TileId) (g : Fin 48) (u : TgIssue), tgGoes s t g.val u →
      let i := s.tgIssued t u
      (∀ rd : BitVec 8, u.pairOk rd.toNat = true → ∃ g', exec (.tgSreg t g rd .param) s = .next (i.putGroup t g.val g') ∧
        g'.stack = u.advance.stack ∧ (∀ l ∈ lanes u.ent.mask, g'.pair l rd.toNat = u.desc.param.zeroExtend 64)) ∧
      (∀ (rd : BitVec 8) (k : BitVec 8), u.regOk rd.toNat = true → ∃ x g',
        exec (.tgSreg t g rd (.other k)) s = .next (x.putGroup t g.val g') ∧ g'.stack = u.advance.stack ∧
        x = { i with freeCount := i.freeCount + (lanes u.ent.mask).length }) ∧
      (∀ (taken : BitVec 32) (target rpc : BitVec 48),
        (u.ent.mask &&& taken = 0 → exec (.tgBr t g taken target rpc) s = .next (i.putGroup t g.val u.advance)) ∧
        (u.ent.mask &&& taken ≠ 0 → u.ent.mask &&& taken = u.ent.mask →
          ∃ g', exec (.tgBr t g taken target rpc) s = .next (i.putGroup t g.val g') ∧
            g'.stack = u.g.stack.set u.i { u.ent with pc := target } ∧ g'.regs = u.g.regs) ∧
        (u.ent.mask &&& taken ≠ 0 → u.ent.mask &&& taken ≠ u.ent.mask → u.g.stack.length ≤ 30 →
          ∃ g', exec (.tgBr t g taken target rpc) s = .next ((i.bump (tgeReg t 0x118) 1).putGroup t g.val g') ∧
            g'.regs = u.g.regs ∧ g'.stack = u.g.stack.take u.i ++
              [⟨target, u.ent.mask &&& taken, some rpc, .path⟩,
               ⟨u.ent.pc + 8, u.ent.mask &&& ~~~taken, some rpc, .path⟩,
               ⟨rpc, u.ent.mask, u.ent.rpc, .path⟩] ++ u.g.stack.drop (u.i + 1))) ∧
      (exec (.tgFence t g) s = .next (i.putGroup t g.val { u.advance with win := none }))) ∧
  (∀ (s : State) (t : TileId) (g : Fin 48) (u : TgIssue), tgGoes s t g.val u →
      let i := s.tgIssued t u
      (∀ id : Fin 16, ∃ g', exec (.tgBar t g id) s = .next (i.putBarrier t u g' (some id)) ∧
        g'.stack = u.g.stack.set u.i { u.ent with st := .waiting id u.ent.pc } ∧ g'.regs = u.g.regs) ∧
      ((∀ l ∈ lanes u.ent.mask, mapGet 0 u.g.locks l = 0) →
        ∃ g', exec (.tgExit t g) s = .next (i.putBarrier t u g' none) ∧ g'.gone = u.g.gone ||| u.ent.mask ∧
          ∀ e ∈ g'.stack, e.mask &&& u.ent.mask = 0))

/-- R130 to R136: in the tile's own memory, TG.ACQ of distinct lock words that read 0 writes every lane's holder code
into its word and counts the lock; TG.REL of words that the lanes hold writes 0 and counts it off. R138, R144, R146: a
lane parked past LOCK_LIMIT, and a spin window open past SPIN_LIMIT, stop the launch with fault codes 12 and 14: its
groups are gone and the sequencer sees the fault. Model's choices in it: log entry 10. -/
def Obligations.TgLocksAndTimeouts : Prop :=
  (∀ (s : State) (t : TileId) (g : Fin 48) (u : TgIssue) (ra : BitVec 8) (ga : Nat → Nat), tgGoes s t g.val u →
      u.pairOk ra.toNat = true → (s.die (tileDie t)).errs = [] → s.poison = [] →
      let i := s.tgIssued t u
      (∀ l ∈ lanes u.ent.mask, ∀ k ∈ lanes u.ent.mask, k ≠ l → ga k + 8 ≤ ga l ∨ ga l + 8 ≤ ga k) →
      lanesOwn i t u .atomic u.ent.mask 8 (fun l => laneVa u.g l ra 0) ga →
      ((s.tile t).held.length ≤ 256 → u.g.stack.length ≤ 32 →
        (∀ l ∈ lanes u.ent.mask, i.word64 (ga l) = 0 ∧ mapGet 0 u.g.locks l < 15) →
        ∀ rpc, ∃ x g', exec (.tgAcq t g u.ent.mask ra rpc) s = .next (x.putGroup t g.val g') ∧
          laneStored i x u.ent.mask 8 ga (fun l => leBytes 8 (holderCode u.ctx t g.val l).toNat) ∧
          (∀ l ∈ lanes u.ent.mask, mapGet 0 g'.locks l = mapGet 0 u.g.locks l + 1) ∧ g'.regs = u.g.regs) ∧
      ((∀ l ∈ lanes u.ent.mask, i.word64 (ga l) = holderCode u.ctx t g.val l) →
        ∃ x g', exec (.tgRel t g ra) s = .next (x.putGroup t g.val g') ∧
          laneStored i x u.ent.mask 8 ga (fun _ => leBytes 8 0) ∧
          (∀ l ∈ lanes u.ent.mask, mapGet 0 g'.locks l = mapGet 0 u.g.locks l - 1) ∧ g'.regs = u.g.regs)) ∧
  (∀ (s : State) (t : TileId) (g : Fin 48) (gr : TgGroup), s.tileOn t = true → (s.tile t).tge.group g.val = some gr →
      (s.regField (tgeReg t 0x10) 47 32 ≠ 0 → gr.parkedLane ≠ none → ∃ n, exec (.lockTimeout t g) s = .next n ∧
        (n.tile t).tge.launch = none ∧ (n.tile t).tge.groups = [] ∧ (n.tile t).seq.running = false ∧
        (s.regField (tgeReg t 0x20) 34 34 = 0 → n.regField (tgeReg t 0x20) 63 56 = 12)) ∧
      (s.regField (tgeReg t 0x10) 15 0 ≠ 0 → gr.win ≠ none → ∃ n, exec (.groupLivelock t g) s = .next n ∧
        (n.tile t).tge.launch = none ∧ (n.tile t).tge.groups = [] ∧ (n.tile t).seq.running = false ∧
        (s.regField (tgeReg t 0x20) 34 34 = 0 → n.regField (tgeReg t 0x20) 63 56 = 14)))

/-! ### The vector engine (chapter 5) -/

/-- R156, R162, Table 5.4: VX.ADD, SUB, MUL, MULH and FMA, element by element: integers wrap to the width (MULH: the
high half of the product), floating point rounds once. R156, Table 5.4, Table 2.6: VX.MIN, MAX, ABS, NEG, AND, OR,
XOR, SHL and SHR, element by element; shifts are by vs2 mod the width, arithmetic to the right for signed types.
Model's choices in it: log entry 11. -/
def Obligations.VxArithmeticAndLogic : Prop :=
  (let wide := fun w => vxWidth (vxType w)
    let num := fun (_ : VxEnv) (_ : VxSt) w => !(vxEsf (vxType w))
    let float := fun (w : BitVec 56) (ff : FVal → FVal → FVal) (a b : Nat) => (float2 (vxType w) ff a b).1
    let int := fun (w : BitVec 56) (v : Int) => toTwos (vxWidth (vxType w)) v
    let val := fun (w : BitVec 56) (b : Nat) => vxIntVal (vxType w) b
    vxElemwise .vxAdd wide num (fun _ x w i =>
      if vxInt (vxType w) then int w (val w (vxA x w i) + val w (vxB x w i)) else float w FVal.add (vxA x w i) (vxB x w i)) ∧
    vxElemwise .vxSub wide num (fun _ x w i =>
      if vxInt (vxType w) then int w (val w (vxA x w i) - val w (vxB x w i))
      else float w (fun a b => FVal.add a (FVal.neg b)) (vxA x w i) (vxB x w i)) ∧
    vxElemwise .vxMul wide num (fun _ x w i =>
      if vxInt (vxType w) then int w (val w (vxA x w i) * val w (vxB x w i)) else float w FVal.mul (vxA x w i) (vxB x w i)) ∧
    vxElemwise .vxMulh wide (fun _ _ w => vxInt (vxType w)) (fun _ x w i =>
      int w (Int.fdiv (val w (vxA x w i) * val w (vxB x w i)) (2 ^ vxWidth (vxType w)))) ∧
    vxElemwise .vxFma wide num (fun _ x w i =>
      if vxInt (vxType w) then int w (val w (vxA x w i) * val w (vxB x w i) + val w (vxC x w i))
      else (vxFmt (vxType w)).encode (FVal.add (FVal.mul ((vxFmt (vxType w)).decode (vxA x w i))
        ((vxFmt (vxType w)).decode (vxB x w i))) ((vxFmt (vxType w)).decode (vxC x w i))))) ∧
  (let wide := fun w => vxWidth (vxType w)
    let num := fun (_ : VxEnv) (_ : VxSt) w => !(vxEsf (vxType w))
    let isInt := fun (_ : VxEnv) (_ : VxSt) w => vxInt (vxType w)
    let val := fun (w : BitVec 56) (b : Nat) => vxIntVal (vxType w) b
    let int := fun (w : BitVec 56) (v : Int) => toTwos (vxWidth (vxType w)) v
    vxElemwise .vxMin wide num (fun _ x w i =>
      if vxInt (vxType w) then (if val w (vxB x w i) < val w (vxA x w i) then vxB x w i else vxA x w i)
      else (vxPick false (vxType w) (vxA x w i) (vxB x w i)).1) ∧
    vxElemwise .vxMax wide num (fun _ x w i =>
      if vxInt (vxType w) then (if val w (vxA x w i) < val w (vxB x w i) then vxB x w i else vxA x w i)
      else (vxPick true (vxType w) (vxA x w i) (vxB x w i)).1) ∧
    vxElemwise .vxAbs wide num (fun _ x w i =>
      if vxInt (vxType w) then int w (val w (vxA x w i)).natAbs else (float1 (vxType w) FVal.abs (vxA x w i)).1) ∧
    vxElemwise .vxNeg wide num (fun _ x w i =>
      if vxInt (vxType w) then int w (-(val w (vxA x w i))) else (float1 (vxType w) FVal.neg (vxA x w i)).1) ∧
    vxElemwise .vxAnd wide isInt (fun _ x w i => vxA x w i &&& vxB x w i) ∧
    vxElemwise .vxOr wide isInt (fun _ x w i => vxA x w i ||| vxB x w i) ∧
    vxElemwise .vxXor wide isInt (fun _ x w i => vxA x w i ^^^ vxB x w i) ∧
    vxElemwise .vxShl wide isInt (fun _ x w i => vxA x w i * 2 ^ (vxB x w i % vxWidth (vxType w))) ∧
    vxElemwise .vxShr wide isInt (fun _ x w i =>
      int w (Int.fdiv (val w (vxA x w i)) (2 ^ (vxB x w i % vxWidth (vxType w))))))

/-- R156, R162, R170 to R172, R175: VX.DIV, SQRT, FN, EADD, CVT and CBG, element by element. Model's choices in it:
log entry 11. -/
def Obligations.VxFunctionsAndConversion : Prop :=
  let wide := fun w => vxWidth (vxType w)
  let fl := fun (_ : VxEnv) (_ : VxSt) w => vxFloat (vxType w)
  vxElemwise .vxDiv wide fl (fun _ x w i => (float2 (vxType w) FVal.div (vxA x w i) (vxB x w i)).1) ∧
  vxElemwise .vxSqrt wide fl (fun _ x w i => (float1 (vxType w) FVal.sqrt (vxA x w i)).1) ∧
  vxElemwise .vxFn wide (fun _ _ w => vxFloat (vxType w) && decide (vxImm w ≤ 5))
    (fun _ x w i => (float1 (vxType w) (vxFnOf (vxImm w)) (vxA x w i)).1) ∧
  vxElemwise .vxEadd wide (fun _ _ w => vxEsf (vxType w))
    (fun _ x w i => (esfAddSat (vxWidth (vxType w)) (vxA x w i) (vxB x w i)).1) ∧
  vxElemwise .vxCvt (fun w => max (vxWidth (vxType w)) (vxWidth (vxType2 w))) (fun _ _ w => vxTypeOk (vxType2 w))
    (fun e x w i => (vxConvert (vxType w) (vxAnchor w) (vxHead w)
      (roundingOf (vxSr w) e.key ((x.s (vxVs2 w)).truncate 32) e.step (flatIndex (x.s (vxVs3 w)) i))
      (vxValue (vxType2 w) (ofTwos 8 (vxImm w % 256)) (x.el (vxVs1 w) (vxWidth (vxType2 w)) i))).1) ∧
  (∀ purpose : BitVec 16, purpose = 1 ∨ purpose = 2 →
    vxElemwise .vxCbg wide (fun _ x w => vxInt (vxType w) && decide (vxWidth (vxType w) = 16 ∧
        (x.s (vxVs3 w)).truncate 16 = purpose))
      (fun e x w i => (cbg16 e.key ((x.s (vxVs1 w)).truncate 32) e.step purpose (flatIndex (x.s (vxVs2 w)) i)).toNat)) ∧
  (∀ purpose : BitVec 16, purpose ≠ 1 → purpose ≠ 2 → cbgPurposeReserved purpose = false →
    vxElemwise .vxCbg wide (fun _ x w => vxInt (vxType w) && decide ((vxWidth (vxType w) = 32 ∨ vxWidth (vxType w) = 64) ∧
        vxImm w % 4 < 128 / vxWidth (vxType w) ∧ (x.s (vxVs3 w)).truncate 16 = purpose))
      (fun e x w i => (cbg128 e.key (cbgCounter ((x.s (vxVs1 w)).truncate 32) e.step
        (BitVec.ofNat 48 (flatIndex (x.s (vxVs2 w)) i)) purpose)).toNat >>> (vxWidth (vxType w) * (vxImm w % 4))))

/-- R156, R165, R166, R168, Table 5.4: VX.SEL, BCAST, PERM, PERM2, SHUF and UNPACK, element by element; an index
beyond VL gives 0. R167, R169: VX.PACK narrows the elements of two registers into one; VX.COMPRESS packs the active
elements to the front, zeroes the rest below VL and counts them. Model's choices in it: log entry 11. -/
def Obligations.VxSelectPermutePack : Prop :=
  (let wide := fun w => vxWidth (vxType w)
    let src := fun (x : VxSt) (w : BitVec 56) (n j : Nat) => if j < x.vl then x.el n (vxWidth (vxType w)) j else 0
    vxElemwise .vxSel wide (fun _ _ w => decide (vxVs3 w ≤ 7))
      (fun _ x w i => if (x.pr (vxVs3 w)).getLsbD i then vxA x w i else vxB x w i) ∧
    vxElemwise .vxBcast wide (fun _ _ _ => true) (fun _ x w _ => (x.s (vxVs1 w)).toNat) ∧
    vxElemwise .vxPerm wide (fun e x w => vxIndexOk e x (vxWidth (vxType w)) (vxVs2 w))
      (fun e x w i => src x w (vxVs1 w) (vxIndex e x (vxWidth (vxType w)) (vxVs2 w) i)) ∧
    vxElemwise .vxPerm2 wide (fun e x w => vxIndexOk e x (vxWidth (vxType w)) (vxVs3 w))
      (fun e x w i =>
        let k := vxIndex e x (vxWidth (vxType w)) (vxVs3 w) i
        if k < x.vl then x.el (vxVs1 w) (vxWidth (vxType w)) k
        else if k < 2 * x.vl then x.el (vxVs2 w) (vxWidth (vxType w)) (k - x.vl) else 0) ∧
    vxElemwise .vxShuf wide (fun _ _ w => decide (vxType2 w = 0)) (fun _ x w i => src x w (vxVs1 w) ((i + vxImm w) % x.vl)) ∧
    vxElemwise .vxShuf wide (fun _ _ w => decide (vxType2 w = 1)) (fun _ x w _ => src x w (vxVs1 w) (vxImm w)) ∧
    vxElemwise .vxShuf wide (fun _ _ w => decide (vxType2 w = 2)) (fun _ x w i => src x w (vxVs1 w) (x.vl - 1 - i)) ∧
    vxElemwise .vxShuf wide (fun _ _ w => decide (vxType2 w = 3)) (fun _ x w i => src x w (vxVs1 w) (i ^^^ vxImm w)) ∧
    vxElemwise .vxShuf wide (fun _ _ w => decide (vxType2 w = 4)) (fun _ x w i =>
      if i % 2 = 0 then src x w (vxVs1 w) (vxImm w + i / 2) else src x w (vxVs2 w) (vxImm w + (i - 1) / 2)) ∧
    vxElemwise .vxShuf wide (fun _ _ w => decide (vxType2 w = 5)) (fun _ x w i =>
      if 2 * i + vxImm w < x.vl then src x w (vxVs1 w) (2 * i + vxImm w)
      else src x w (vxVs2 w) (2 * i + vxImm w - x.vl)) ∧
    vxElemwise .vxUnpack wide (fun _ _ w => vxTypeOk (vxType2 w) &&
        ((vxInt (vxType w) && vxInt (vxType2 w) && decide (vxWidth (vxType w) = 2 * vxWidth (vxType2 w))) ||
          decide (vxType w = 9 ∧ vxType2 w = 8) || decide (vxType w = 11 ∧ vxType2 w = 10)))
      (fun e x w i => if i + vxImm w < vlMax e.rbits (vxWidth (vxType2 w)) then
          (if vxInt (vxType w) then
            toTwos (vxWidth (vxType w)) (vxIntVal (vxType2 w) (x.el (vxVs1 w) (vxWidth (vxType2 w)) (i + vxImm w)))
          else if vxType w = 9 then fmt32.encode (fmt16.decode (x.el (vxVs1 w) 16 (i + vxImm w)))
          else if x.el (vxVs1 w) 32 (i + vxImm w) = esfSpecial 32 then esfSpecial 64
          else toTwos 64 (ofTwos 32 (x.el (vxVs1 w) 32 (i + vxImm w))))
        else 0)) ∧
  (∀ (s : State) (u : VUnit) (w : BitVec 56), vuGoes s u → vxWordOk w = true →
      let x := s.vu u
      let wd := vxWidth (vxType w)
      ((vxInt (vxType w) = true ∧ vxInt (vxType2 w) = true ∧ vxTypeOk (vxType2 w) = true ∧ vxWidth (vxType2 w) = 2 * wd) ∨
          (vxType w = 8 ∧ vxType2 w = 9) → x.vl ≤ vlMax (s.vuEnv u).rbits (2 * wd) → ∃ n, exec (.vxPack u w) s = .next n ∧
        (∀ j, j < 2 * x.vl → (n.vu u).el (vxVd w) wd j =
          if x.act w j then (vxNarrow (vxType w) (vxType2 w) (decide (vxImm w % 2 = 1))
            (if j < x.vl then x.el (vxVs1 w) (2 * wd) j else x.el (vxVs2 w) (2 * wd) (j - x.vl))).1 % 2 ^ wd
          else if vxMz w then 0 else x.el (vxVd w) wd j) ∧
        (∀ r, r ≠ vxVd w → (n.vu u).vr r = x.vr r) ∧ (n.vu u).sreg = x.sreg ∧ n.mem = s.mem) ∧
      (x.vl ≤ vlMax (s.vuEnv u).rbits wd → ∃ n, exec (.vxCompress u w) s = .next n ∧
        (∀ j, j < x.vl → (n.vu u).el (vxVd w) wd j =
          ((x.actives w x.vl)[j]?).elim 0 (fun k => x.el (vxVs1 w) wd k)) ∧
        (∀ r, r ≠ vxVd w → (n.vu u).vr r = x.vr r) ∧
        (vxVs3 w ≠ 0 → (n.vu u).s (vxVs3 w) = BitVec.ofNat 64 (x.actives w x.vl).length) ∧
        (∀ k, k ≠ vxVs3 w → (n.vu u).s k = x.s k) ∧ n.mem = s.mem))

/-- R155, R161, Table 5.4: VX.SETVL sets VL, the least of the operand and VLMAX, and VLEW; VX.SADD, SADDI, SMUL, EXT
and PCNT write a scalar register; s0 stays 0. R173, R174, Table 5.7: the reductions take the active elements only:
VX.RADD their exact sum, RADDS the sum saturated to the type, RMIN and RMAX their extreme, RARGMAX the lowest index of
the maximum or all ones where none is active, FSUMX, FSSQX and ESUM the exact sum added to sd and saturated once.
Model's choices in it: log entry 11. -/
def Obligations.VxScalarsAndReductions : Prop :=
  (let any := fun (_ : VxEnv) (_ : VxSt) (_ : BitVec 56) => true
    let byte := fun (_ : BitVec 56) => 8
    (∀ (s : State) (u : VUnit) (w : BitVec 56), vuGoes s u → vxWordOk w = true →
      let m := min (min ((s.vu u).s (vxVs1 w)).toNat ((s.vuEnv u).rbits / 8)) ((s.vuEnv u).rbits / vxWidth (vxType w))
      ∃ n, exec (.vxSetvl u w) s = .next n ∧ (n.vu u).vl = m ∧ (n.vu u).ew = vxWidth (vxType w) ∧
        (vxVd w ≠ 0 → (n.vu u).s (vxVd w) = BitVec.ofNat 64 m) ∧ (n.vu u).s 0 = 0 ∧
        (∀ k, k ≠ vxVd w → (n.vu u).s k = (s.vu u).s k) ∧ (n.vu u).v = (s.vu u).v ∧ n.mem = s.mem) ∧
    vxScalarly .vxSadd byte any (fun _ x w => x.s (vxVs1 w) + x.s (vxVs2 w)) ∧
    vxScalarly .vxSaddi byte any (fun _ x w => x.s (vxVs1 w) + BitVec.ofInt 64 (vxImmS w)) ∧
    vxScalarly .vxSmul byte any (fun _ x w => x.s (vxVs1 w) * x.s (vxVs2 w)) ∧
    vxScalarly .vxExt (fun w => vxWidth (vxType w))
      (fun e x w => decide ((x.s (vxVs2 w)).toNat < vlMax e.rbits (vxWidth (vxType w))))
      (fun _ x w => BitVec.ofNat 64 (vxA x w (x.s (vxVs2 w)).toNat)) ∧
    vxScalarly .vxPcnt byte (fun _ _ w => decide (vxVs1 w ≤ 7))
      (fun _ x w => BitVec.ofNat 64 ((List.range x.vl).filter fun i => (x.pr (vxVs1 w)).getLsbD i).length)) ∧
  (let wide := fun w => vxWidth (vxType w)
    let isInt := fun (_ : VxEnv) (_ : VxSt) w => vxInt (vxType w)
    let num := fun (_ : VxEnv) (_ : VxSt) w => !(vxEsf (vxType w))
    let els := fun (x : VxSt) (w : BitVec 56) => ((List.range x.vl).filter (x.act w)).map (vxA x w)
    let sum := fun (x : VxSt) (w : BitVec 56) => ((els x w).map (vxIntVal (vxType w))).sum
    let notFin := fun (w : BitVec 56) (b : Nat) => !((vxFmt (vxType w)).decode b).isFin
    let total := fun (x : VxSt) (w : BitVec 56) (special : Nat → Bool) (term : Nat → Int) =>
      if (els x w).any special ∨ x.s (vxVd w) = 0x8000000000000000 then (0x8000000000000000 : BitVec 64)
      else BitVec.ofInt 64 (max (-(2 ^ 63 - 1)) (min (2 ^ 63 - 1)
        ((x.s (vxVd w)).toInt + ((els x w).map term).sum)))
    vxScalarly .vxRadd wide isInt (fun _ x w => BitVec.ofInt 64 (sum x w)) ∧
    vxScalarly .vxRadds wide isInt (fun _ x w =>
      BitVec.ofInt 64 (max (vxIntMin (vxType w)) (min (vxIntMax (vxType w)) (sum x w)))) ∧
    vxScalarly .vxRmin wide num (fun _ x w => BitVec.ofNat 64 (vxExtreme false (vxType w) (els x w)).1) ∧
    vxScalarly .vxRmax wide num (fun _ x w => BitVec.ofNat 64 (vxExtreme true (vxType w) (els x w)).1) ∧
    vxScalarly .vxRargmax wide (fun _ x w => vxInt (vxType w) && (els x w).isEmpty) (fun _ _ _ => BitVec.allOnes 64) ∧
    (∀ k, vxScalarly .vxRargmax wide (fun _ x w => vxInt (vxType w) && decide (k < x.vl) && x.act w k &&
        ((List.range x.vl).filter (x.act w)).all (fun i => decide (vxIntVal (vxType w) (vxA x w i) ≤ vxIntVal (vxType w) (vxA x w k)) &&
          (decide (k ≤ i) || decide (vxA x w i ≠ vxA x w k)))) (fun _ _ _ => BitVec.ofNat 64 k)) ∧
    vxScalarly .vxFsumx wide (fun _ _ w => vxFloat (vxType w)) (fun _ x w => total x w (notFin w)
      (fun b => match (vxFmt (vxType w)).decode b with
        | .fin neg m p => (windowProduct (vxAnchor w) (vxHead w) neg m p).1
        | _ => 0)) ∧
    vxScalarly .vxFssqx wide (fun _ _ w => vxFloat (vxType w)) (fun _ x w => total x w (notFin w)
      (fun b => match (vxFmt (vxType w)).decode b with
        | .fin _ m p => (windowProduct (vxAnchor w) (vxHead w) false (m * m) (2 * p)).1
        | _ => 0)) ∧
    vxScalarly .vxEsum wide (fun _ _ w => vxEsf (vxType w)) (fun _ x w =>
      total x w (fun b => decide (b = esfSpecial (vxWidth (vxType w)))) (ofTwos (vxWidth (vxType w)))))

/-- R159, R176, Table 5.4: VX.CMP and CBGM set the mask bits of active elements below VL and clear the others; VX.PLOG
combines masks below VL under R156; writes to p0 are ignored. The registers that VX.PLOG names are the model's reading
(log entry 11). -/
def Obligations.VxMaskResults : Prop :=
  let byte := fun (_ : BitVec 56) => 8
  vxMaskly .vxCmp (fun w => vxWidth (vxType w)) (fun _ _ w => !(vxEsf (vxType w)) && decide (vxImm w ≤ 6 ∧ vxVd w ≤ 7))
    (fun _ x w i => decide (i < x.vl) && x.act w i && vxCompare (vxImm w) (vxType w) (vxA x w i) (vxB x w i)) ∧
  vxMaskly .vxPlog byte (fun _ _ w => decide (vxImm w ≤ 3 ∧ vxVd w ≤ 7 ∧ vxVs1 w ≤ 7 ∧ vxVs2 w ≤ 7))
    (fun _ x w i =>
      let old := (x.pr (vxVd w)).getLsbD i
      if x.vl ≤ i then old
      else if x.act w i then vxMaskOp (vxImm w) ((x.pr (vxVs1 w)).getLsbD i) ((x.pr (vxVs2 w)).getLsbD i)
      else old && !(vxMz w)) ∧
  vxMaskly .vxCbgm byte (fun _ _ w => decide (vxVd w ≤ 7))
    (fun e x w i => decide (i < x.vl) && x.act w i && decide ((x.s (vxVs3 w)).toNat % 2 ^ 16 ≤
      (cbg16 e.key ((x.s (vxVs1 w)).truncate 32) e.step 1 (flatIndex (x.s (vxVs2 w)) i)).toNat))

/-- Table 5.4, R154, R163, R178: VX.LAUNCH starts a program at its address with VL 0, VLEW 16 bits and s1 the
parameter address, or waits while one runs; VX.SBNE and SBLT branch by words; VX.FENCE goes on; VX.END ends the
program. R177 to R179: VX.EPLD loads the 41 words at a 256-byte-aligned address in tile memory that pass the check,
and VX.EPRUN runs the loaded program on the elements; neither touches memory. Model's choices in it: log entries 8 and
11. -/
def Obligations.VxProgramsRun : Prop :=
  ((∀ (s : State) (t : TileId) (w : BitVec 120),
      (s.seqReady t = true → ((s.tile t).seq.vxBusy = true ∨ (s.tile t).vx.running = true) →
        exec (.vxLaunch t w) s = .next (s.wait (.vxLaunch t w))) ∧
      (seqGoes s t → (s.tile t).seq.vxBusy = false → (s.tile t).vx.running = false → wbits w 119 96 = 0 →
        ∃ n, exec (.vxLaunch t w) s = .next n ∧ (n.tile t).vx.running = true ∧ (n.tile t).vx.vl = 0 ∧
          (n.tile t).vx.ew = 16 ∧ (n.tile t).vx.pc = BitVec.ofNat 48 (wbits w 47 0) ∧
          (n.tile t).vx.s 1 = BitVec.ofNat 64 (wbits w 95 48) ∧ (n.tile t).vx.ctx = (s.tile t).seq.ctx ∧
          (n.tile t).seq.vxBusy = true ∧ (n.tile t).vx.v = (s.tile t).vx.v ∧ tileOnly (s.seqIssued t) n t)) ∧
    (∀ (s : State) (u : VUnit) (w : BitVec 56), vuGoes s u → vxWordOk w = true →
      let x := s.vu u
      let dest := BitVec.ofInt 48 ((x.pc.toNat : Int) + 8 * vxImmS w)
      (∃ n, exec (.vxSbne u w) s = .next n ∧
        n.vu u = { x with pc := if x.s (vxVs1 w) ≠ x.s (vxVs2 w) then dest else x.pc + 8 } ∧ n.mem = s.mem) ∧
      (∃ n, exec (.vxSblt u w) s = .next n ∧
        n.vu u = { x with pc := if (x.s (vxVs1 w)).toInt < (x.s (vxVs2 w)).toInt then dest else x.pc + 8 } ∧
        n.mem = s.mem) ∧
      (∃ n, exec (.vxFence u w) s = .next n ∧ n.vu u = { x with pc := x.pc + 8 } ∧ n.mem = s.mem) ∧
      (∃ n, exec (.vxEnd u w) s = .next n ∧ n.vu u = { x with running := false, ep := none, pc := x.pc + 8 } ∧
        n.mem = s.mem ∧ ∀ t, u = .tile t → (n.tile t).seq.vxBusy = false))) ∧
  (∀ (s : State) (t : TileId) (w : BitVec 56), vuGoes s (.tile t) → vxWordOk w = true → s.poison = [] →
      let i := s.vuIssued (.tile t)
      let x := (s.tile t).vx
      let va := (x.s (vxVs1 w)).toNat % 2 ^ 48
      (∀ a, va % 256 = 0 → i.xlAns (tileDie t) x.ctx va .load .plain = .ok a → ownMem t a.ga = true →
        let p := (List.range 41).map fun k => field (s.bytesAt a.ga 164) (4 * k) 4
        epCheck p = true → ∃ m, exec (.vxEpld (.tile t) w) s = .next m ∧
          (m.tile t).vx = { x with ep := some p, epAt := va, pc := x.pc + 8 } ∧ m.mem = s.mem) ∧
      (∀ o, vxEprun (s.vuEnv (.tile t)) x w (if x.ep.isSome then x.epAt else 0) = .ok o →
        ∃ m, exec (.vxEprun (.tile t) w) s = .next m ∧ (m.tile t).vx = { o.st with pc := x.pc + 8 } ∧ m.mem = s.mem))

/-- R163, R164, Table 5.4: in the tile's own memory, VX.LD, LDS and LDX load the active elements from their addresses
(unit stride, stride, index), VX.ST, STS and STX store them, and VX.SLD and SST move one scalar register. Model's
choices in it: log entry 11. -/
def Obligations.VxMemoryOwn : Prop :=
  ∀ (s : State) (t : TileId) (w : BitVec 56), vuGoes s (.tile t) → vxWordOk w = true →
    (s.die (tileDie t)).errs = [] → s.poison = [] →
    let i := s.vuIssued (.tile t)
    let x := (s.tile t).vx
    let n := vxWidth (vxType w) / 8
    (∀ ga, vxImm w ≤ 4 → x.vl ≤ vlMax 4096 (max (vxWidth (vxType w)) (vxIdxWidth w)) →
      (vxOwn i t w false n (vxUnit w (vxVs1 w) x) ga → ∃ m, exec (.vxLd (.tile t) w) s = .next m ∧
        vxElemDone s m (.tile t) w fun k => leNat (s.bytesAt (ga k) n)) ∧
      (vxOwn i t w false n (vxStride (vxVs1 w) (vxVs2 w) x) ga → ∃ m, exec (.vxLds (.tile t) w) s = .next m ∧
        vxElemDone s m (.tile t) w fun k => leNat (s.bytesAt (ga k) n)) ∧
      (vxOwn i t w false n (vxIndexed w (vxVs1 w) x) ga → ∃ m, exec (.vxLdx (.tile t) w) s = .next m ∧
        vxElemDone s m (.tile t) w fun k => leNat (s.bytesAt (ga k) n)) ∧
      (vxOwn i t w true n (vxUnit w (vxVs2 w) x) ga → ∃ m, exec (.vxSt (.tile t) w) s = .next m ∧
        vxStored s m t w n ga (vxA x w)) ∧
      (vxOwn i t w true n (vxStride (vxVs2 w) (vxVs3 w) x) ga → ∃ m, exec (.vxSts (.tile t) w) s = .next m ∧
        vxStored s m t w n ga (vxA x w)) ∧
      (vxOwn i t w true n (vxIndexed w (vxVs2 w) x) ga → ∃ m, exec (.vxStx (.tile t) w) s = .next m ∧
        vxStored s m t w n ga (vxA x w))) ∧
    (∀ a, ownMem t a.x.ga = true →
      (i.vuCheck (.tile t) false 8 (0, vxScalarAddr x w) = .ok a → ∃ m, exec (.vxSld (.tile t) w) s = .next m ∧
        vxScalarDone s m (.tile t) (vxVd w) (BitVec.ofNat 64 (leNat (s.bytesAt a.x.ga 8)))) ∧
      (i.vuCheck (.tile t) true 8 (0, vxScalarAddr x w) = .ok a → ∃ m, exec (.vxSst (.tile t) w) s = .next m ∧
        m.bytesAt a.x.ga 8 = leBytes 8 (x.s (vxVs2 w)).toNat ∧ memoryBut s m a.x.ga 8 ∧
        (m.tile t).vx = { x with pc := x.pc + 8 }))

/-! ### Memory and caches (chapters 6 and 7) -/

/-- R213, R221, R223: the patrol leaves no error in the die's storage, and where all can be corrected it changes no
byte and poisons nothing; a heal's data go over the line; a heal that fails, by its answer or by time, leaves the line
poisoned and its bytes as they were. R232 to R234: a fill that completes is no longer in progress, and is allocated
when its requests call for it and a way is free; entries that no miss matched for 4,096 ft are freed, and no others.
Model's choices in it: log entries 9 and 60. -/
def Obligations.StorageHealsAndFills : Prop :=
  (∀ (s : State) (d : CdId) (a : BitVec 40), s.dieOn d.val = true →
      (∃ n, exec (.patrolScrub d) s = .next n ∧ (n.die d.val).errs = [] ∧
        n.reg (hcReg d.val 0xF28) = s.reg (hcReg d.val 0xF28) + 1 ∧
        ((∀ e ∈ (s.die d.val).errs, e.correct = true) → n.mem = s.mem ∧ n.poison = s.poison)) ∧
      (gaLine a.toNat ∈ (s.die d.val).heals →
        let l := gaLine a.toNat
        (∀ data : BitVec 1024, ∃ n, exec (.healComplete d a data false) s = .next n ∧ l ∉ (n.die d.val).heals ∧
          n.bytesAt (lineGa d.val l) 128 = leBytes 128 data.toNat ∧ memoryBut s n (lineGa d.val l) 128) ∧
        (∀ data : BitVec 1024, ∃ n, exec (.healComplete d a data true) s = .next n ∧ l ∉ (n.die d.val).heals ∧
          setHas n.poison (granule (lineGa d.val l)).1 = true ∧ n.mem = s.mem) ∧
        (∃ n, exec (.healTimeout d a) s = .next n ∧ l ∉ (n.die d.val).heals ∧
          setHas n.poison (granule (lineGa d.val l)).1 = true ∧ n.mem = s.mem))) ∧
  (∀ (s : State) (d : CdId), s.dieOn d.val = true →
      (∀ a : BitVec 40, ∃ n, exec (.hcFillComplete d a) s = .next n ∧
        (∀ f ∈ (n.die d.val).fills, f.line ≠ gaLine a.toNat) ∧
        (∀ f, f.line ≠ gaLine a.toNat → (f ∈ (n.die d.val).fills ↔ f ∈ (s.die d.val).fills)) ∧
        (∀ f, (s.die d.val).fills.find? (·.line = gaLine a.toNat) = some f → f.prio = some .normal →
          (s.die d.val).find (gaLine a.toNat) = none →
          freeWay ((s.die d.val).set (gaLine a.toNat)) (s.pinWays d.val) 16 ≠ none →
          ∃ h, (n.die d.val).find (gaLine a.toNat) = some h ∧ h.st = .clean ∧ n.mem = s.mem)) ∧
      (∃ n, exec (.streamEntryExpire d) s = .next n ∧
        (∀ e, e ∈ (n.die d.val).streams ↔ e ∈ (s.die d.val).streams ∧ s.ftc < e.ftc + 4096) ∧
        n.regs = s.regs ∧ n.mem = s.mem))

/-- R239 to R241: a reduce-write that nothing holds back adds its elements to an unpoisoned present line, element by
element, or to the reduction entry that the home keeps for the line in the same format. R252, R256, R257:
NC_GRANULE_INVALIDATE leaves no near cache with a line of the granule, NC_DISABLE none in the tile's, with EN clear; a
run-ahead fetch moves a stream on by one line and changes no byte. R236, Tables 7.7, 7.8: HC_FLUSH and HC_PIN_LOAD
start, shown by their status bits, and their completions end them; a flush of a cache without dirty lines and
reduction entries changes no byte. Model's choices in it: log entries 57 and 60. -/
def Obligations.CachesReduceFlushForget : Prop :=
  (∀ (s : State) (i : RedIssuer) (c : CtxId) (ga : BitVec 40) (fmt : BitVec 4) (mask : BitVec 64)
      (data : BitVec 1024) (h : HcLine),
      let g := ga.toNat
      let d := gaDie g
      let l := gaLine g
      redFormed g fmt.toNat = true → s.gaCause (redSrc i) g = none → s.dieOn d = true →
      s.readyLine g true = (false, s) → (s.die d).fills = [] → (redRefusedFmt fmt.toNat && s.ctxDet c) = false →
      (s.die d).find l = some h →
      ∃ n, exec (.reduceWrite i c ga fmt mask data) s = .next n ∧
        (h.st = .clean ∨ h.st = .dirty → setHas s.poison (lineGa d l) = false →
          n.lineVal d l = (redLine fmt.toNat (s.lineVal d l) data mask (redCount fmt.toNat)).1 ∧
          memoryBut s n (lineGa d l) 128) ∧
        (∀ c' k sum, h.st = .red fmt.toNat c' k sum →
          n.mem = s.mem ∧ ∃ h', (n.die d).find l = some h' ∧
            h'.st = .red fmt.toNat c' k (redLine fmt.toNat sum data mask (redCount fmt.toNat)).1)) ∧
  ((∀ (s : State) (ga : BitVec 40), s.on = true → homed ga.toNat = true → gaDie ga.toNat < 48 →
      ∃ n, exec (.ncGranuleInvalidate ga) s = .next n ∧
        (∀ (t : TileId) (k : Nat) (l : List NcLine), (k, l) ∈ (n.tile t).nc → ∀ h ∈ l, inGranule (ga.toNat / 4096) h.key = false) ∧
        n.mem = s.mem ∧ n.sync = s.sync) ∧
    (∀ (s : State) (t : TileId), s.tileOn t = true →
      (∃ n, exec (.ncDisable t) s = .next n ∧ (n.tile t).nc = [] ∧ n.regField (ncReg t 0) 0 0 = 0 ∧ tileOnly s n t) ∧
      (∀ e x k, s.regField (tileReg t 0x400) 5 5 = 1 →
        (s.tile t).ra.find? (fun e => (e.next (s.regField (tileReg t 0x400) 4 0)).isSome) = some e →
        e.next (s.regField (tileReg t 0x400) 4 0) = some k → (s.tile t).held.length < 256 →
        (s.mappingOf e.ctx (k * 128)).map (·.va) = (s.mappingOf e.ctx (e.last * 128)).map (·.va) →
        s.xlAns (tileDie t) e.ctx (k * 128) .load .plain = .ok x → homed x.ga = false →
        ∃ n, exec (.runAheadFetch t) s = .next n ∧ { e with fetched := k } ∈ (n.tile t).ra ∧ tileOnly s n t))) ∧
  (∀ (s : State) (d : CdId), s.dieOn d.val = true →
      (s.pwr.ps < 4 → (∃ n, exec (.hcFlush d) s = .next n ∧ (n.die d.val).flushing = true ∧
        n.regField (hcReg d.val 0) 3 3 = 1 ∧ n.mem = s.mem) ∧
        (∃ n, exec (.hcPinLoad d) s = .next n ∧ (n.die d.val).pinLoad = true ∧ n.regField (hcReg d.val 8) 5 5 = 1 ∧
          n.mem = s.mem)) ∧
      ((s.die d.val).flushing = true → ∃ n, exec (.hcFlushComplete d) s = .next n ∧ (n.die d.val).flushing = false ∧
        n.regField (hcReg d.val 0) 3 3 = 0 ∧
        ((∀ h ∈ (s.die d.val).lines, h.st = .clean) → n.mem = s.mem ∧ (n.die d.val).sets = (s.die d.val).sets)) ∧
      ((s.die d.val).pinLoad = true → ∃ n, exec (.hcPinLoadComplete d) s = .next n ∧ (n.die d.val).pinLoad = false ∧
        n.regField (hcReg d.val 8) 5 5 = 0 ∧
        ((∀ k, k < 8 → s.regField (hcReg d.val (0x40 + 8 * k)) 63 63 = 0) → n.mem = s.mem)))

/-- R262 to R265: TMV.XFER whose descriptor, in the tile's own memory, is in order puts the transfer in progress and
drives it, or waits for its tag or for one of the 8 places; TMV_XFER_COMPLETE of a transfer with nothing left signals
its sync word, ends it and counts it, and a completion of none is stale. Model's choices in it: log entries 5, 8 and
71. -/
def Obligations.TileMoverTransfers : Prop :=
  ∀ (s : State) (t : TileId) (w : BitVec 120),
    let tag := BitVec.ofNat 8 (wbits w 55 48)
    (s.seqReady t = true → (8 ≤ (s.tile t).tmv.xfers.length ∨ (s.xfer t tag).isSome = true) →
      exec (.tmvXfer t w) s = .next (s.wait (.tmvXfer t w))) ∧
    (seqGoes s t → (s.tile t).tmv.xfers.length < 8 → s.xfer t tag = none → wbits w 119 56 = 0 →
      wbits w 47 0 % 64 = 0 → s.poison = [] → (s.die (tileDie t)).errs = [] →
      let i := s.seqIssued t
      ∀ a d, i.xlAns (tileDie t) (i.tile t).seq.ctx (wbits w 47 0) .load .plain = .ok a → ownMem t a.ga = true →
        xferDesc (i.bytesAt a.ga 64) = some d → d.op ≠ 2 → d.op ≠ 3 →
        (d.op = 4 → (redRefusedFmt d.fmt && i.ctxDet (i.tile t).seq.ctx) = false ∧ d.l0 % redSize d.fmt = 0) →
        ∃ z, tileOnly i z t ∧ (z.tile t).tmv = (i.tile t).tmv ∧
          exec (.tmvXfer t w) s = .next ((z.setXfers t ((z.tile t).tmv.xfers ++
            [⟨tag, BitVec.ofNat 8 d.tagGen, (i.tile t).seq.ctx, BitVec.ofNat 48 (wbits w 47 0), d, d.parts [], [], 0⟩])).tmvDrive
            t tag)) ∧
    (∀ (tag gen : BitVec 8), s.tileOn t = true →
      (s.xfer t tag = none → exec (.tmvXferComplete t tag gen) s = .next (s.bump (tmvReg t 0x110) 1)) ∧
      (∀ x, s.xfer t tag = some x → x.gen = gen → x.left = [] → x.out = [] → x.desc.sig = false →
        ∃ n, exec (.tmvXferComplete t tag gen) s = .next n ∧ (∀ y ∈ (n.tile t).tmv.xfers, y.tag ≠ tag) ∧
          (∀ y, y.tag ≠ tag → (y ∈ (n.tile t).tmv.xfers ↔ y ∈ (s.tile t).tmv.xfers)) ∧
          n.reg (tmvReg t 0x100) = s.reg (tmvReg t 0x100) + 1 ∧ tileOnly s n t) ∧
      (∀ x a, s.xfer t tag = some x → x.gen = gen → x.left = [] → x.out = [] → x.desc.sig = true →
        x.desc.sigVa % 8 = 0 → (s.tmvDrive t tag).xlAns (tileDie t) x.ctx x.desc.sigVa .store .syncInitOrSig = .ok a →
        gaRegion a.ga = 3 → ∃ z, tileOnly s z t ∧
          let y := (z.syncEach a.ga fun s g => s.syncSig g x.desc.sigGen 1).2
          exec (.tmvXferComplete t tag gen) s = .next
            ((y.setXfers t ((y.tile t).tmv.xfers.filter (·.tag ≠ tag))).bump (tmvReg t 0x100) 1)))

/-! ### Synchronisation (chapter 8) -/

/-- R268 to R271, R277: from a sequencer, SY.INIT writes an image that is not refused, SY.SIG adds N to a counter up
to its greatest value, SY.WAIT takes what it waits for or is queued, and an operation on a word of another generation
is stale. Where nothing is queued at the word, every other word is as before. R268, R269, R276: in a group, where the
lanes name distinct configured words of region 3, SY.TRY takes what is there or finds it unsatisfied, and SY.POLL
gives each lane its word's image; every lane gets its result. Model's choices in it: log entry 10. -/
def Obligations.SyncWordOperations : Prop :=
  (∀ (s : State) (t : TileId) (w : BitVec 120) (x : XlOk), seqGoes s t → s.tileQuiet t = true →
      wbits w 47 0 % 8 = 0 → gaRegion x.ga = 3 → gaDie x.ga ≠ 63 → (s.home (gaDie x.ga)).queue = [] →
      let i := s.seqIssued t
      let q := (i.tile t).seq
      let v := i.syncWord x.ga
      let others := fun (n : State) => (∀ g, g ≠ x.ga → n.syncWord g = i.syncWord g) ∧ n.mem = i.mem
      (i.xlAns (tileDie t) q.ctx (wbits w 47 0) .store .syncInitOrSig = .ok x →
        (wbits w 119 112 = 0 → syImageBad (BitVec.ofNat 64 (wbits w 111 48)) = false →
          ∃ n, exec (.syInit (.seq t w)) s = .next n ∧ n.syncWord x.ga = BitVec.ofNat 64 (wbits w 111 48) ∧
            (n.tile t).seq = q ∧ others n) ∧
        (wbits w 119 72 = 0 → syMode v ≠ 0 → syMode v ≠ 2 → syGen v = wbits w 55 48 → wbits w 71 56 ≠ 0 →
          syCount v + wbits w 71 56 ≤ 0xFFFFFFFF →
          ∃ n, exec (.sySig (.seq t w)) s = .next n ∧ n.syncWord x.ga = putBits v 31 0 (syCount v + wbits w 71 56) ∧
            (n.tile t).seq = q ∧ others n) ∧
        (wbits w 119 72 = 0 → syMode v ≠ 0 → syGen v ≠ wbits w 55 48 →
          ∃ n, exec (.sySig (.seq t w)) s = .next n ∧ n.sync = i.sync ∧ (n.tile t).seq.running = false ∧
            n.mem = i.mem)) ∧
      (i.xlAns (tileDie t) q.ctx (wbits w 47 0) (waitKind (wbits w 71 56)) .syncOther = .ok x → wbits w 119 112 = 0 →
        syMode v ≠ 0 → syGen v = wbits w 55 48 →
        (waitOk v (wbits w 71 56) = true → ∃ n, exec (.syWait (.seq t w)) s = .next n ∧
          n.syncWord x.ga = waitTake v (wbits w 71 56) ∧ (n.tile t).seq = q ∧ others n) ∧
        (waitOk v (wbits w 71 56) = false → wbits w 111 72 = 0 → ∃ n, exec (.syWait (.seq t w)) s = .next n ∧
          (n.home (gaDie x.ga)).queue = [⟨x.ga, wbits w 55 48, wbits w 71 56, none, .seq t⟩] ∧
          (n.tile t).seq = { q with wait := .sync x.ga } ∧ n.sync = i.sync ∧ n.mem = i.mem))) ∧
  (∀ (s : State) (t : TileId) (g : Fin 48) (u : TgIssue) (td ta tb tc : BitVec 8) (ga : Nat → Nat),
      tgGoes s t g.val u → u.pairOk td.toNat = true → u.pairOk ta.toNat = true → u.pairOk tb.toNat = true →
      let i := s.tgIssued t u
      let ls := lanes u.ent.mask
      let op := fun l => u.g.pair l tb.toNat
      (∀ l ∈ ls, (u.g.pair l ta.toNat).toNat % 8 = 0 ∧ gaRegion (ga l) = 3 ∧ syMode (i.syncWord (ga l)) ≠ 0 ∧
        (s.home (gaDie (ga l))).queue = []) →
      (∀ l ∈ ls, ∀ k ∈ ls, k ≠ l → ga k ≠ ga l) →
      ((∀ l ∈ ls, syGen (i.syncWord (ga l)) = tbGen (op l) ∧
          ∃ x, i.xlAns (tileDie t) u.ctx ((u.g.pair l ta.toNat).toNat % 2 ^ 48) (waitKind (tbN (op l))) .syncOther = .ok x ∧
            x.ga = ga l) →
        ∃ (x : State) (g' : TgGroup), exec (.syTry (.group t g td ta tb tc)) s = .next (x.putGroup t g.val g') ∧
          (∀ l ∈ ls, g'.pair l td.toNat =
            if waitOk (i.syncWord (ga l)) (tbN (op l)) then syResult 0 (syCount (waitTake (i.syncWord (ga l)) (tbN (op l))))
            else syResult 1 (syCount (i.syncWord (ga l)))) ∧
          (∀ l ∈ ls, x.syncWord (ga l) = if waitOk (i.syncWord (ga l)) (tbN (op l)) then
            waitTake (i.syncWord (ga l)) (tbN (op l)) else i.syncWord (ga l)) ∧ x.mem = i.mem) ∧
      (u.pairOk (td + 2).toNat = true → td.toNat + 2 < 256 →
        (∀ l ∈ ls, ∃ x, i.xlAns (tileDie t) u.ctx ((u.g.pair l ta.toNat).toNat % 2 ^ 48) .load .syncOther = .ok x ∧
          x.ga = ga l) →
        ∃ (x : State) (g' : TgGroup), exec (.syPoll (.group t g td ta tb tc)) s = .next (x.putGroup t g.val g') ∧
          (∀ l ∈ ls, g'.pair l td.toNat = syResult 0 (syCount (i.syncWord (ga l))) ∧
            g'.pair l (td + 2).toNat = i.syncWord (ga l)) ∧ tileOnly i x t))

/-- R279: SY.CSIG to an enabled target of its context and generation adds N at the target's companion address when it
has an atomic, and interrupts when it has a vector; another generation is stale. R272, R274: SYNC_WAIT_TIMEOUT leaves
no queued wait of the die whose deadline has passed, and SYNC_WAIT_RETRY tries again a wait that found no queue entry:
one that can be satisfied now leaves. Model's choices in it: log entries 5 and 19. -/
def Obligations.SyncSignalsAndWaits : Prop :=
  (∀ (s : State) (t : TileId) (w : BitVec 120), seqGoes s t → s.tileQuiet t = true → wbits w 47 4 = 0 →
      wbits w 119 72 = 0 →
      let i := s.seqIssued t
      let q := (i.tile t).seq
      let k := q.ctx.val * 16 + wbits w 3 0
      let a := i.reg (syncReg 48 (0x4000 + 0x10 * k))
      let b := i.reg (syncReg 48 (0x4008 + 0x10 * k))
      let p := i.mbxPort (i.mbxOf q.ctx)
      (bits b 63 56 = wbits w 55 48 → wbits w 71 56 ≠ 0 → bits a 63 63 = 1 →
        ∃ n, exec (.syCsig (.seq t w)) s = .next n ∧ (n.tile t).seq = q ∧ n.mem = i.mem ∧ n.sync = i.sync ∧
          n.out = i.out ++
            (if bits a 62 62 = 1 then
              [.cclAtomic p (BitVec.ofNat 52 (bits a 51 3 * 8)) (BitVec.ofNat 64 (wbits w 71 56))] else []) ++
            (if bits a 61 61 = 1 then
              [.cclInterrupt p 2 (BitVec.ofNat 10 q.ctx.val) (BitVec.ofNat 11 (bits b 10 0))] else [])) ∧
      (bits b 63 56 ≠ wbits w 55 48 → ∃ n, exec (.syCsig (.seq t w)) s = .next n ∧ (n.tile t).seq.running = false ∧
        n.sync = i.sync)) ∧
  (∀ (s : State) (d : DieId), s.on = true →
      (∀ e, (s.home d.val).queue = [e] → gaDie e.ga = d.val → (∃ t, e.deadline = some t ∧ t ≤ s.ftc) →
        ∃ n, exec (.syncWaitTimeout d) s = .next n ∧ (n.home d.val).queue = [] ∧
          n.syncWord e.ga = s.syncWord e.ga ∧ n.mem = s.mem ∧
          n.reg (syncReg d.val 0x128) = s.reg (syncReg d.val 0x128) + 1) ∧
      (∀ e, (s.home d.val).retry = [e] → gaDie e.ga = d.val → syMode (s.syncWord e.ga) ≠ 0 →
        syGen (s.syncWord e.ga) = e.gen → waitOk (s.syncWord e.ga) e.n = true → (s.home d.val).queue = [] →
        ∃ n, exec (.syncWaitRetry d) s = .next n ∧ (n.home d.val).retry = [] ∧
          n.syncWord e.ga = waitTake (s.syncWord e.ga) e.n ∧ n.mem = s.mem))

/-- R281 to R283: an untimed arrival at a local or up counter whose mask it does not complete is recorded and its
sequencer waits for the release. R280, R288, R290: the check of a timed phase at its deadline records the tiles that
are late and moves the counter on by one; firmware's write of a counter's or a module context's configuration clears
its state. Model's choices in it: log entry 58. -/
def Obligations.DieBarriers : Prop :=
  (∀ (s : State) (t : TileId) (w : BitVec 120), seqGoes s t → s.tileQuiet t = true → wbits w 47 5 = 0 →
      wbits w 71 56 = 0 → wbits w 119 112 = 0 →
      let i := s.seqIssued t
      let d := tileDie t
      let k := wbits w 4 0
      i.regField (barReg d k 0) 63 63 = 1 → i.regField (barReg d k 0) 60 53 = wbits w 55 48 →
      (i.barMask d k).testBit (tileIdx t) = true → i.barCtx d k = (i.tile t).seq.ctx.val → i.barMode d k < 2 →
      (i.arrived d k).testBit (tileIdx t) = false →
      i.barMask d k &&& (i.arrived d k ||| 2 ^ tileIdx t) ≠ i.barMask d k →
      ∃ n, exec (.syBar (.seq t w)) s = .next n ∧ n.arrived d k = (i.arrived d k ||| 2 ^ tileIdx t) ∧
        (n.tile t).seq = { (i.tile t).seq with wait := .barrier } ∧ (n.bar d k).isOpen = true ∧
        (Waiter.seq t, 0) ∈ (n.bar d k).waiting ∧ n.mem = i.mem ∧ n.sync = i.sync) ∧
  ((∀ (s : State) (d : CdId) (k : Fin 32), s.on = true → (s.bar d.val k.val).isOpen = true →
      (s.bar d.val k.val).untimed = false → (s.bar d.val k.val).deadline ≤ s.ftc → (s.bar d.val k.val).held = [] →
      s.barMode d.val k.val = 2 →
      ∃ n, exec (.barrierPhaseCheck d k) s = .next n ∧
        (∀ j, j < 12 → (n.regField (barReg d.val k.val 8) 23 12).testBit j =
          ((s.barMask d.val k.val).testBit j && !((s.arrived d.val k.val).testBit j))) ∧
        n.regField (barReg d.val k.val 8) 63 48 = (s.regField (barReg d.val k.val 8) 63 48 + 1) % 65536 ∧
        n.arrived d.val k.val = s.regField (barReg d.val k.val 8) 35 24 % 4096 ∧
        n.mem = s.mem ∧ n.sync = s.sync) ∧
    (∀ (s : State) (d : CdId) (k : Fin 32) (v : Word), s.on = true → (s.die d.val).tripped = false → s.pwr.ps < 4 →
      (s.bar d.val k.val).waiting = [] → (s.bar d.val k.val).held = [] →
      ∃ n, exec (.barCfgWrite d k v) s = .next n ∧ n.reg (barReg d.val k.val 8) = 0 ∧
        n.bar d.val k.val = BarSt.reset ∧ n.regField (barReg d.val k.val 0) 11 0 = bits v 11 0 ∧
        n.regField (barReg d.val k.val 0) 63 63 = bits v 63 63 ∧ n.mem = s.mem) ∧
    (∀ (s : State) (c : Fin 64) (v : Word), s.on = true →
      ∃ n, exec (.syncMbcCfgWrite c v) s = .next n ∧ n.reg (mbcReg c.val 0x10) = 0 ∧ n.mbc c.val = MbcSt.reset ∧
        n.regField (mbcReg c.val 0) 47 0 = bits v 47 0 ∧ n.regField (mbcReg c.val 0) 63 63 = bits v 63 63 ∧
        n.mem = s.mem))

/-- R291, R293: a die's or a child module's report that does not complete its context is recorded in the context's
state; a release goes to the children and dies of a context that has reported, and moves it on; a die's release that
names none of its counters is dropped and counted. R292: at its deadline plus MARGIN, a timed module context that is
not the root records the dies and ports that have not reported and reports upward what it has; its phase ends. Model's
choices in it: log entries 5, 58 and 68. -/
def Obligations.ModuleBarriers : Prop :=
  (∀ (s : State) (c : Fin 64), s.on = true → s.regField (mbcReg c.val 0) 63 63 = 1 →
      (∀ (d : CdId) f rest, s.sy.msgs = .report d c none f :: rest → d.val ∈ s.mbcDies c.val →
        (∃ e ∈ s.mbcDies c.val, e ≠ d.val ∧ (s.reg (mbcReg c.val 0x10)).getLsbD e = false) →
        ∃ n, exec (.dieBarrierReport d c) s = .next n ∧ n.sy.msgs = rest ∧
          n.reg (mbcReg c.val 0x10) = (s.reg (mbcReg c.val 0x10) ||| BitVec.ofNat 64 (2 ^ d.val)) ∧
          (n.mbc c.val).isOpen = true ∧ n.out = s.out) ∧
      (∀ (p : PortId) (gen : BitVec 8) f, s.regField (mbcReg c.val 0) 61 54 = gen.toNat → p.val ∈ s.mbcKids c.val →
        (∃ e ∈ s.mbcDies c.val, (s.reg (mbcReg c.val 0x10)).getLsbD e = false) →
        ∃ n, exec (.moduleBarrierReport p c gen none f) s = .next n ∧
          n.reg (mbcReg c.val 0x10) = (s.reg (mbcReg c.val 0x10) ||| BitVec.ofNat 64 (2 ^ (56 + p.val))) ∧
          (n.mbc c.val).isOpen = true ∧ n.out = s.out) ∧
      (∀ (p : PortId) (gen : BitVec 8), s.regField (mbcReg c.val 0) 61 54 = gen.toNat → s.mbcRoot c.val = false →
        s.regField (mbcReg c.val 8) 19 16 = p.val → (s.mbc c.val).reported = true →
        ∃ n, exec (.moduleBarrierRelease p c gen) s = .next n ∧
          n.sy.msgs = s.sy.msgs ++ (s.mbcDies c.val).map (fun d => BarMsg.release (Fin.ofNat 48 d) c) ∧
          n.out = s.out ++ (s.mbcKids c.val).map (fun k => OutMsg.barRelease (Fin.ofNat 8 k) c gen) ∧
          n.reg (mbcReg c.val 0x10) = 0 ∧ (n.mbc c.val).reported = false) ∧
      (∀ (d : CdId), s.sy.msgs.contains (.release d c) = true →
        (∀ k, k < 32 → (s.bar d.val k).reported = false) →
        exec (.dieBarrierRelease d c) s = .next
          (({ s with sy := { s.sy with msgs := s.sy.msgs.erase (.release d c) } } : State).bump (barCnt d.val 0x808) 1))) ∧
  (∀ (s : State) (c : Fin 64), s.on = true → (s.mbc c.val).isOpen = true → (s.mbc c.val).untimed = false →
      (s.mbc c.val).deadline + s.regField (mbcReg c.val 8) 63 48 ≤ s.ftc → s.mbcRoot c.val = false →
      ∃ n, exec (.mbcTimedCheck c) s = .next n ∧
        (∀ d, d < 48 → (n.regField (mbcReg c.val 0x18) 47 0).testBit d = decide (d ∈ (s.mbcMissing c.val).1)) ∧
        (∀ p, p < 8 → (n.regField (mbcReg c.val 0x18) 63 56).testBit p = decide (p ∈ (s.mbcMissing c.val).2)) ∧
        (n.mbc c.val).isOpen = false ∧ n.reg (mbcReg c.val 0x10) = 0 ∧
        (∃ f, OutMsg.barReport (Fin.ofNat 8 (s.regField (mbcReg c.val 8) 19 16)) c
          (BitVec.ofNat 8 (s.regField (mbcReg c.val 0) 61 54)) (some (BitVec.ofNat 64 (s.mbc c.val).deadline)) f ∈ n.out))

/-! ### Fabric time (chapters 9 and 17) -/

/-- R303, R616: the master takes its reference value, forward only and before its first lock, at the edge after
MASTER_SET, and one that relocks is LOCKED at an edge within 9 ft of the tick it steers to; 3 s without an edge clear
PPS; the loss of REFCLK is noted while LOCKED, costs the lock after 100 ms, and its return lets a clock that had
locked acquire again without a step of the FTC. Model's choices in it: log entries 9 and 59. -/
def Obligations.PulseAndReferenceClock : Prop :=
  ∀ (s : State), s.on = true →
    (∀ v, s.timeField 63 62 = 1 → s.timeField 50 50 = 1 → s.time.ppsNext = some v →
      ∃ n, exec .ppsEdge s = .next n ∧ timeOnly s n ∧ n.timeField 53 52 = 2 ∧ n.timeField 51 51 = 1 ∧
        n.ftc = (if !s.time.locked ∧ s.ftc < v then v else s.ftc) ∧ n.time.reference = n.ftc ∧
        n.time.locked = true ∧ n.time.ppsNext = none) ∧
    (s.timeField 63 62 = 1 → s.timeField 50 50 = 1 → s.time.ppsNext = none → s.timeField 53 52 = 1 →
      s.time.locked = true → ∃ n, exec .ppsEdge s = .next n ∧ timeOnly s n ∧ n.ftc = s.ftc ∧ n.timeField 51 51 = 1 ∧
        (n.timeField 53 52 = 2 ↔ ∃ k, k ≤ 9 ∧ ((s.ftc + k) % 450000000 = s.time.reference % 450000000 ∨
          (s.time.reference + k) % 450000000 = s.ftc % 450000000))) ∧
    (s.timeField 51 51 = 1 → s.time.ppsAt + 1350000000 ≤ s.ftc →
      ∃ n, exec .ppsLoss s = .next n ∧ timeOnly s n ∧ n.timeField 51 51 = 0 ∧ n.ftc = s.ftc ∧ n.time = s.time) ∧
    (s.timeField 50 50 = 1 → ∃ n, exec .refclkLoss s = .next n ∧ n.timeField 50 50 = 0 ∧ n.ftc = s.ftc ∧
      memorySame s n ∧ n.time.refLost = (if s.timeField 53 52 = 2 then some s.ftc else s.time.refLost)) ∧
    (∀ t, s.timeField 50 50 = 0 → s.time.refLost = some t → t + 45000000 ≤ s.ftc →
      ∃ n, exec .refclkHoldTimeout s = .next n ∧ n.timeField 53 52 = 0 ∧ n.time.refLost = none ∧ n.ftc = s.ftc ∧
        memorySame s n) ∧
    (s.timeField 50 50 = 0 → ∃ n, exec .refclkReturn s = .next n ∧ timeOnly s n ∧ n.timeField 50 50 = 1 ∧
      n.ftc = s.ftc ∧ n.time.refLost = none ∧ n.time.refBoot = true ∧
      n.timeField 53 52 = (if s.timeField 53 52 ≠ 2 ∧ s.time.locked then 1 else s.timeField 53 52))

/-- R304, R307, R308, R353: a TIME message carries the sender's stamp and the echo of its partner's; an exchange under
the link's generation is measured, and a master keeps its own time; a follower with a LOCKED parent takes it and
locks; without a parent for 2 frames it has none, for 16 it is in HOLDOVER; the deputy takes over after 4 frames of
silence with the FTC it has. Model's choices in it: log entry 9. -/
def Obligations.TimeTreeExchanges : Prop :=
  ∀ (s : State), s.on = true →
    (∀ p : PortId, s.linkState p.val = 4 →
      ∃ m : BitVec 112, exec (.timeSend p) s = .next ((s.setPortTime p.val
          { s.portTime p.val with sent := s.stamp }).send
            (.control (Fin.ofNat 10 p.val) 3 (BitVec.ofNat 8 (s.linkGen p.val)) m)) ∧
        ((s.portTime p.val).echo < 2 ^ 40 → wbits m 111 72 = s.stamp) ∧
        wbits m 71 32 = (s.portTime p.val).echo % 2 ^ 40 ∧ wbits m 31 26 = s.timeField 45 40 ∧
        wbits m 25 24 = s.timeField 53 52 ∧ wbits m 23 12 = s.timeField 39 28 ∧ wbits m 11 4 = s.timeField 61 54 ∧
        wbits m 3 2 = s.timeField 63 62) ∧
    (∀ (p : PortId) (lgen : BitVec 8) (m : BitVec 112), s.linkState p.val = 4 → lgen.toNat = s.linkGen p.val →
      s.timeField 63 62 = 1 → ∃ n, exec (.time p lgen m) s = .next n ∧ timeOnly s n ∧ n.regs = s.regs ∧
        n.ftc = s.ftc ∧ (n.portTime p.val).sent = (s.portTime p.val).sent ∧ (n.portTime p.val).echo = s.stamp ∧
        (n.portTime p.val).heard = s.ftc ∧
        (n.portTime p.val).delay = (d40 s.stamp (s.portTime p.val).sent - d40 (wbits m 111 72) (wbits m 71 32)) / 2 ∧
        (n.portTime p.val).offset = (d40 (wbits m 71 32) (s.portTime p.val).sent + d40 (wbits m 111 72) s.stamp) / 2 ∧
        (∀ q, q ≠ p.val → n.portTime q = s.portTime q)) ∧
    (∀ (p : PortId) (lgen : BitVec 8) (m : BitVec 112), s.linkState p.val = 4 → lgen.toNat ≠ s.linkGen p.val →
      exec (.time p lgen m) s = .next (s.bump (linkReg p.val 0x150) 1)) ∧
    (∀ q, q < 8 → s.timeField 63 62 ≠ 1 → s.timeField 49 46 ≠ 15 → s.time.parentAt + 131072 ≤ s.ftc →
      s.twoRoots = false → s.bestParent = some q → s.timeField 50 50 = 1 → (s.portTime q).echo ≠ 0 →
      ∃ n, exec .parentTimeout s = .next n ∧ n = { s with regs := n.regs, ftc := n.ftc, time := n.time } ∧
        n.timeField 53 52 = 2 ∧ n.timeField 49 46 = q ∧ n.timeField 45 40 = ((s.portTime q).hops + 1) % 64 ∧
        n.timeField 39 28 = (s.portTime q).root % 4096 ∧ n.time.locked = true ∧ n.time.orphan = none ∧
        n.ftc = (if !s.time.locked ∧ 0 < (s.portTime q).offset then s.ftc + ((s.portTime q).offset / 256).toNat
          else s.ftc)) ∧
    (s.timeField 63 62 ≠ 1 → s.timeField 49 46 ≠ 15 → s.time.parentAt + 131072 ≤ s.ftc → s.twoRoots = false →
      s.bestParent = none → ∃ n, exec .parentTimeout s = .next n ∧ timeOnly s n ∧ n.timeField 49 46 = 15 ∧
        n.timeField 53 52 = s.timeField 53 52 ∧ n.ftc = s.ftc ∧
        n.time.orphan = some (s.time.orphan.getD s.ftc)) ∧
    (∀ t, s.timeField 63 62 ≠ 1 → s.time.locked = true → s.timeField 53 52 ≠ 3 → s.time.orphan = some t →
      t + 1048576 ≤ s.ftc → ∃ n, exec .holdoverTimeout s = .next n ∧ n.timeField 53 52 = 3 ∧ n.ftc = s.ftc ∧
        n.time = s.time ∧ memorySame s n) ∧
    (s.timeField 63 62 = 2 → s.time.masterAt + 262144 ≤ s.ftc →
      ∃ n, exec .deputyMasterTakeover s = .next n ∧ n.timeField 63 62 = 1 ∧
        n.timeField 61 54 = nextGen (s.timeField 61 54) ∧ n.timeField 39 28 = s.selfIndex.toNat ∧
        n.timeField 45 40 = 0 ∧ n.ftc = s.ftc ∧ n.time.reference = s.ftc ∧ memorySame s n)

/-! ### Holds, commits and repeats (chapter 9) -/

/-- R334 to R336, R339: a request at the master makes a pending hold with a new generation and a notice; elsewhere it
goes to the master. A new notice makes the hold pending, a late one at the next frame boundary, a stale one is
counted. A hold begins at its B, from which schedule time stands still, a fallback with no hold; it ends at a frame
boundary, and schedule time goes on from where it stood. Model's choices in it: log entries 5, 46 and 63. -/
def Obligations.HoldsPendBeginAndEnd : Prop :=
  ∀ (s : State) (d : Fin 2), s.on = true → (s.dom d).started = true →
    (∀ cause (frames : BitVec 32) (atStep : Bool), cause ≠ .slice → s.isMaster = true → (s.dom d).hold.active = false →
      (s.dom d).hold.reqs = [] →
      let f := frameUp (s.ftc + s.holdLead d.val)
      let st := startsAtStep cause atStep
      let b := if st then s.stepBoundary d f - s.shift d.val else f
      ∃ n, exec (.holdRequest d cause frames atStep) s = .next n ∧
        (n.dom d).hold.reqs = [⟨causeBit cause, st, b, frames.toNat,
          if frames ≠ 0 ∧ st = false then some (b + frames.toNat * 65536) else none⟩] ∧
        (n.dom d).hold.active = false ∧ n.regField (domReg d.val 16) 63 62 = 2 ∧
        n.regField (domReg d.val 16) 61 54 = nextGen (s.regField (domReg d.val 16) 61 54) ∧
        (∃ m, n.out = s.out ++ [m]) ∧ memorySame s n ∧ n.ftc = s.ftc) ∧
    (∀ cause (frames : BitVec 32) (atStep : Bool), cause ≠ .slice → s.isMaster = false →
      exec (.holdRequest d cause frames atStep) s = .next (s.send (.holdRequest
        (BitVec.ofNat 8 (s.regField (domReg d.val 0) 63 56)) cause (BitVec.ofNat 32 frames.toNat) atStep))) ∧
    (∀ dom gen b frames cause, s.slotById (BitVec.toNat dom) = some d → (s.dom d).hold.active = false →
      (s.dom d).hold.reqs = [] → gen.toNat = nextGen (s.regField (domReg d.val 16) 61 54) →
      let at_ := if b.toNat < s.ftc then frameUp s.ftc else b.toNat
      ∃ n, exec (.holdNotice dom gen b frames cause) s = .next n ∧
        (n.dom d).hold.reqs = [⟨causeBit cause, false, at_, frames.toNat,
          if frames ≠ 0 then some (at_ + frames.toNat * 65536) else none⟩] ∧ (n.dom d).hold.active = false ∧
        n.regField (domReg d.val 16) 61 54 = gen.toNat ∧ memorySame s n ∧ n.ftc = s.ftc) ∧
    (∀ dom gen b frames cause, s.slotById (BitVec.toNat dom) = some d → (s.dom d).hold.active = false →
      (s.dom d).hold.reqs = [] → gen.toNat ≠ nextGen (s.regField (domReg d.val 16) 61 54) →
      exec (.holdNotice dom gen b frames cause) s = .next (s.fabBump 0x120 1)) ∧
    (∀ r, (s.dom d).hold.active = false → (s.dom d).hold.reqs = [r] → s.reqB d.val r ≤ s.ftc → 4 ≤ r.bit → r.bit ≠ 5 →
      (s.dom d).fences = [] → s.shift d.val + s.ftc < 2 ^ 64 →
      ∃ n, exec (.holdBegin d) s = .next n ∧ (n.dom d).hold = ⟨true, s.reqB d.val r, [r]⟩ ∧
        n.shift d.val = s.shift d.val + (s.ftc - s.reqB d.val r) ∧ n.regField (domReg d.val 16) 62 62 = 1 ∧
        memorySame s n ∧ n.ftc = s.ftc) ∧
    (∀ r, (s.dom d).hold.active = false → (s.dom d).hold.reqs = [r] → s.reqB d.val r ≤ s.ftc → r.bit = 3 →
      ∃ n, exec (.holdBegin d) s = .next n ∧ (n.dom d).hold.reqs = [] ∧ (n.dom d).hold.active = false ∧
        (n.dom d).dyn = (if (s.dom d).dyn = .none then .fallback else (s.dom d).dyn) ∧
        n.shift d.val = s.shift d.val ∧ memorySame s n) ∧
    ((s.dom d).hold.active = true → s.ftc % 65536 = 0 → (s.dom d).dyn = .none → (s.dom d).replica = none →
      (∀ r ∈ (s.dom d).hold.reqs, s.reqB d.val r ≤ s.ftc ∧ ∃ e, r.ends = some e ∧ e ≤ s.ftc) →
      ∃ n, exec (.holdEnd d) s = .next n ∧ (n.dom d).hold = ⟨false, 0, []⟩ ∧ n.regField (domReg d.val 16) 63 62 = 0 ∧
        n.shift d.val = s.shift d.val ∧ memorySame s n ∧ n.ftc = s.ftc)

/-- R330 to R332, R411, R412: at its unit's commit point a layer in DONE makes the bank it wrote live, advances STEP,
and takes its next digest, and one in SKIPPED only advances STEP; a repeat discards what the unit's layers computed,
and its tiles return to the word after their TSQ.UNIT, in a hold of cause "repeat" from now on. Model's choices in it:
log entries 8, 58 and 64. -/
def Obligations.UnitCommitsOrRepeats : Prop :=
  ∀ (s : State) (d : Fin 2) (u : BitVec 16), s.on = true →
    (∀ (fd l : Nat) (r : UeNext), fd < 4 → l < 128 → s.decidedNow d u.toNat .commit = true → (s.dom d).dyn = .none →
      s.unitLayers (s.dom d).ctx u.toNat = [(fd, l)] → s.digestSlot (s.jobStep d) = none →
      (∃ v ∈ (s.dom d).units, v.id ≠ u.toNat ∧ (s.dom d).done.contains v.id = false) →
      (s.ldPhase fd l = 4 → (s.layer fd l).result = some r →
        ratioOut r.ratio (s.ld fd l 7 63 32) (s.ld fd l 7 31 0) = false →
        ∃ n, exec (.unitCommit d u) s = .next n ∧ n.ld fd l 0 60 60 = 1 - s.ld fd l 0 60 60 ∧
          n.ld fd l 2 63 32 = (s.ld fd l 2 63 32 + 1) % 2 ^ 32 ∧ n.ld fd l 3 27 20 = toTwos 8 r.scale % 256 ∧
          n.reg (ldReg fd l 14) = r.lo ∧ n.reg (ldReg fd l 15) = r.hi ∧ n.ldPhase fd l = 0 ∧
          n.layer fd l = UeLayer.reset ∧ u.toNat ∈ (n.dom d).done ∧ (n.dom d).stepNo = (s.dom d).stepNo ∧
          (n.dom d).decided = none ∧ memorySame s n ∧ n.tiles = s.tiles) ∧
      (s.ldPhase fd l = 5 → ∃ n, exec (.unitCommit d u) s = .next n ∧
        n.ld fd l 2 63 32 = (s.ld fd l 2 63 32 + 1) % 2 ^ 32 ∧ n.ld fd l 0 60 60 = s.ld fd l 0 60 60 ∧
        n.reg (ldReg fd l 14) = s.reg (ldReg fd l 14) ∧ n.reg (ldReg fd l 15) = s.reg (ldReg fd l 15) ∧
        n.ldPhase fd l = 0 ∧ n.layer fd l = UeLayer.reset ∧ memorySame s n)) ∧
    (s.decidedNow d u.toNat .repeated = true → (s.dom d).decided = none → (s.dom d).hold.active = false →
      (s.dom d).dyn = .none →
      ∃ n, exec (.unitRepeat d u) s = .next n ∧ (n.dom d).dyn = .repeated [u.toNat] ∧
        (n.dom d).repeats = (s.dom d).repeats + 1 ∧ (n.dom d).hold.active = true ∧ (n.dom d).hold.b = s.ftc ∧
        ⟨2, false, s.ftc, 0, none⟩ ∈ (n.dom d).hold.reqs ∧
        (∀ e ∈ s.unitLayers (s.dom d).ctx u.toNat, 2 ≤ s.ldPhase e.1 e.2 →
          n.ldPhase e.1 e.2 = 1 ∧ (n.layer e.1 e.2).result = none ∧ (n.layer e.1 e.2).cores = [] ∧
          (n.layer e.1 e.2).held = (s.layer e.1 e.2).held) ∧
        (∀ (t : TileId) r m, (s.dom d).unit u.toNat = some r → r.tiles.getLsbD t.val = true →
          (s.tile t).seq.running = true → (s.tile t).seq.marks.find? (fun k => decide (k.unit = u.toNat)) = some m →
          (n.tile t).seq.pc = m.pc ∧ (n.tile t).seq.step = m.step ∧ (n.tile t).seq.wait = .join 15 ∧
          (n.tile t).mxa = (s.tile t).mxa ∧ (n.tile t).vx = (s.tile t).vx) ∧ memorySame s n)

/-! ### Links (chapters 10 and 12) -/

/-- R354 to R356, R361: on an ACTIVE link an idle flit changes nothing, a flit with the SEQ expected is accepted, and
another is dropped with one NAK; an ACK names the next SEQ expected, releases the flits below the one it names, and
with NAK sends the others again, until at the ninth the port retrains; credits return; another LGEN is counted.
Model's choices in it: log entries 5, 9, 31, 68 and 69. -/
def Obligations.FlitsAndAcknowledgements : Prop :=
  ∀ (s : State) (l : LinkId), s.on = true → s.linkState l.val = 4 →
    let x := s.link l.val
    (∀ (h : FlitHdr) payload,
      (h.kind = 0 → exec (.flitReceive l h payload true true) s = .next s) ∧
      (h.kind ≠ 0 → h.seq.toNat = x.expect → 8 ≤ l.val ∨ 3 ≤ h.kind.toNat →
        ∃ n, exec (.flitReceive l h payload true true) s = .next n ∧ linkOnly s { n with fab.rx := s.fab.rx } l.val ∧
          (n.link l.val).expect = (x.expect + 1) % 4096 ∧ (n.link l.val).nakAt = none ∧
          (n.link l.val).since = (if 64 ≤ x.since + 1 then 0 else x.since + 1) ∧
          n.fab.rx = (if l.val < 8 ∧ h.kind.toNat ≤ 5 then s.fab.rx ++ [(l.val, ⟨h, payload, false⟩)] else s.fab.rx)) ∧
      (∀ crc fec, (crc = false ∨ fec = false ∨ (h.kind ≠ 0 ∧ h.seq.toNat ≠ x.expect)) →
        (∀ t, x.nakAt = some t → t + 64 ≤ s.ftc) →
        ∃ n, exec (.flitReceive l h payload crc fec) s = .next n ∧ linkOnly s n l.val ∧
          (n.link l.val).expect = x.expect ∧ (n.link l.val).nakAt = some s.ftc ∧
          n.out = s.out ++ [.control (Fin.ofNat 10 l.val) 1 (BitVec.ofNat 8 (s.linkGen l.val))
            (BitVec.ofNat 112 (x.expect * 2 ^ 100 + 2 ^ 99))])) ∧
    (∃ n, exec (.ackSend l) s = .next n ∧ linkOnly s n l.val ∧ n.regs = s.regs ∧
      n.link l.val = { x with since := 0 } ∧
      n.out = s.out ++ [.control (Fin.ofNat 10 l.val) 1 (BitVec.ofNat 8 (s.linkGen l.val))
        (BitVec.ofNat 112 (x.expect * 2 ^ 100))]) ∧
    (∀ (lgen : BitVec 8) (m : BitVec 112), lgen.toNat = s.linkGen l.val → x.txq = [] → x.resync = false →
      x.retry.length ≤ x.next → x.next < 4096 →
      (∀ k, k ≤ x.retry.length → wbits m 111 100 = x.next - x.retry.length + k → wbits m 99 99 = 0 →
        ∃ n, exec (.ack l lgen m) s = .next n ∧ linkOnly s n l.val ∧ (n.link l.val).retry = x.retry.drop k ∧
          (n.link l.val).next = x.next ∧ (n.link l.val).credits = x.credits ∧ n.out = s.out ∧ n.regs = s.regs) ∧
      (∀ k, k < x.retry.length → wbits m 111 100 = x.next - x.retry.length + k → wbits m 99 99 = 1 →
        (0 < k ∨ x.againSq ≠ wbits m 111 100 ∨ x.againN < 8) →
        ∃ n, exec (.ack l lgen m) s = .next n ∧ linkOnly s n l.val ∧ (n.link l.val).retry = x.retry.drop k ∧
          n.out = s.out ++ (x.retry.drop k).map fun f => OutMsg.flit (Fin.ofNat 10 l.val) f.hdr f.pay) ∧
      (wbits m 111 100 = x.next - x.retry.length → x.retry ≠ [] → wbits m 99 99 = 1 → x.againSq = wbits m 111 100 →
        8 ≤ x.againN → l.val < 8 → ∃ n, exec (.ack l lgen m) s = .next n ∧ n.linkState l.val = 5 ∧
          (n.link l.val).retry = x.retry ∧ n.out = s.out ∧ memorySame s n)) ∧
    (∀ (lgen : BitVec 8) (m : BitVec 112), lgen.toNat = s.linkGen l.val → l.val < 8 → x.txq = [] → x.credits.length = 7 →
      ∃ n, exec (.credit l lgen m) s = .next n ∧ linkOnly s n l.val ∧ n.regs = s.regs ∧ n.out = s.out ∧
        (n.link l.val).retry = x.retry ∧ (n.link l.val).credits.getD 6 0 = x.credits.getD 6 0 + wbits m 63 56 ∧
        ∀ v, v < 6 → (n.link l.val).credits.getD v 0 = x.credits.getD v 0 + wbits m (71 + 8 * v) (64 + 8 * v)) ∧
    (∀ (lgen : BitVec 8) (m : BitVec 112), lgen.toNat ≠ s.linkGen l.val →
      exec (.ack l lgen m) s = .next (s.portBump l.val 0x150 1))

/-- R357 to R359, R608, R612: DETECT leads to TRAIN when a cable is seated, TRAIN to ALIGN at the higher common rate
or, at the third failure, to FENCED; ALIGN ends when this end's and the partner's lanes are known, in ACTIVE or, too
narrow, in FENCED; a bad lane leads to RETRAIN, whose end advances LGEN or falls back to TRAIN; no cable leads back to
DETECT; a request trains the port again with its bad lanes cleared. Model's choices in it: log entries 5, 9 and 66. -/
def Obligations.PortsTrainAndRetrain : Prop :=
  ∀ (s : State) (l : LinkId), s.on = true →
    let x := s.link l.val
    (s.linkState l.val = 1 → x.present = true → s.time.refBoot = true → s.regField (linkReg l.val 0) 0 0 = 1 →
      ∃ n, exec (.portDetect l) s = .next n ∧ n.linkState l.val = 2 ∧ n.fab = s.fab ∧
        n.capVersion = s.capVersion + 1 ∧ memorySame s n) ∧
    (∀ (rates : BitVec 2) good, s.linkState l.val = 2 →
      (rates.getLsbD 1 = true ∧ s.regField (linkReg l.val 0) 7 6 ≠ 2 →
        ∃ n, exec (.trainComplete l true rates good) s = .next n ∧ n.linkState l.val = 3 ∧
          n.regField (linkReg l.val 8) 59 59 = 1 ∧ (n.link l.val).bad = x.bad ||| ~~~good ∧
          (n.link l.val).good = none ∧ (n.link l.val).partner = none ∧ memorySame s n) ∧
      (rates.getLsbD 1 = false → rates.getLsbD 0 = true → s.regField (linkReg l.val 0) 7 6 ≠ 1 →
        ∃ n, exec (.trainComplete l true rates good) s = .next n ∧ n.linkState l.val = 3 ∧
          n.regField (linkReg l.val 8) 59 59 = 0 ∧ memorySame s n) ∧
      (x.fails < 2 → ∃ n, exec (.trainComplete l false rates good) s = .next n ∧ n.linkState l.val = 2 ∧
        n.link l.val = { x with fails := x.fails + 1 } ∧ n.out = s.out ∧ memorySame s n) ∧
      (2 ≤ x.fails → ∃ n, exec (.trainComplete l false rates good) s = .next n ∧ n.linkState l.val = 6 ∧
        (n.link l.val).fails = 0 ∧ memorySame s n)) ∧
    (∀ good : BitVec 64, s.linkState l.val = 3 → x.partner = none →
      ∃ n, exec (.alignComplete l good) s = .next n ∧ n.linkState l.val = 3 ∧
        n.link l.val = { x with bad := x.bad ||| ~~~good, good := some (~~~(x.bad ||| ~~~good)) } ∧
        (∃ lg m, n.out = s.out ++ [.control (Fin.ofNat 10 l.val) 4 lg m] ∧
          wbits m 96 33 = (~~~(x.bad ||| ~~~good)).toNat) ∧ n.regs = s.regs ∧ memorySame s n) ∧
    (∀ (lgen : BitVec 8) (m : BitVec 112), s.linkState l.val = 3 → lgen.toNat = s.linkGen l.val → x.txq = [] →
      (x.good = none → ∃ n, exec (.lane l lgen m) s = .next n ∧ n.linkState l.val = 3 ∧
        n.link l.val = { x with partner := some (BitVec.ofNat 64 (wbits m 96 33)) } ∧ n.out = s.out ∧
        memorySame s n) ∧
      (∀ g, x.good = some g → l.val < 8 → s.timeField 53 52 = 0 →
        let r := widthOf g
        let t := widthOf (BitVec.ofNat 64 (wbits m 96 33))
        let least := minWidth (s.regField (linkReg l.val 0) 5 4)
        ∃ n, exec (.lane l lgen m) s = .next n ∧ n.regField (linkReg l.val 8) 51 45 = r ∧
          n.regField (linkReg l.val 8) 58 52 = t ∧
          n.linkState l.val = (if r < least ∨ t < least then 6 else 4) ∧ memorySame s n)) ∧
    (∀ (k : Fin 64) cause, s.linkState l.val = 4 → (l.val < 8 ∨ k.val < 16) → x.bad.getLsbD k.val = false →
      ∃ n, exec (.laneBad l k cause) s = .next n ∧ n.linkState l.val = 5 ∧
        (n.link l.val).bad = x.bad ||| 1#64 <<< k.val ∧ (∀ g, x.good = some g →
          (n.link l.val).good = some (g &&& ~~~(1#64 <<< k.val))) ∧ memorySame s n) ∧
    (s.linkState l.val = 5 →
      (∃ n, exec (.retrainComplete l false) s = .next n ∧ n.linkState l.val = 2 ∧ n.fab = s.fab ∧ memorySame s n) ∧
      (∀ g p, x.good = some g → x.partner = some p → l.val < 8 → s.timeField 53 52 = 0 → x.txq = [] →
        minWidth (s.regField (linkReg l.val 0) 5 4) ≤ widthOf g → minWidth (s.regField (linkReg l.val 0) 5 4) ≤ widthOf p →
        ∃ n, exec (.retrainComplete l true) s = .next n ∧ n.linkState l.val = 4 ∧
          n.linkGen l.val = nextGen (s.linkGen l.val) ∧ (n.link l.val).resync = true ∧
          (n.link l.val).retry = x.retry ∧ memorySame s n) ∧
      (∀ g p, x.good = some g → x.partner = some p → 8 ≤ l.val → cclWidth ((g &&& p).toNat % 2 ^ 16) ≠ 0 → x.txq = [] →
        ∃ n, exec (.retrainComplete l true) s = .next n ∧ n.linkState l.val = 4 ∧
          n.regField (linkReg l.val 8) 58 57 = cclWidth ((g &&& p).toNat % 2 ^ 16) ∧ memorySame s n)) ∧
    (∀ present, ∃ n, exec (.cablePresentChange l present) s = .next n ∧ (n.link l.val).present = present ∧
      n.linkState l.val = (if present = true ∨ s.linkState l.val = 0 ∨ s.linkState l.val = 6 then s.linkState l.val
        else 1) ∧ memorySame s n) ∧
    (∃ n, exec (.portTrainRequest l) s = .next n ∧
      n.link l.val = { x with bad := 0, good := none, partner := none, fails := 0 } ∧
      n.linkState l.val = (if s.regField (linkReg l.val 0) 0 0 = 0 then 0 else if x.present = true then 2 else 1) ∧
      n.out = s.out ∧ memorySame s n)

/-! ### Other modules' requests, reductions, multicasts (chapter 10) -/

/-- R369, R370: a request for a module whose export windows permit it is performed at its home and answered: a read of
tile memory with its bytes, a write of it with the bytes in place, a signal added to its sync word; one that no window
permits is answered DENIED. An answer that no request awaits is dropped. Model's choices in it: log entries 15, 53 and
69. -/
def Obligations.RemoteRequestsPerformed : Prop :=
  ∀ (s : State) (p : PortId) (h : PktHdr) (data : List Byte), s.on = true → h.dst = s.selfIndex →
    let ga := h.ga.toNat
    let n := h.len.toNat
    let key := h.jobkey.toNat
    (h.op = 1 → s.exported key ga n false = true → 1 ≤ n → n ≤ 4096 → s.rangeOk (48 + p.val / 2) ga n = true →
      gaRegion ga = 0 → (s.die (gaDie ga)).errs = [] →
      ∃ x : State, exec (.remoteRequest p h data) s =
        .next (x.respond h 0 (s.poisonedAt ga n) (s.bytesAt ga n)) ∧ memorySame s x) ∧
    (h.op = 2 → h.flags.getLsbD 0 = false → s.exported key ga n true = true → 1 ≤ n → n ≤ 4096 →
      s.rangeOk (48 + p.val / 2) ga n = true → gaRegion ga = 0 → (s.die (gaDie ga)).errs = [] →
      ∃ x : State, exec (.remoteRequest p h data) s = .next (x.respond h 0 false []) ∧
        x.bytesAt ga n = slice data 0 n ∧ memoryBut s x ga n ∧ x.sync = s.sync ∧ x.tiles = s.tiles) ∧
    (h.op = 3 → n = 128 → redFormed ga h.fmt.toNat = true → s.exported key ga n true = true →
      s.rangeOk (48 + p.val / 2) ga n = true → (redRefusedFmt h.fmt.toNat && s.ctxDet (Fin.ofNat 64 h.ctx.toNat)) = false →
      (s.takePacket p.val h).readyLine ga true = (false, s.takePacket p.val h) →
      exec (.remoteRequest p h data) s = .next (((s.takePacket p.val h).redArrive false (Fin.ofNat 64 h.ctx.toNat) 0 ga
        h.fmt.toNat h.operand (BitVec.ofNat 1024 (leNat (slice data 0 128)))).respond h 0 false [])) ∧
    (h.op = 4 → s.exported key ga 8 true = true → ga % 8 = 0 → gaRegion ga = 3 → gaDie ga ≠ 63 →
      s.xCause (48 + p.val / 2) ga .store .syncInitOrSig = none → (s.home (gaDie ga)).queue = [] →
      let v := s.syncWord ga
      syMode v = 1 → syGen v = bits h.operand 63 56 → bits h.operand 15 0 ≠ 0 →
      syCount v + bits h.operand 15 0 ≤ 0xFFFFFFFF →
      ∃ x : State, exec (.remoteRequest p h data) s = .next (x.respond h 0 false []) ∧
        x.syncWord ga = putBits v 31 0 (syCount v + bits h.operand 15 0) ∧
        (∀ g, g ≠ ga → x.syncWord g = s.syncWord g) ∧ x.mem = s.mem) ∧
    (1 ≤ h.op.toNat → h.op.toNat ≤ 4 →
      s.exported key ga (if h.op = 4 then 8 else n) (decide (h.op ≠ 1)) = false →
      ∃ x : State, exec (.remoteRequest p h data) s = .next (x.respond h 5 false []) ∧ memorySame s x) ∧
    (h.op = 5 → (∀ r ∈ s.fab.reqs, r.tag = h.tag.toNat → r.gen ≠ h.tagGen.toNat) →
      exec (.remoteResponse p h data) s = .next (s.takePacket p.val h)) ∧
    (∀ r, h.op = 5 → s.fab.reqs.find? (fun r => decide (r.tag = h.tag.toNat ∧ r.gen = h.tagGen.toNat)) = some r →
      r.who = .posted → ∃ x, exec (.remoteResponse p h data) s = .next x ∧ x.fab.reqs = s.fab.reqs.erase r ∧
        memorySame s x ∧ x.regs = s.regs)

/-- R371 to R379, R394: a bucket's flit of a port of its fan-in opens the input or adds to its element group; the last
contribution of a group at the root writes the fitted sums to the destination; the local input is taken with its
signals; a complete bucket is signalled, told of, and moves to its next step; a discarded one is at rest and invalid;
a flit of no bucket is stale. Model's choices in it: log entries 5, 8, 13, 61 and 68. -/
def Obligations.BucketsReduce : Prop :=
  ∀ (s : State) (fd : FdId) (b : Nat), s.fdOn fd.val = true → b < 256 →
    let f := fd.val
    (∀ (p : PortId) (h : FlitHdr) payload,
      let bs := payBytes payload
      (h.kind = 3 ∨ h.kind = 4 → s.bktOf f h.tag.toNat = none →
        exec (.bucketFlit fd p h payload) s = .next ((s.takeFlit p.val h payload).bump (redReg f 0x110) 1)) ∧
      (h.kind = 3 → s.bktOf f h.tag.toNat = some b → (s.bktF f b 0 15 8).testBit p.val = true →
        (h.first = true → field bs 2 1 = s.bktF f b 0 55 48 → s.bktPhase f b = 0 → field bs 16 1 = s.bktF f b 0 31 24 →
          field bs 17 1 = s.bktF f b 0 23 18 → field bs 18 1 = s.bktF f b 0 60 60 →
          field bs 4 4 = s.bktF f b 2 63 32 → (field bs 3 1).testBit 3 = false →
          (∃ q, q < 8 ∧ q ≠ p.val ∧ (s.bktF f b 0 15 8).testBit q = true ∧
            (s.regField (bktState f b) 60 52).testBit q = false) →
          ∃ n, exec (.bucketFlit fd p h payload) s = .next n ∧ n.bktPhase f b = 1 ∧
            n.regField (bktState f b) 60 52 = (s.regField (bktState f b) 60 52 ||| 2 ^ p.val) ∧ memorySame s n ∧
            n.tiles = s.tiles) ∧
        (∀ k, h.first = false → field bs 240 1 = s.bktF f b 0 55 48 → s.bktPhase f b = 1 →
          (s.regField (bktState f b) 59 52).testBit p.val = true → h.offset.toNat = k + 1 → k < s.bktGroups f b →
          field bs 242 2 = s.bktF f b 2 63 32 % 65536 → (field bs 241 1).testBit 3 = false →
          s.readyLines (s.bktNeeds f b h) = (false, s) →
          let wide := decide (s.bktF f b 0 60 60 = 1)
          let e := esfElems wide bs
          let g := mapGet BktGroup.reset (s.bkt f b).groups k
          g.got.testBit p.val = false → g.got ≠ 0 →
          (g.got + 2 ^ p.val ≠ s.bktInputs f b → ∃ n g', exec (.bucketFlit fd p h payload) s = .next n ∧
            mapGet BktGroup.reset (n.bkt f b).groups k = g' ∧ g'.got = g.got + 2 ^ p.val ∧
            g'.sums = (g.sums.zip e).map (fun z => z.1 + z.2.1) ∧ g'.spec = (g.spec.zip e).map (fun z => z.1 || z.2.2) ∧
            (n.bkt f b).outs = (s.bkt f b).outs ∧ memorySame s n) ∧
          (g.got + 2 ^ p.val = s.bktInputs f b → s.bktF f b 0 59 59 = 1 → s.bktF f b 0 62 61 = 0 → g.poison = false →
            g.skew = false → (field bs 241 1).testBit 0 = false →
            let at_ := s.bktF f b 6 39 0 + 240 * k
            let len := s.groupBytes f b k
            let sums := (g.sums.zip e).map fun z => z.1 + z.2.1
            let spec := (g.spec.zip e).map fun z => z.1 || z.2.2
            gaRegion at_ = 0 → gaRegion (at_ + len - 1) = 0 →
            ∃ n, exec (.bucketFlit fd p h payload) s = .next n ∧
              n.bytesAt at_ len = slice (((sums.zip spec).map fun z => (esfFit wide z.2 z.1).1).flatMap
                (leBytes (if wide then 8 else 4))) 0 len ∧ memoryBut s n at_ len ∧
              (n.bkt f b).outs = (s.bkt f b).outs + 1 ∧ n.sync = s.sync)))) ∧
    (s.bktF f b 0 63 63 = 1 → s.bktF f b 0 58 58 = 1 → s.bktPhase f b ≠ 2 → s.regField (bktState f b) 60 60 = 0 →
      let g := s.bktF f b 4 39 0
      s.readyLines (readyList (s.bktF f b 3 39 0) (s.bktF f b 3 63 48 * 65536) false ++
        (if s.bktF f b 0 59 59 = 1 then readyList (s.bktF f b 6 39 0) (s.bktF f b 3 63 48 * 65536) true else
          ([] : List (Nat × Bool)))) = (false, s) →
      (∀ i, i < s.bktF f b 3 63 48 * 65536 → gaRegion (s.bktF f b 3 39 0 + i) ≤ 2 ∧ gaRegion (s.bktF f b 6 39 0 + i) ≤ 2) →
      syMode (s.syncWord g) ≠ 0 → syGen (s.syncWord g) = s.bktF f b 4 63 56 → (s.home (gaDie g)).queue = [] →
      (waitOk (s.syncWord g) (s.bktF f b 3 47 40) = true →
        ∃ n, exec (.bucketLocalInput fd (Fin.ofNat 256 b)) s = .next n ∧ n.regField (bktState f b) 60 60 = 1 ∧
          n.syncWord g = waitTake (s.syncWord g) (s.bktF f b 3 47 40)) ∧
      (waitOk (s.syncWord g) (s.bktF f b 3 47 40) = false →
        exec (.bucketLocalInput fd (Fin.ofNat 256 b)) s = .next (s.wait (.bucketLocalInput fd (Fin.ofNat 256 b))))) ∧
    (s.bktPhase f b = 1 → s.bktF f b 0 63 63 = 1 → (s.bkt f b).outs = s.bktGroups f b → s.bktF f b 0 62 61 = 0 →
      s.bktF f b 0 59 59 = 1 →
      ∃ n, exec (.bucketComplete fd (Fin.ofNat 256 b)) s = .next n ∧ n.reg (bktState f b) = 0 ∧
        n.bkt f b = BktSt.reset ∧ n.bktF f b 2 63 32 = (s.bktF f b 2 63 32 + 1) % 2 ^ 32 ∧
        n.fab.notices = s.fab.notices ++ [(fd, s.bktNotice f b false 0)] ∧ n.mem = s.mem) ∧
    (∃ n, exec (.bucketDiscard fd (Fin.ofNat 256 b)) s = .next n ∧ n.bktF f b 0 63 63 = 0 ∧
      n.bktF f b 0 62 0 = s.bktF f b 0 62 0 ∧ n.reg (bktState f b) = 0 ∧ n.bkt f b = BktSt.reset ∧
      n.out = s.out ∧ memorySame s n)

/-- R380 to R382: a write of RED_MC_GO that names no source is stale; one that does copies its units to the module's
own destination, when it has one; a relay writes a flit's bytes to its own; each GO is signalled once it is complete.
Model's choices in it: log entries 13, 68 and 69. -/
def Obligations.MulticastsCopy : Prop :=
  ∀ (s : State) (fd : FdId), s.fdOn fd.val = true →
    let f := fd.val
    (∀ v, s.mcNamed f v = none → exec (.redMcGo fd v) s = .next (s.bump (redReg f 0x110) 1)) ∧
    (∀ v m start count, s.mcNamed f v = some (m, start, count) → s.readyLines (s.mcLines f (m, start, count)) = (false, s) →
      1 ≤ count → s.poison = [] →
      let src := s.mcF f m 1 39 0 + start * 65536
      let dst := s.mcF f m 2 39 0 + start * 65536
      gaRegion src = 0 → src / 2 ^ 30 = (src + count * 65536 - 1) / 2 ^ 30 →
      (s.mcF f m 0 61 61 = 0 → ∃ n, exec (.redMcGo fd v) s = .next n ∧ n.mem = s.mem ∧ n.sync = s.sync ∧
        n.reg (redReg f 0x138) = s.reg (redReg f 0x138) + BitVec.ofNat 64 (count * 274)) ∧
      (s.mcF f m 0 61 61 = 1 → gaRegion dst = 0 → dst / 2 ^ 30 = (dst + count * 65536 - 1) / 2 ^ 30 →
        (src + count * 65536 ≤ dst ∨ dst + count * 65536 ≤ src) →
        ∃ n, exec (.redMcGo fd v) s = .next n ∧ (∀ i, i < count * 65536 → n.byte (dst + i) = s.byte (src + i)) ∧
          memoryBut s n dst (count * 65536) ∧
          mapGet 0 n.fab.mcDone (f * 64 + m) = mapGet 0 s.fab.mcDone (f * 64 + m) + 1)) ∧
    (∀ (p : PortId) (h : FlitHdr) payload m, h.kind = 5 → s.mcOf f h.tag.toNat true = some m →
      s.mcF f m 0 31 28 = p.val →
      let bs := payBytes payload
      let k := h.offset.toNat
      let ga := s.mcF f m 2 39 0 + (k / 274 * 65536 + k % 274 * 240)
      let len := min 240 (65536 - k % 274 * 240)
      (field bs 240 1 ≠ s.mcF f m 0 55 48 →
        exec (.multicastFlit fd p h payload) s = .next ((s.takeFlit p.val h payload).bump (redReg f 0x110) 1)) ∧
      (field bs 240 1 = s.mcF f m 0 55 48 → s.readyLines (readyList ga len true) = (false, s) → gaRegion ga = 0 →
        gaRegion (ga + len - 1) = 0 → (field bs 241 1).testBit 0 = false →
        ∃ n, exec (.multicastFlit fd p h payload) s = .next n ∧ n.bytesAt ga len = slice bs 0 len ∧
          memoryBut s n ga len ∧ n.sync = s.sync ∧
          mapGet 0 n.fab.mcDone (f * 64 + m) = mapGet 0 s.fab.mcDone (f * 64 + m) + (if h.last then 1 else 0))) ∧
    (∀ m : Fin 64, mapGet 0 s.fab.mcDone (f * 64 + m.val) ≠ 0 →
      let g := s.mcF f m.val 3 39 0
      let v := s.syncWord g
      gaDie g ≠ 63 → syMode v = 1 → syGen v = s.mcF f m.val 3 63 56 → syCount v < 0xFFFFFFFF →
      (s.home (gaDie g)).queue = [] →
      ∃ n, exec (.multicastComplete fd m) s = .next n ∧
        mapGet 0 n.fab.mcDone (f * 64 + m.val) = mapGet 0 s.fab.mcDone (f * 64 + m.val) - 1 ∧
        n.syncWord g = putBits v 31 0 (syCount v + 1) ∧ (∀ a, a ≠ g → n.syncWord a = s.syncWord a) ∧ n.mem = s.mem)

/-! ### Update engines (chapter 11) -/

/-- R394 to R397: a notice of no layer, or of another generation, is counted; one of the layer's step and anchor is
held, one of another step makes the layer SKEW, one of another anchor FAULT; every cluster learns of a unit's begin;
the lowest ready layer starts on the lowest free cores, from the beginning of its routine. Model's choices in it: log
entries 5, 6, 69 and 70. -/
def Obligations.NoticesStartLayers : Prop :=
  (∀ (s : State) (fd : FdId) (m : Notice), s.fdOn fd.val = true →
    let f := fd.val
    let r : State := ({ s with fab := { s.fab with notices := s.fab.notices.erase (fd, m) } } : State).ueBump f 0x100
    (s.ueMatches f m = [] → exec (.gradientNotice fd m) s = .next (r.ueBump f 0x110)) ∧
    (∀ l, s.ueMatches f m = [l] →
      (s.ld f l 0 55 48 ≠ m.gen.toNat → exec (.gradientNotice fd m) s = .next (r.ueBump f 0x108)) ∧
      (s.ld f l 0 55 48 = m.gen.toNat → s.ld f l 0 62 62 = 0 →
        (m.skew = false → s.ld f l 2 63 32 = m.step.toNat → s.ld f l 3 63 56 = m.anchor.toNat →
          ∃ n, exec (.gradientNotice fd m) s = .next n ∧
            (n.layer f l).held = ((s.layer f l).held.filter fun k => decide (k.bid ≠ m.bid)) ++ [m] ∧
            (n.layer f l).cores = (s.layer f l).cores ∧
            n.ldPhase f l = (if s.ldPhase f l = 0 then 1 else s.ldPhase f l) ∧ memorySame s n ∧
            n.tiles = s.tiles ∧ n.out = s.out) ∧
        (m.skew = true ∨ s.ld f l 2 63 32 ≠ m.step.toNat →
          ∃ n, exec (.gradientNotice fd m) s = .next n ∧ n.ldPhase f l = 6 ∧ n.mem = s.mem) ∧
        (m.skew = false → s.ld f l 2 63 32 = m.step.toNat → s.ld f l 3 63 56 ≠ m.anchor.toNat →
          ∃ n, exec (.gradientNotice fd m) s = .next n ∧ n.ldPhase f l = 7 ∧ n.mem = s.mem)))) ∧
  (∀ (s : State) (u : BitVec 16), s.on = true →
    ∃ n, exec (.unitBeginNotice u) s = .next n ∧ n = { s with ue := n.ue } ∧ ∀ f, f < 4 →
      (∀ v, v ∈ (n.cluster f).begun ↔ v = u.toNat ∨ v ∈ (s.cluster f).begun) ∧
      (n.cluster f).layers = (s.cluster f).layers ∧ (n.cluster f).cores = (s.cluster f).cores) ∧
  (∀ (s : State) (fd : FdId) (l : Fin 128), s.fdOn fd.val = true → s.ueReady fd.val l.val = true →
    (∀ k, k < l.val → s.ueReady fd.val k = false) → s.ld fd.val l.val 0 59 56 < (s.freeCores fd.val).length →
    let cs := (s.freeCores fd.val).take (s.ld fd.val l.val 0 59 56 + 1)
    ∃ n, exec (.layerStart fd l) s = .next n ∧ n.ldPhase fd.val l.val = 2 ∧ (n.layer fd.val l.val).cores = cs ∧
      (n.layer fd.val l.val).held = (s.layer fd.val l.val).held ∧ (n.layer fd.val l.val).result = none ∧
      (∀ c ∈ cs, (n.core fd.val c).running = true ∧ (n.core fd.val c).pc = 0 ∧ (n.core fd.val c).vl = 0 ∧
        (n.core fd.val c).v = (s.core fd.val c).v ∧ (n.core fd.val c).sreg = (s.core fd.val c).sreg) ∧
      (∀ c, c ∉ cs → n.core fd.val c = s.core fd.val c) ∧ memorySame s n ∧ n.out = s.out)

/-- Table 11.4, R411: UE.LDD reads a word of the descriptor, UE.XADD adds to shared memory with saturation, UE.DIG
adds its terms to a pair of lanes; a core waits at UE.GBAR until every core of its group that has not ended is there;
UE.DONE ends a core, and the last one's, where a special value was met, leaves the layer SKIPPED. Model's choices in
it: log entries 5, 11, 17, 18 and 70. -/
def Obligations.UpdateCoreWords : Prop :=
  ∀ (s : State) (fd : FdId) (c : Fin 16) (w : BitVec 56) (l : Nat), vuGoes s (.core fd c) → vxWordOk w = true →
    s.layerOf fd.val c.val = some l →
    let f := fd.val
    let x := s.core f c.val
    let u := VUnit.core fd c
    let y := s.layer f l
    (vxImm w ≤ 15 → ∃ n, exec (.ueLdd fd c w) s = .next n ∧ vxScalarDone s n u (vxVd w) (s.ueWord f l (vxImm w)) ∧
      n.regs = s.regs ∧ n.out = s.out) ∧
    (vlFault (s.vuEnv u) x 64 = false →
      let va := fun i => ((x.s (vxVs2 w)).toNat + 8 * i) % 2 ^ 48
      (∀ i ∈ x.actives w x.vl, va i % 8 = 0 ∧ ∃ o, ueSpace (va i) = some (1, o)) →
      ∃ n, exec (.ueXadd fd c w) s = .next n ∧ n.core f c.val = { x with pc := x.pc + 8 } ∧
        (∀ i ∈ x.actives w x.vl, n.ueBytes f c.val 1 (va i % 2 ^ 20) 8 = leBytes 8
          (satAdd64 (BitVec.ofNat 64 (leNat (s.ueBytes f c.val 1 (va i % 2 ^ 20) 8)))
            (BitVec.ofNat 64 (x.el (vxVs1 w) 64 i))).1.toNat) ∧
        (∀ o, (∀ i ∈ x.actives w x.vl, o < va i % 2 ^ 20 ∨ va i % 2 ^ 20 + 8 ≤ o) →
          n.ueBytes f c.val 1 o 1 = s.ueBytes f c.val 1 o 1) ∧ memorySame s n ∧ n.out = s.out) ∧
    (vlFault (s.vuEnv u) x 16 = false → vxVd w ≠ 31 →
      let sum := (x.actives w x.vl).foldl (fun (z : BitVec 128) i => laneAdd z (digestTerm (s.digestKey f) (s.ld f l 0 31 0)
        ((x.s (vxVs3 w)).toNat + i) (x.el (vxVs1 w) 16 i) (x.el (vxVs2 w) 16 i))) (x.s (vxVd w + 1) ++ x.s (vxVd w))
      ∃ n, exec (.ueDig fd c w) s = .next n ∧
        (n.core f c.val).s (vxVd w) = (if vxVd w = 0 then 0 else sum.extractLsb' 0 64) ∧
        (n.core f c.val).s (vxVd w + 1) = sum.extractLsb' 64 64 ∧
        (∀ k, k ≠ vxVd w → k ≠ vxVd w + 1 → (n.core f c.val).s k = x.s k) ∧ (n.core f c.val).v = x.v ∧
        (n.core f c.val).pc = x.pc + 8 ∧ memorySame s n ∧ n.regs = s.regs) ∧
    ((∃ k ∈ y.cores, k ≠ c.val ∧ k ∉ y.done ∧ k ∉ y.gbar.map (·.1)) →
      ∃ n, exec (.ueGbar fd c w) s = .next n ∧ (n.layer f l).gbar = y.gbar ++ [(c.val, vxImm w)] ∧
        n.core f c.val = x ∧ n.regs = s.regs ∧ memorySame s n) ∧
    ((∀ e ∈ y.gbar, e.2 = vxImm w) → (y.gbar.map (·.1)).Nodup →
      (∀ k ∈ y.cores, k = c.val ∨ k ∈ y.done ∨ k ∈ y.gbar.map (·.1)) →
      ∃ n, exec (.ueGbar fd c w) s = .next n ∧ (n.layer f l).gbar = [] ∧ n.ldPhase f l = 3 ∧
        (n.core f c.val).pc = x.pc + 8 ∧ (∀ e ∈ y.gbar, (n.core f e.1).pc = (s.core f e.1).pc + 8) ∧ memorySame s n) ∧
    (vxImm w ≤ 1 → y.gbar = [] → (∃ k ∈ y.cores, k ≠ c.val ∧ k ∉ y.done) →
      ∃ n, exec (.ueDone fd c w) s = .next n ∧ (n.layer f l).done = y.done ++ [c.val] ∧
        (n.layer f l).special = (y.special || decide (vxImm w = 1)) ∧ (n.core f c.val).running = false ∧
        n.regs = s.regs ∧ memorySame s n) ∧
    (vxImm w = 1 → y.gbar = [] → (∀ k ∈ y.cores, k = c.val ∨ k ∈ y.done) → s.readyLines (s.ueLines f l) = (false, s) →
      ∃ n, exec (.ueDone fd c w) s = .next n ∧ n.ldPhase f l = 5 ∧ (n.core f c.val).running = false ∧ n.mem = s.mem)

/-- R419, R420, R591, R594: the lead reads the digest slot that contributions reached, clears it and its word, and
reports it; equal digests of the active replicas make the step the last agreed, others hold every domain of the job; a
shadow tile's entries are compared with its primary's in order. Model's choices in it: log entries 5, 9 and 70. -/
def Obligations.DigestsReportedAndCompared : Prop :=
  ∀ (s : State), s.on = true →
    (∀ k : Fin 8,
      let ga := s.regField (ueReg 0 0x18) 39 0 + 128 * k.val
      let word := s.digSync 0 + 8 * k.val
      let cfg := ueReg 0 0x10
      s.regField cfg 52 41 = s.selfIndex.toNat → s.regField cfg 63 53 ≠ 0 → s.regField cfg 40 33 ≠ 0 →
      syCount (s.syncWord word) ≠ 0 → ga % 128 = 0 → gaRegion ga ≤ 2 → (s.home (gaDie word)).queue = [] →
      s.readyLines (readyList ga 16 true) = (false, s) →
      ∃ n, exec (.digestReport k) s = .next n ∧ n.bytesAt ga 16 = List.replicate 16 0 ∧
        n.syncWord word = putBits (putBits 0 63 62 1) 61 54 (s.regField cfg 40 33) ∧
        OutMsg.digest (s.regField cfg 32 21) k.val
          (BitVec.ofNat 128 (leNat (s.foreignRead .controller 0 ga 16 0).1)) ∈ n.out) ∧
    (∀ step a rest, s.isMaster = true → 2 ≤ s.fw.nrepl → s.fw.nrepl ≤ (a :: rest).length →
      ((∀ r ∈ rest, r.2 = a.2) → exec (.digestCompare step (a :: rest)) s =
        .next { s with fw := { s.fw with agreed := some step } }) ∧
      ((∃ r ∈ rest, r.2 ≠ a.2) → ∃ n, exec (.digestCompare step (a :: rest)) s = .next n ∧ n.fw.agreed = s.fw.agreed ∧
        (∀ d, (s.dom d).started = true → ∃ r ∈ (n.dom d).hold.reqs, r.bit = 2) ∧ memorySame s n)) ∧
    (∀ t : TileId,
      let cfg := s.reg (tileReg t 0x600)
      let q := (s.tile t).seq
      let n := 2 ^ (bits cfg 47 44 + 8)
      s.fwOn = true → s.pwr.vacant = false → bits cfg 62 62 = 1 → bits cfg 57 48 < 576 →
      (q.odigSeen % n = q.odigPos % n → exec (.shadowDigestCompare t) s = .next s) ∧
      (∀ e, (q.odigSeen + 1) % n = q.odigPos % n →
        let own := s.digestEntry t q.odigSeen
        s.digestFor (tileOf (bits cfg 57 48)) (field own 0 4) (field own 4 4) = some e →
        (slice own 8 16 = slice e 8 16 → exec (.shadowDigestCompare t) s =
          .next (s.setSeq t { q with odigSeen := (q.odigSeen + 1) % n })) ∧
        (slice own 8 16 ≠ slice e 8 16 → ∃ m, exec (.shadowDigestCompare t) s = .next m ∧
          (m.tile t).seq.odigSeen = (q.odigSeen + 1) % n ∧ memorySame s m)))

/-! ### The companion link (chapter 12) -/

/-- R431, R434 to R439, Table 12.7: an uncached read of tile memory is answered with its bytes, a write of it puts
them in place; a coherent read grants the line in the directory; a write-back of an owned line becomes its content and
ends the grant, another is DENIED; a dropped line leaves the directory; a reduce-write is performed at the home; what
names a region that the request may not reach is DENIED. Model's choices in it: log entry 65. -/
def Obligations.CompanionRequests : Prop :=
  ∀ (s : State) (p : Fin 2) (h : CclHdr) (data : List Byte), s.on = true → s.cclActive p = true → h.flagsReserved = 0 →
    let ga := cclGa h
    let n := h.len.toNat
    let line := ga / 128 * 128
    let d := gaDie line
    (8 ≤ n → n ≤ 4096 → s.rangeOk (48 + p.val) ga n = true → gaRegion ga = 0 → (s.die (gaDie ga)).errs = [] →
      (∃ x : State, exec (.rdU p h) s = .next (x.cclRespond p h 0 (s.poisonedAt ga n) (some (s.bytesAt ga n))) ∧
        memorySame s x) ∧
      (n = data.length → h.poison = false → ∃ x : State, exec (.wrU p h data) s = .next (x.cclRespond p h 0 false none) ∧
        x.bytesAt ga n = data ∧ memoryBut s x ga n ∧ x.sync = s.sync ∧ x.tiles = s.tiles)) ∧
    (8 ≤ n → n ≤ 4096 → s.gaCause (48 + p.val) ga = none → gaRegion ga = 4 →
      exec (.rdU p h) s = .next (s.cclRespond p h 5 false (some []))) ∧
    (8 ≤ n → n ≤ 4096 → n = data.length → s.gaCause (48 + p.val) ga = none → 3 ≤ gaRegion ga →
      exec (.wrU p h data) s = .next (s.cclRespond p h 5 false none)) ∧
    (n = 128 → homed ga = true → s.rangeOk (48 + p.val) ga 128 = true → s.cclReady line 128 = (false, s) →
      ((s.die d).dir.length < 65536 ∨ ∃ e ∈ (s.die d).dir, e.line = gaLine line) →
      ∀ owned : Bool, ∃ (x : State) (bad : Bool) (bs : List Byte),
        exec (if owned then .rdM p h else .rdS p h) s = .next (x.cclRespond p h 0 bad (some bs)) ∧ bs.length = 128 ∧
        (∀ e, e ∈ (x.die d).dir ↔ e = ⟨gaLine line, owned, p⟩ ∨ (e ∈ (s.die d).dir ∧ e.line ≠ gaLine line)) ∧
        ((∃ k, (s.die d).find (gaLine line) = some k ∧ (k.st = .clean ∨ k.st = .dirty)) → s.deadRead line = false →
          bs = s.bytesAt line 128 ∧ x.mem = s.mem)) ∧
    (n = 128 → data.length = 128 → homed ga = true → s.rangeOk (48 + p.val) ga 128 = true →
      ((∃ e ∈ (s.die d).dir, e.line = gaLine line ∧ e.owned = true) → h.poison = false →
        ∃ x : State, exec (.wb p h data) s = .next (x.cclRespond p h 0 false none) ∧ x.bytesAt line 128 = data ∧
          (∀ e, e ∈ (x.die d).dir ↔ e ∈ (s.die d).dir ∧ e.line ≠ gaLine line)) ∧
      ((∀ e ∈ (s.die d).dir, e.line = gaLine line → e.owned = false) →
        exec (.wb p h data) s = .next (s.cclRespond p h 5 false none))) ∧
    (n = 128 → homed ga = true → s.rangeOk (48 + p.val) ga 128 = true →
      ∃ x : State, exec (.drop p h) s = .next (x.cclRespond p h 0 false none) ∧ memorySame s x ∧ x.tiles = s.tiles ∧
        (∀ e, e ∈ (x.die d).dir ↔ e ∈ (s.die d).dir ∧ e.line ≠ gaLine line)) ∧
    (n = 144 → data.length = 144 → field data 8 8 = 0 → field data 0 8 < 2 ^ redElems h.fmt.toNat → ga % 128 = 0 →
      h.fmt.toNat ≤ 5 → homed ga = true → s.rangeOk (48 + p.val) ga 128 = true → h.poison = false →
      (redRefusedFmt h.fmt.toNat && s.ctxDet h.ctx) = false → s.cclReady ga 128 = (false, s) →
      exec (.red p h data) s = .next ((s.redArrive false h.ctx 0 ga h.fmt.toNat (BitVec.ofNat 64 (field data 0 8))
        (BitVec.ofNat 1024 (leNat (slice data 16 128)))).cclRespond p h 0 false none))

/-- R436 to R438: the answer to a snoop of an owned line brings the line's content unless a write-back crossed it, and
ends the snoop and, when it invalidated, the grant; no answer within its time poisons what was owned; an answer to no
snoop is stale. R430: so is an answer to no request; one to a heal brings its line. Model's choices in it: log entries
5 and 65. -/
def Obligations.SnoopsAndAnswers : Prop :=
  ∀ (s : State), s.on = true →
    (∀ (p : Fin 2) (h : CclHdr) (data : List Byte), s.cclActive p = true →
      let ga := cclGa h / 128 * 128
      let d := gaDie ga
      ((s.die d).snoops.find? (fun q => decide (q.line = gaLine ga ∧ q.tag = h.tag.toNat)) = none →
        exec (.snpAck p h data) s = .next (s.cclBump 0x328 1)) ∧
      (∀ q, (s.die d).snoops.find? (fun q => decide (q.line = gaLine ga ∧ q.tag = h.tag.toNat)) = some q →
        homed ga = true →
        ∃ n, exec (.snpAck p h data) s = .next n ∧ (∀ r, r ∈ (n.die d).snoops ↔ r ∈ (s.die d).snoops ∧ r.line ≠ q.line) ∧
          (q.inv = true → ∀ e, e ∈ (n.die d).dir ↔ e ∈ (s.die d).dir ∧ e.line ≠ q.line) ∧
          (data.length = 128 → h.poison = false → q.crossed = false →
            (∃ e ∈ (s.die d).dir, e.line = q.line ∧ e.owned = true) → n.bytesAt ga 128 = data) ∧
          (q.crossed = true ∨ data = [] → memorySame s n)) ∧
      ((∀ r ∈ s.fab.creqs, r.tag = h.tag.toNat → r.gen ≠ h.tagGen.toNat) →
        exec (.rspD p h data) s = .next (s.cclBump 0x328 1) ∧ exec (.rspA p h) s = .next (s.cclBump 0x328 1)) ∧
      (∀ r, s.fab.creqs.find? (fun r => decide (r.tag = h.tag.toNat ∧ r.gen = h.tagGen.toNat)) = some r →
        (r.who = .posted → exec (.rspA p h) s =
          .next { s with fab := { s.fab with creqs := s.fab.creqs.erase r } }) ∧
        (∀ die l, r.who = .heal die l → l ∈ (s.die die).heals → h.status = 0 → h.poison = false →
          ∃ n, exec (.rspD p h data) s = .next n ∧ n.bytesAt (lineGa die l) 128 = slice data 0 128 ∧
            memoryBut s n (lineGa die l) 128 ∧ l ∉ (n.die die).heals))) ∧
    (∀ (d : CdId) (a : BitVec 40) q, s.dieOn d.val = true →
      (s.die d.val).snoops.find? (fun q => decide (q.line = gaLine (a.toNat / 128 * 128))) = some q →
      ∃ n, exec (.snoopTimeout d a) s = .next n ∧
        (∀ r, r ∈ (n.die d.val).snoops ↔ r ∈ (s.die d.val).snoops ∧ r.line ≠ q.line) ∧
        (∀ e, e ∈ (n.die d.val).dir ↔ e ∈ (s.die d.val).dir ∧ e.line ≠ q.line) ∧
        ((∃ e ∈ (s.die d.val).dir, e.line = q.line ∧ e.owned = true) → q.crossed = false →
          setHas n.poison (granule (lineGa d.val q.line)).1 = true) ∧
        ((∀ e ∈ (s.die d.val).dir, e.line = q.line → e.owned = false) → n.poison = s.poison) ∧ n.mem = s.mem)

/-- R278, R433, R441 to R448: a signal is added to its sync word; a doorbell records the tail and the head of its
mailbox's rings; a ring set-up of MBX0 configures them, and one that may not is counted; the completions that waited
for IMOD_T are announced; a window's write takes its fields, and no near cache keeps a line of it. Model's choices in
it: log entries 5, 19 and 65. -/
def Obligations.DoorbellsRingsAndWindows : Prop :=
  ∀ (s : State), s.on = true →
    (∀ (p : Fin 2) (h : CclHdr) (data : List Byte), s.cclActive p = true →
      (let ga := cclGa h
       let v := s.syncWord ga
       ga % 8 = 0 → gaRegion ga = 3 → gaDie ga ≠ 63 → s.xCause (48 + p.val) ga .store .syncInitOrSig = none → syMode v = 1 →
       syGen v = field data 7 1 → field data 0 2 ≠ 0 → syCount v + field data 0 2 ≤ 0xFFFFFFFF →
       (s.home (gaDie ga)).queue = [] →
       ∃ n, exec (.signal p h data) s = .next n ∧ n.syncWord ga = putBits v 31 0 (syCount v + field data 0 2) ∧
         (∀ g, g ≠ ga → n.syncWord g = s.syncWord g) ∧ n.mem = s.mem ∧ n.out = s.out) ∧
      (let m := field data 0 1
       m < 8 → s.ringsOn m = true → field data 2 2 < s.ringLen m → field data 4 2 < s.ringLen m → (s.mbox m).held = [] →
       ∃ n, exec (.doorbell p h data) s = .next n ∧ (n.mbox m).sqTail = field data 2 2 ∧
         (n.mbox m).cqHead = min (s.mbox m).cqTail (ringPos (s.ringLen m) (s.mbox m).cqHead (field data 4 2)) ∧
         (n.mbox m).sqHead = (s.mbox m).sqHead ∧ n.regs = s.regs ∧ memorySame s n) ∧
      (8 ≤ field data 0 1 → exec (.doorbell p h data) s = .next (s.badDoorbell p 0)) ∧
      (let sq := field data 0 8
       let cq := field data 8 8
       s.ringsOn 0 = false → 32 ≤ data.length → sq % 4096 = 0 → cq % 4096 = 0 → sq < 2 ^ 52 → cq < 2 ^ 52 →
       4 ≤ field data 16 1 → field data 16 1 ≤ 12 → field data 17 1 ≤ 1 → field data 18 2 ≤ 2047 →
       field data 20 1 ≤ 31 → field data 21 1 ≤ 127 → field data 22 10 = 0 →
       ∃ n, exec (.ringSetup p h data) s = .next n ∧ n.ringsOn 0 = true ∧ n.sqBase 0 = sq ∧ n.cqBase 0 = cq ∧
         n.ringLen 0 = 2 ^ field data 16 1 ∧ (n.mbPort 0).val = field data 17 1 ∧ n.imodN 0 = field data 20 1 ∧
         n.imodT 0 = field data 21 1 ∧ n.mbox 0 = MboxSt.reset ∧ memorySame s n ∧ n.out = s.out) ∧
      (s.ringsOn 0 = true → exec (.ringSetup p h data) s = .next (s.badDoorbell p 0))) ∧
    (∀ m : Fin 8, (s.mbox m.val).unann ≠ 0 → s.imodT m.val ≠ 0 → (s.mbox m.val).oldest + 450 * s.imodT m.val ≤ s.ftc →
      ∃ n, exec (.completionInterruptTimeout m) s = .next n ∧ n.mbox m.val = { s.mbox m.val with unann := 0 } ∧
        n.out = s.out ++ [.cclInterrupt (s.mbxPort m.val) 1 (BitVec.ofNat 10 (s.mboxCtx m.val).val)
          (BitVec.ofNat 11 (s.regField (regGa 48 (cqOff m.val)) 11 1))] ∧ memorySame s n) ∧
    (∀ (w : Fin 16) (a b : Word),
      ∃ n, exec (.importWindowWrite w a b) s = .next n ∧ memorySame s n ∧ n.out = s.out ∧
        (∀ f, f < 2 → n.regField (regGa (48 + f) (0x30100 + 16 * w.val)) 63 52 =
            (bits a 63 61 * 2 ^ 9 + s.regField (regGa (48 + f) (0x30100 + 16 * w.val)) 60 58 * 2 ^ 6 + bits a 57 52) ∧
          n.regField (regGa (48 + f) (0x30100 + 16 * w.val)) 51 12 = bits a 51 12 ∧
          n.regField (regGa (48 + f) (0x30108 + 16 * w.val)) 39 0 = bits b 39 0) ∧
        ∀ (t : TileId) k l, (k, l) ∈ (n.tile t).nc → ∀ e ∈ l, e.key.ofWindow w.val = false)

/-! ### Mailboxes: commands, sessions and information (chapters 12 to 14) -/

/-- R447, R485 to R492: a command of an earlier session is STALE and one out of its order BAD_ARG, its SEQ not
consumed; one that the checks of R492 refuse completes with the status of the first that does, a bad payload before a
wrong state; the last MBXM command given again is answered again. A completion of a ring mailbox goes into the next
slot with SEQ, generation, status, length, SQ_HEAD, module state, RESULT and the lap's parity, its payload to
RSP_ADDR; one of MBXM goes in a datagram, and is kept. Model's choices in it: log entries 5, 7, 20, 25, 55 and 65. -/
def Obligations.MailboxPath : Prop :=
  ∀ (s : State) (r : MbxRow) (c : MbxCmd),
    (∀ (i : Instr) (job : State → Option (Fin 2)) (bad : State → Bool) (act : State → MbxAns × State),
      s.fwOn = true → (s.pwr.ps = 5 → c.mb ≠ 8) → (c.mb.val < 8 → s.ringsOn c.mb.val = true) →
      (c.mb = 8 ∧ s.fw.mLast.map (·.1) = some c → s.mbxRun r c i job bad act =
        (s.mbxBump 0x158).send (.datagram c.via c.srcIp c.srcPort ((s.fw.mLast.map (·.2)).getD []))) ∧
      (¬(c.mb = 8 ∧ s.fw.mLast.map (·.1) = some c) → s.pwr.vacant = false → s.mbxBehind c.mb.val (job s) = false →
        let x := s.session c.mb.val
        (r.code ≠ 1 → c.hdr.seqGen.toNat ≠ x.gen → s.mbxRun r c i job bad act =
          ((s.mbxTake c r.code).mbxBump 0x108).complete c r.code 9 [] []) ∧
        (r.code ≠ 1 → c.hdr.seqGen.toNat = x.gen → c.hdr.seq.toNat ≠ x.seq →
          s.mbxRun r c i job bad act = (s.mbxTake c r.code).complete c r.code 4 [] []) ∧
        (∀ st, (s.mbxEarly r c).1 = some st → st ≠ 9 → s.mbxRun r c i job bad act = (s.mbxEat r c).complete c r.code st [] []) ∧
        ((s.mbxEarly r c).1 = none → mbxSigned r c = true → (c.hdr.flags.getLsbD 1 = false ∨ s.sigOk r c = false) →
          s.mbxRun r c i job bad act = ((s.mbxEat r c).mbxBump 0x150).complete c r.code 5 [] []) ∧
        ((s.mbxEarly r c).1 = none → (mbxSigned r c = true → c.hdr.flags.getLsbD 1 = true ∧ s.sigOk r c = true) →
          (bad s = true → s.mbxRun r c i job bad act = (s.mbxTaken r c).complete c r.code 4 [] []) ∧
          (bad s = false → s.mbxLegal r = false → s.mbxRun r c i job bad act =
            (s.mbxTaken r c).complete c r.code 3 [] []) ∧
          (r.code ≠ 1 → ((s.mbxTaken r c).session c.mb.val).seq = (x.seq + 1) % 65536)))) ∧
    (∀ (st : Nat) (res resp : List Byte), st < 256 → c.mb.val < 8 → s.ringsOn c.mb.val = true → (s.mbox c.mb.val).held = [] →
      s.doneRoom c.mb.val = true →
      let m := c.mb.val
      let b := s.mbox m
      let n := s.complete c r.code st res resp
      (n.mbox m).cqTail = b.cqTail + 1 ∧ memorySame s n ∧
      ∃ e : List Byte, e.length = 32 ∧ .cclWrite (s.mbxPort m)
          (BitVec.ofNat 52 (s.cqBase m + 32 * (b.cqTail % s.ringLen m))) e ∈ n.out ∧
        field e 0 2 = c.hdr.seq.toNat ∧ field e 2 1 = (s.session m).gen % 256 ∧ field e 3 1 = st ∧
        field e 4 4 = (resp.take c.rspLen.toNat).length % 2 ^ 32 ∧ field e 8 2 = b.sqHead % s.ringLen m % 65536 ∧
        field e 10 1 = s.modState % 256 ∧
        slice e 11 20 = slice (if st = 3 then leBytes 1 s.modState else res) 0 20 ∧
        field e 31 1 = (if b.cqTail / s.ringLen m % 2 = 0 then 1 else 0) ∧
        (resp.take c.rspLen.toNat ≠ [] → .cclWrite (s.mbxPort m) c.rspAddr (resp.take c.rspLen.toNat) ∈ n.out)) ∧
    (∀ (st : Nat) (res resp : List Byte), st < 256 → c.mb = 8 →
      let n := s.complete c r.code st res resp
      memorySame s n ∧ ∃ e : List Byte, n.out = s.out ++ [.datagram c.via c.srcIp c.srcPort e] ∧ n.fw.mLast = some (c, e) ∧
        field e 0 2 = r.code % 65536 ∧ field e 4 2 = c.hdr.seq.toNat ∧ field e 12 1 = st ∧ field e 13 1 = s.modState % 256 ∧
        slice e 64 20 = slice (if st = 3 then leBytes 1 s.modState else res) 0 20 ∧ e.drop 84 = resp)

/-- R470, R471, R475, R487, R496 to R498, R514, R523, Tables 14.9, 14.11: HELLO opens a session on the highest major
in the range given, with a new generation; RING_RELEASE ends it and turns the rings off behind its completion; the
commands that ask for information answer it and change nothing; MASTER_SET records master, deputy and sizes. Model's
choices in it: log entries 6, 25, 26 and 56. -/
def Obligations.SessionsAndInformation : Prop :=
  ∀ (s : State) (c : MbxCmd),
    let m := c.mb.val
    let p := c.payload
    (∀ j, payloadOk p 64 [(8, 56)] = true →
      ((j = 2 ∧ field p 0 1 ≤ 2 ∧ 2 ≤ field p 1 1) ∨ (j = 1 ∧ field p 0 1 ≤ 1 ∧ field p 1 1 = 1)) →
      mbxAnswers s (.hello c) rowHello c none 0
        (leBytes 1 j ++ leBytes 1 (if j = 1 then 7 else 1) ++ leBytes 1 (nextGen (s.session m).gen)) [] fun _ x =>
          x.session m = ⟨true, j, nextGen (s.session m).gen, (c.hdr.seq.toNat + 1) % 65536⟩ ∧
          (∀ k, k ≠ m → x.session k = s.session k) ∧ memorySame s x ∧ x.regs = s.regs ∧
          x.modState = (if (m = 0 ∨ m = 8) ∧ s.modState = 3 then 4 else s.modState)) ∧
    (p = [] → ∃ b : List Byte, b.length = 48 ∧ field b 0 8 = Config.serial.toNat ∧ field b 16 1 = 7 ∧ field b 17 1 = 1 ∧
      field b 18 1 = s.modState % 256 ∧ field b 20 2 = s.selfIndex.toNat ∧ field b 32 8 = s.capVersion % 2 ^ 64 ∧
      field b 40 8 = s.ftc % 2 ^ 64 ∧ mbxAnswers s (.getInfo c) rowGetInfo c none 0 [] b unchanged) ∧
    (p = [] → mbxAnswers s (.getState c) rowGetState c none (if (s.seenDoms c).any s.skewHeld then 0x0A else 0)
      (leBytes 1 s.modState)
      ((s.seenDoms c).flatMap fun d => leBytes 1 (s.regField (domReg d.val 0) 63 56) ++
        leBytes 1 (s.regField (domReg d.val 0) 55 54) ++ leBytes 8 (s.reg (domReg d.val 16)).toNat) unchanged) ∧
    (s.capMap.length = 9360 ∧ field s.capMap 8 8 = s.capVersion % 2 ^ 64 ∧
      ∀ t, t < 576 → field s.capMap (64 + 16 * t) 1 = bits (s.viewCap (tileOf t)) 63 56) ∧
    (capmapBad c = false → mbxAnswers s (.capmapRead c) rowCapmapRead c none 0 (leBytes 8 s.capVersion ++ leBytes 4 9360)
      ((s.capMap.drop (field p 0 4)).take (field p 4 4)) unchanged) ∧
    (p = [] → (s.mbox m).held = [] → s.doneRoom m = true → mbxGoes s rowRingRelease c none →
      ∃ x : State, exec (.ringRelease c) s = .next ((x.complete c 4 0 [] []).ringsOff m) ∧ (x.session m).live = false ∧
        ((x.complete c 4 0 [] []).ringsOff m).ringsOn m = false ∧ memorySame s x) ∧
    ((p.length = 64 ∨ p.length = 128) → (s.fw.shed.any fun x => !x.late) = false →
      (s.regField (regGa 48 0x60000) 63 63 = 1 → ∃ b : List Byte, b.length = 512 ∧ field b 8 8 = Config.serial.toNat ∧
        field b 24 8 = s.ftc % 2 ^ 64 ∧ slice b 32 64 = slice p 0 64 ∧
        mbxAnswers s (.attest c) rowAttest c none 0 [] (b ++ slice (Config.deviceSign b) 0 132) unchanged) ∧
      (s.regField (regGa 48 0x60000) 63 63 = 0 → mbxAnswers s (.attest c) rowAttest c none 0x0B [] [] unchanged)) ∧
    (p = [] → mbxAnswers s (.getCerts c) rowGetCerts c none 0 [] Config.certs unchanged) ∧
    (countersBad c = false →
      ((tenantCmd c = false ∨ ∀ ga ∈ counterGas c, s.ownRegister (s.mboxCtx m) ga = true) →
        mbxAnswers s (.countersRead c) rowCountersRead c none 0 []
          ((counterGas c).flatMap fun ga => leBytes 8 ((s.mbxTaken rowCountersRead c).regLoad ga).toNat) unchanged) ∧
      (tenantCmd c = true → (∃ ga ∈ counterGas c, s.ownRegister (s.mboxCtx m) ga = false) →
        mbxAnswers s (.countersRead c) rowCountersRead c none 5 [] [] unchanged)) ∧
    (p = [] → mbxAnswers s (.timeStatus c) rowTimeStatus c none 0
      (leBytes 8 (s.reg (regGa 48 0x8010)).toNat ++ leBytes 8 s.ftc ++
        leBytes 4 (toTwos 32 (ofTwos 16 (s.timeField 15 0))))
      (if s.timeField 63 62 = 1 then leBytes 8 s.time.reference else []) unchanged) ∧
    (s.masterBad c = false →
      let role := if s.selfIndex.toNat = field p 0 2 then 1 else if s.selfIndex.toNat = field p 2 2 then 2 else 0
      mbxAnswers s (.masterSet c) rowMasterSet c none 0 [] [] fun _ x =>
        x.timeField 63 62 = role ∧ x.timeField 39 28 = field p 0 2 ∧ x.timeField 27 16 = field p 2 2 ∧
        (∀ f, f < 4 → x.regField (regGa (48 + f) 0x2000) 59 55 = field p 4 1 ∧
          x.regField (regGa (48 + f) 0x2000) 54 50 = field p 5 1 ∧ x.regField (regGa (48 + f) 0x2000) 49 45 = field p 6 1) ∧
        x.time.ppsNext = (if role = 1 then some (field p 8 8) else none) ∧ memorySame s x ∧ x.tiles = s.tiles)

/-! ### Contexts and translations (chapters 6, 14) -/

/-- R196, R476, R477, R494, R515: with a number, a place and store room left CTX_CREATE makes a context that was not
in use, with an event key that it answers, and starts the rings of the mailbox that it binds; CTX_DESTROY of a context
without a job ends its mappings, grants, tolerance and the mailboxes bound to it. Model's choices in it: log entries
27, 35 and 36. -/
def Obligations.ContextsComeAndGo : Prop :=
  ∀ (s : State) (c : MbxCmd),
    let p := c.payload
    (let m := field p 1 1
     ctxCreateBad c = false → (∃ k, k < 64 ∧ mapGet none s.xl.ctxs k = none) →
     (s.xl.ctxs.filter fun e => decide (e.1 ≠ 0)).length < (s.fw.images.map (·.contexts)).getD 0 →
     s.storeUsed s.xl.maps + 4096 ≤ storeSize → (m ≠ 0 → (s.mbox m).ctx = none) →
     ∃ (k : Nat) (key : BitVec 256), k < 64 ∧ mapGet none s.xl.ctxs k = none ∧
       mbxAnswers s (.ctxCreate c) rowCtxCreate c none 0 (leBytes 1 k) (leBytes 32 key.toNat) fun y x =>
         mapGet none x.xl.ctxs k = some ⟨decide (field p 0 1 = 1), key⟩ ∧
         (∀ j, j ≠ k → mapGet none x.xl.ctxs j = mapGet none s.xl.ctxs j) ∧ x.xl.maps = s.xl.maps ∧ memorySame s x ∧
         (m ≠ 0 → x.ringsOn m = true ∧ x.sqBase m = field p 8 8 ∧ x.cqBase m = field p 16 8 ∧
           x.ringLen m = 2 ^ field p 2 1 ∧ (x.mbox m).ctx = some (Fin.ofNat 64 k)) ∧
         (m = 0 → x.regs = y.regs)) ∧
    (let k : CtxId := Fin.ofNat 64 (field p 0 1)
     s.destroyBad c = false →
     (s.slotOf k = none → mbxAnswers s (.ctxDestroy c) rowCtxDestroy c none 0 [] [] fun _ x =>
       mapGet none x.xl.ctxs k.val = none ∧ (∀ j, j ≠ k.val → mapGet none x.xl.ctxs j = mapGet none s.xl.ctxs j) ∧
       (∀ e ∈ x.xl.maps, e.ctx ≠ k) ∧ (∀ g ∈ x.fw.grants, g.1 ≠ k) ∧ mapGet none x.fw.tols k.val = none ∧
       ∀ m, 1 ≤ m → m < 8 → (s.mbox m).ctx = some k →
         x.ringsOn m = false ∧ x.mbox m = MboxSt.reset ∧ (x.session m).live = false) ∧
     (s.slotOf k ≠ none → mbxAnswers s (.ctxDestroy c) rowCtxDestroy c none 1 [] [] unchanged))

/-- R200, R203, R220, R278, R441, R442, R477, R495, R516, R517: MAP of device pages that need no clearing puts them in
the context's translations in place of what it mapped there, UNMAP takes away every page of the range; a command for
another context, or outside what is granted, is DENIED, and one on a range that a running job names is BUSY; MAP of a
companion signal target, an import window and a grant takes its fields, and UNMAP gives each up. REGISTER_BACKING asks
for the first piece of the companion's copy and completes later. Model's choices in it: log entries 5, 27, 28 and 36.
-/
def Obligations.MappingsChange : Prop :=
  ∀ (s : State) (c : MbxCmd) (un : Bool),
    let p := c.payload
    let a := mapArgs p
    let i : Instr := if un then .unmap c else .map c
    let r := if un then rowUnmap else rowMap
    let mine := tenantCmd c = true → a.cid = s.mboxCtx c.mb.val
    let sig := regGa 48 (0x114000 + 0x10 * (a.ctx * 16 + a.index))
    let win := regGa 48 (0x30100 + 16 * a.index)
    (s.mapBad c un = false →
      (tenantCmd c = true → a.cid ≠ s.mboxCtx c.mb.val → mbxAnswers s i r c none 5 [] [] unchanged) ∧
      (a.kind = 0 → mine →
        (s.pageDenied c a un = true → mbxAnswers s i r c none 5 [] [] unchanged) ∧
        (s.pageDenied c a un = false → s.rangeBusy a = true → mbxAnswers s i r c none 1 [] [] unchanged) ∧
        (s.pageDenied c a un = false → s.rangeBusy a = false →
          (un = true ∨ s.foreignUnits a.cid a.target a.bytes = []) → mbxAnswers s i r c none 0 [] [] fun _ x =>
            memorySame s x ∧ x.regs = s.regs ∧
            (∀ e ∈ s.xl.maps, (e.ctx ≠ a.cid ∨ meets e.va e.size a.va a.bytes = false) →
              ∃ f ∈ x.xl.maps, f = { e with nce := f.nce }) ∧
            (∀ e ∈ x.xl.maps, e.ctx = a.cid → meets e.va e.size a.va a.bytes = true →
              un = false ∧ ∃ k, k < a.count ∧ e.va = a.va + k * a.page) ∧
            (un = false → ∀ k, k < a.count → ∃ e ∈ x.xl.maps, e.ctx = a.cid ∧ e.va = a.va + k * a.page ∧ e.big = a.big ∧
              e.ga = a.target + k * a.page ∧ e.r = decide (a.attr % 2 = 1) ∧ e.w = decide (a.attr / 2 % 2 = 1) ∧
              e.x = decide (a.attr / 4 % 2 = 1) ∧ e.sro = decide (a.attr / 8 % 2 = 1)))) ∧
      (a.kind = 1 → mine → mbxAnswers s i r c none 0 [] [] fun y x => memorySame s x ∧
        (∀ b, b ≠ sig → b ≠ sig + 8 → x.reg b = y.reg b) ∧
        (un = true → x.regField sig 63 63 = 0) ∧
        (un = false → x.regField sig 63 63 = 1 ∧ x.regField sig 51 3 = a.target / 8 ∧ x.regField (sig + 8) 63 56 = a.gen ∧
          x.regField (sig + 8) 10 0 = a.vector)) ∧
      (a.kind = 2 → mine → (s.regField win 63 63 = 0 ∨ s.regField win 57 52 = a.ctx) →
        mbxAnswers s i r c none 0 [] [] fun _ x => memorySame s x ∧
          (∀ (t : TileId) k l, (k, l) ∈ (x.tile t).nc → ∀ e ∈ l, e.key.ofWindow a.index = false) ∧
          (un = true → x.regField win 63 63 = 0) ∧
          (un = false → x.regField win 63 63 = 1 ∧ x.regField win 57 52 = a.ctx ∧ x.regField win 51 12 = a.target / 4096 % 2 ^ 40 ∧
            x.regField (win + 8) 39 0 = a.size)) ∧
      (a.kind = 3 → (tenantCmd c = true → mine → mbxAnswers s i r c none 5 [] [] unchanged) ∧
        (tenantCmd c = false → un = false → (a.ctx = 0 ∨ inStore a.target (a.count * 65536) = false) →
          mbxAnswers s i r c none 0 [] [] fun _ x => (a.cid, a.target, a.count * 65536) ∈ x.fw.grants ∧
            (∀ g ∈ s.fw.grants, g ∈ x.fw.grants) ∧ memorySame s x) ∧
        (tenantCmd c = false → un = true →
          (∀ e ∈ s.xl.maps, e.ctx = a.cid → meets e.ga e.size a.target (a.count * 65536) = false) →
          mbxAnswers s i r c none 0 [] [] fun _ x => memorySame s x ∧
            ∀ g ∈ x.fw.grants, g.1 = a.cid → meets g.2.1 g.2.2 a.target (a.count * 65536) = false))) ∧
    (un = false → s.backingBad c = false → field p 0 1 = 0 →
      let ctx : CtxId := Fin.ofNat 64 (field p 1 1)
      let port : Fin 2 := if s.cclActive 0 then 0 else 1
      ((s.cclActive 0 = true ∨ s.cclActive 1 = true) →
        mbxLater s (.registerBacking c) rowRegisterBacking c none (.backing ctx (field p 8 8)) fun _ n =>
          memorySame s n ∧ ∃ tag, n.out = s.out ++ [.cclRead port (BitVec.ofNat 52 (field p 16 8)) 4096 tag]) ∧
      (s.cclActive 0 = false → s.cclActive 1 = false →
        mbxAnswers s (.registerBacking c) rowRegisterBacking c none 4 [] [] unchanged)) ∧
    (un = false → s.backingBad c = false → field p 0 1 = 1 →
      mbxLater s (.registerBacking c) rowRegisterBacking c none
        (.backing (Fin.ofNat 64 (field p 1 1)) (field p 8 8)) fun _ n => memorySame s n)

/-! ### Jobs (chapters 9, 14, 16) -/

/-- R318, R477, R518 to R520, Table 14.29: JOB_LOAD of a directory in order, whose parts can be read and match their
digests, with a slot free and no copies to make, completes with OK: the slot holds the job, its key, seed, context,
plan and first words, and FAB_DOM_CFG its id and STEP_LEN; a directory out of order, or made against another map, is
BAD_ARG, and without a free slot the module is BUSY. Model's choices in it: log entries 25, 42, 43 and 44. -/
def Obligations.JobsLoad : Prop :=
  ∀ (s : State) (c : MbxCmd),
    let p := c.payload
    let ga := field p 8 8
    let len := field p 4 4
    let job := s.slotById (field p 1 1)
    let y := s.mbxTaken rowJobLoad c
    s.loadBad c = false → s.fw.plans = [] → s.pwr.ps ≠ 4 → s.fw.weak = [] →
      (tenantCmd c = true → field p 0 1 = (s.mboxCtx c.mb.val).val) →
      ((len < 192 ∨ 2 ^ 20 < len ∨ s.rangeOk 48 ga len = false) →
        mbxAnswers s (.jobLoad c) rowJobLoad c job 4 [] [] unchanged) ∧
      (∀ (dir : List Byte) (z1 z2 : State), 192 ≤ len → len ≤ 2 ^ 20 → s.rangeOk 48 ga len = true →
        y.readyLines (readyList ga len false) = (false, z1) → z1.foreignRead .controller 0 ga len 0 = (dir, false, z2) →
        (z2.headerOk dir len = false → mbxAnswers s (.jobLoad c) rowJobLoad c job 4 [] [] fun _ x => x = z2) ∧
        (field dir 16 8 ≠ z2.capVersion → z2.headerOk dir len = false) ∧
        (z2.headerOk dir len = true →
          let es := (recsOf 128 (dir.drop 64)).map jobEnt
          ((∃ e ∈ es, e.ok = false) → mbxAnswers s (.jobLoad c) rowJobLoad c job 4 [] [] fun _ x => x = z2) ∧
          (∀ (z3 z4 : State) (got : Option (List JobPart)), (∀ e ∈ es, e.ok = true ∧ e.kind ≠ 0x10 ∧ z2.partThere e = true) →
            z2.readyLines (es.flatMap fun e => readyList e.ga e.len false) = (false, z3) → z3.readParts es = (got, z4) →
            (got = none → mbxAnswers s (.jobLoad c) rowJobLoad c job 4 [] [] fun _ x => x = z4) ∧
            (∀ parts, got = some parts →
              let x := planFrom z4 p dir es parts
              x.reload = false → z4.slotById x.domId = none → (∀ d, (z4.dom d).loaded = true → (z4.dom d).key ≠ x.key) →
              ((∀ d, (z4.dom d).loaded = true) → mbxAnswers s (.jobLoad c) rowJobLoad c job 1 [] [] fun _ n => n = z4) ∧
              (∀ d, z4.loadSlot x = some d → z4.planOk d x = false →
                mbxAnswers s (.jobLoad c) rowJobLoad c job 4 [] [] fun _ n => n = z4) ∧
              (∀ d z5, z4.loadSlot x = some d → z4.planOk d x = true → z4.readyLines x.lines = (false, z5) →
                mbxAnswers s (.jobLoad c) rowJobLoad c job 0 [] [] fun _ n =>
                  (n.dom d).loaded = true ∧ (n.dom d).started = false ∧ (n.dom d).ctx = Fin.ofNat 64 (field p 0 1) ∧
                  (n.dom d).key = BitVec.ofNat 16 (field p 2 2) ∧ (n.dom d).seed = BitVec.ofNat 128 (field p 16 16) ∧
                  (n.dom d).plan = x.basis ∧ (n.dom d).firsts = x.firsts ∧ (n.dom d).units = x.units ∧
                  n.regField (domReg d.val 0) 63 56 = field p 1 1 ∧ n.stepLen d.val = 65536 * field x.params 0 4 ∧
                  (mapGet JobInfo.reset n.fw.jobs d.val).digest = Config.sha512 dir)))))

/-- R312, R314, R319, R336, R413, R521, R583, R585, Tables 9.6, 14.9: JOB_START of a loaded domain, with time locked
and the other domain held or not started, begins every stream at its first word with STEP0 and START_FTC; JOB_HOLD
asks for its hold and completes when it has begun, at once in a hold; JOB_RESUME lets the hold end, and answers
STEP_SKEW in a hold on skew; JOB_DRAIN marks the end of the step; in an open-ended hold it ends the domain without
committing the step under way, and a slot not started is freed at once. R585 is that of the last clause, in a hold
without an end; the other clauses rest also on log entries 5, 45, 46 and 58. -/
def Obligations.JobsRunAndEnd : Prop :=
  ∀ (s : State) (c : MbxCmd) (d : Fin 2),
    let p := c.payload
    let o : Fin 2 := if d = 0 then 1 else 0
    let job := some d
    s.namedDom c = some d →
    (s.startBad c = false → (s.dom d).started = false →
      (s.foreignDom c d = true → mbxAnswers s (.jobStart c) rowJobStart c job 5 [] [] unchanged) ∧
      (s.foreignDom c d = false → (s.timeField 53 52 ≠ 2 ∨ ((s.dom o).started = true ∧ (s.dom o).hold.active = false)) →
        mbxAnswers s (.jobStart c) rowJobStart c job 1 [] [] unchanged) ∧
      (s.foreignDom c d = false → s.timeField 53 52 = 2 → ((s.dom o).started = true → (s.dom o).hold.active = true) →
        mapWf none (s.dom d).firsts = true → (∀ e ∈ (s.dom d).firsts, e.1 < 576) →
        mbxAnswers s (.jobStart c) rowJobStart c job 0 [] [] fun _ x =>
          (x.dom d).started = true ∧ (x.dom d).start = field p 8 8 ∧ (x.dom d).step0 = BitVec.ofNat 32 (field p 16 4) ∧
          (x.dom d).stepNo = 0 ∧ x.shift d.val = 0 ∧ (s.modState = 4 → x.modState = 5) ∧ memorySame s x ∧
          x.dom o = s.dom o ∧
          (∀ (t : TileId) w, mapGet none (s.dom d).firsts t.val = some w →
            (x.tile t).seq.running = true ∧ (x.tile t).seq.pc = w.setWidth 48 ∧ (x.tile t).seq.dom = d ∧
            (x.tile t).seq.ctx = (s.dom d).ctx ∧ (x.tile t).seq.step = BitVec.ofNat 32 (field p 16 4) ∧
            (x.tile t).seq.stepBase = field p 8 8 / 65536) ∧
          ∀ t : TileId, mapGet none (s.dom d).firsts t.val = none → x.tile t = s.tile t)) ∧
    ((s.dom d).started = true → domBad c 2 = false → field p 1 1 ≤ 1 →
      (s.foreignDom c d = true → mbxAnswers s (.jobHold c) rowJobHold c job 5 [] [] unchanged) ∧
      (s.foreignDom c d = false → (s.dom d).hold.active = false →
        mbxLater s (.jobHold c) rowJobHold c job (.held d) fun _ n => memorySame s n ∧ n.tiles = s.tiles ∧
          (s.isMaster = true → ∃ r ∈ (n.dom d).hold.reqs, r.bit = 1 ∧ r.frames = 0) ∧
          (s.isMaster = false → n.out = s.out ++ [.holdRequest (BitVec.ofNat 8 (s.regField (domReg d.val 0) 63 56)) .jobHold 0
            (decide (field p 1 1 = 1))])) ∧
      (s.foreignDom c d = false → (s.dom d).hold.active = true → (∃ r ∈ (s.dom d).hold.reqs, r.bit = 1) →
        mbxAnswers s (.jobHold c) rowJobHold c job 0 (leBytes 8 (s.dom d).hold.b) [] unchanged)) ∧
    ((s.dom d).started = true → domBad c 1 = false → s.foreignDom c d = false →
      (s.skewHeld d = true → mbxAnswers s (.jobResume c) rowJobResume c job 0x0A [] [] unchanged) ∧
      (s.skewHeld d = false → (∀ r ∈ (s.dom d).hold.reqs, r.bit ≠ 6) →
        mbxAnswers s (.jobResume c) rowJobResume c job 0 [] [] fun _ x => memorySame s x ∧ x.tiles = s.tiles ∧
          (x.dom d).hold.active = (s.dom d).hold.active ∧
          (∀ r ∈ (x.dom d).hold.reqs, r.bit = 1 → r.ends = some (frameUp (s.ftc + s.holdLead d.val))) ∧
          ∀ r ∈ (s.dom d).hold.reqs, r.bit ≠ 1 → r ∈ (x.dom d).hold.reqs)) ∧
    (domBad c 1 = false → s.foreignDom c d = false →
      ((s.dom d).started = true → (s.dom d).hold.active = false →
        mbxLater s (.jobDrain c) rowJobDrain c job (.ended d) fun _ n => n.modState = 7 ∧ memorySame s n ∧
          (n.dom d).draining = some (s.stepBoundary d (s.ftc + 1) - s.shift d.val) ∧ n.dom o = s.dom o) ∧
      (((s.dom d).started = false ∨ ((s.dom d).hold.active = true ∧
          ∃ r ∈ (s.dom d).hold.reqs, r.frames = 0 ∧ s.reqB d.val r ≤ s.ftc)) →
        mbxAnswers s (.jobDrain c) rowJobDrain c job 0 [] [] fun _ x => x.dom d = DomSt.reset ∧ x.dom o = s.dom o ∧
          x.mem = s.mem ∧ x.sync = s.sync ∧ x.ue = s.ue ∧
          ((∀ e ∈ (s.dom d).pins, e.2 < 8) → ∀ f l k, f < 4 → l < 128 → k < 16 → x.reg (ldReg f l k) = s.reg (ldReg f l k))))

/-- R419, R423, R522, R541, R545, R553 to R555, Table 14.9: REPLICA_SET gives UE_DIG_CFG and UE_DIG_GA on every fabric
die its values, at the end of the hold once the domain has started; DIGEST_POLICY sets N, at the next step boundary
while a domain runs; SET_LAT_TOL records a tolerance, of the module on MBX0 only; SET_POWER_CAP sets a cap up to
PCAP_MAX. R555 is that of the last clauses; the others rest also on log entries 25, 40 and 47. -/
def Obligations.ReplicasTolerancesAndCap : Prop :=
  ∀ (s : State) (c : MbxCmd),
    let p := c.payload
    (∀ d, s.replicaDom c = some d → replicaBad c = false →
      ((s.dom d).started = true → mbxAnswers s (.replicaSet c) rowReplicaSet c (some d) 0 [] [] fun y x =>
        (x.dom d).replica = some p ∧ x.regs = y.regs ∧ memorySame s x) ∧
      ((s.dom d).started = false → (∀ e ∈ (mapGet JobInfo.reset s.fw.jobs d.val).layers, e.1 < 4 ∧ e.2 < 128) →
        mbxAnswers s (.replicaSet c) rowReplicaSet c (some d) 0 [] [] fun _ x => x.fw.nrepl = field p 0 2 ∧ memorySame s x ∧
          ∀ f, f < 4 → x.regField (ueReg f 0x10) 52 41 = field p 4 2 ∧ x.regField (ueReg f 0x10) 40 33 = field p 6 1 ∧
            x.regField (ueReg f 0x10) 32 21 = field p 2 2 ∧ x.regField (ueReg f 0x18) 63 48 = field p 16 2 ∧
            x.regField (ueReg f 0x18) 39 0 = field p 8 8)) ∧
    (s.replicaDom c = none → replicaBad c = false →
      mbxAnswers s (.replicaSet c) rowReplicaSet c none 4 [] [] unchanged) ∧
    (payloadOk p 64 [(2, 62)] = true → field p 0 2 ≤ 1024 →
      (((s.dom 0).started = true ∨ (s.dom 1).started = true) →
        mbxAnswers s (.digestPolicy c) rowDigestPolicy c none 0 [] [] fun y x =>
          x = { y with fw := { y.fw with policy := some (field p 0 2) } }) ∧
      ((s.dom 0).started = false → (s.dom 1).started = false →
        mbxAnswers s (.digestPolicy c) rowDigestPolicy c none 0 [] [] fun _ x => memorySame s x ∧ x.fw.policy = s.fw.policy ∧
          ∀ f, f < 4 → x.regField (ueReg f 0x10) 63 53 = field p 0 2)) ∧
    (tolBad c = false →
      (field p 0 1 = 0 → c.mb ≠ 0 → mbxAnswers s (.setLatTol c) rowSetLatTol c none 5 [] [] unchanged) ∧
      (field p 0 1 = 0 → c.mb = 0 → ∃ k, mbxAnswers s (.setLatTol c) rowSetLatTol c none 0 (leBytes 1 k) [] fun _ x =>
        k = x.deepest (List.range 48) ∧ (∀ f, f < 2 → x.regField (regGa (48 + f) 0x130020) 63 32 = field p 4 4 ∧
          x.regField (regGa (48 + f) 0x130020) 31 31 = field p 1 1) ∧ memorySame s x) ∧
      (field p 0 1 = 1 → ∃ k, mbxAnswers s (.setLatTol c) rowSetLatTol c none 0 (leBytes 1 k) [] fun y x =>
        k = x.deepest (x.diesOf (Fin.ofNat 64 c.hdr.ctx.toNat)) ∧
        mapGet none x.fw.tols (Fin.ofNat 64 c.hdr.ctx.toNat : CtxId).val =
          some (field p 4 4, decide (field p 1 1 = 1)) ∧ x.regs = y.regs ∧ memorySame s x)) ∧
    (payloadOk p 8 [(4, 4)] = true → field p 0 4 < 8000 →
      mbxAnswers s (.setPowerCap c) rowSetPowerCap c none 4 [] [] unchanged) ∧
    (payloadOk p 8 [(4, 4)] = true → 8000 ≤ field p 0 4 →
      ((s.fw.images.map (·.pcapMax)).getD 0 < field p 0 4 →
        mbxAnswers s (.setPowerCap c) rowSetPowerCap c none 5 [] [] unchanged) ∧
      (field p 0 4 ≤ (s.fw.images.map (·.pcapMax)).getD 0 →
        mbxAnswers s (.setPowerCap c) rowSetPowerCap c none 0 (leBytes 4 (field p 0 4)) [] fun _ x =>
          x.capNow = field p 0 4 % 65536 ∧ memorySame s x ∧
          (s.pwr.e1 = false → x.pwr.e1 = decide (95 * field p 0 4 ≤ 100 * s.regField (regGa 48 0x130000) 31 16))))

/-! ### Fences, tests and firmware (chapters 13, 14, 16) -/

/-- R94, R495, R576 to R579, R582: FENCE of a unit that is fenced completes with OK and no effect; of a unit of no
started job it fences it at once, and the map's version, which it answers, advances; an array with an open run waits
for it; of a unit of a started job it asks for a hold and completes later. UNFENCE_REQUEST of a unit that is not
fenced has no effect; one that passes lifts the fence; one that fails, or whose package is missing or whose die has
tripped, leaves it. Model's choices in it: log entries 48 and 50. -/
def Obligations.FencesEnterAndLift : Prop :=
  ∀ (s : State) (c : MbxCmd),
    let f := fenceUnit c.payload
    let t := tileOf (f.a * 12 + f.b)
    fenceBad c = false →
    (s.fenceThere f = true →
      mbxAnswers s (.fence c) rowFence c none 0 (leBytes 8 s.capVersion) [] unchanged) ∧
    (s.fenceThere f = false → (∀ d, s.domUnit d f = false) →
      ((f.grain ≤ 1 → (s.tile t).mxa.run = none) → f.grain ≠ 4 →
        ∃ v, mbxAnswers s (.fence c) rowFence c none 0 (leBytes 8 v) [] fun _ x => v = x.capVersion ∧ x.mem = s.mem ∧
          x.isFenced f.grain f.a f.b f.c = true ∧
          (f.grain ≤ 3 → x.hasFence f.grain f.a f.b f.c = true ∧ v = s.capVersion + 1)) ∧
      (f.grain ≤ 1 → (s.tile t).mxa.run ≠ none →
        mbxAnswers s (.fence c) rowFence c none 0 (leBytes 8 s.capVersion) [] fun _ x => x.fences = s.fences ∧ memorySame s x ∧
          (x.tile t).mxa.pending = (s.tile t).mxa.pending ++
            [if f.grain = 0 then .column (Fin.ofNat 128 f.c) 0 else .whole 0])) ∧
    (∀ d, s.fenceThere f = false → s.domUnit d f = true → (d = 1 → s.domUnit 0 f = false) → (s.dom d).hold.active = false →
      mbxLater s (.fence c) rowFence c none (.fenced d) fun _ n => n.fences = s.fences ∧ memorySame s n ∧
        (n.dom d).fences = (s.dom d).fences ++ [(f.grain, f.a, f.b, f.c)] ∧
        (s.isMaster = true → ∃ r ∈ (n.dom d).hold.reqs, r.bit = 4)) ∧
    (∀ pass, f.grain ≤ 3 →
      (s.hasFence f.grain f.a f.b f.c = false →
        mbxAnswers s (.unfenceRequest c pass) rowUnfence c none 0 [] [] unchanged) ∧
      (∀ e, s.fences.find? (fun e => decide (e.grain = f.grain ∧ e.a = f.a ∧ e.b = f.b ∧ e.c = f.c)) = some e →
        (((e.grain = 3 ∧ (s.die e.a).tripped = true) ∨ (e.pkg ≠ 0 ∧ s.pkgLoaded e.pkg = false)) →
          mbxAnswers s (.unfenceRequest c pass) rowUnfence c none 0x0B [] [] unchanged) ∧
        ((e.grain = 3 → (s.die e.a).tripped = false) → (e.pkg ≠ 0 → s.pkgLoaded e.pkg = true) →
          mbxAnswers s (.unfenceRequest c pass) rowUnfence c none (if pass then 0 else 0x0B) [] [] fun _ x =>
            (s.modState = 4 → x.modState = 4) ∧ x.hasFence f.grain f.a f.b f.c = !pass ∧
            x.capVersion = s.capVersion + (if pass then 1 else 0) ∧
            ∀ g, (g.grain ≠ f.grain ∨ g.a ≠ f.a ∨ g.b ≠ f.b ∨ g.c ≠ f.c) → (g ∈ x.fences ↔ g ∈ s.fences))))

/-- R587 to R590, Tables 16.11, 16.13: a package slot is reserved, filled, accepted when its form and signature hold,
and freed by the operations of TEST_PACKAGE_LOAD; TEST_RUN answers how many tiles it tested and how many failed,
fences a failing tile when it is to, returns the module to READY, and is BUSY on a tile of a running job. Model's
choices in it: log entries 25, 33 and 51. -/
def Obligations.PackagesAndTests : Prop :=
  ∀ (s : State) (c : MbxCmd),
    let p := c.payload
    let k := field p 1 1
    let n := field p 8 4
    (pkgBad c 0 64 = false → n ≤ 2 ^ 26 →
      (n ≤ (s.setPkg k none).pkgRoom → mbxAnswers s (.testPackageBegin c) rowTestPackage c none 0 [] [] fun _ x =>
        x.testPkg k = some ⟨n, [], false⟩ ∧ (∀ j, j ≠ k → x.testPkg j = s.testPkg j) ∧ memorySame s x) ∧
      ((s.setPkg k none).pkgRoom < n → mbxAnswers s (.testPackageBegin c) rowTestPackage c none 1 [] [] unchanged)) ∧
    (s.pkgDataBad c = false → field p 16 8 = 0 → ∀ y, s.testPkg k = some y →
      mbxAnswers s (.testPackageData c) rowTestPackage c none 0 [] [] fun _ x => memorySame s x ∧
        (∀ j, j ≠ k → x.testPkg j = s.testPkg j) ∧
        ∃ z, x.testPkg k = some z ∧ z.total = y.total ∧ z.accepted = false ∧
          (∀ j, j < n → mapGet 0 z.data (field p 4 4 + j) = p.getD (64 + j) 0) ∧
          ∀ a, (a < field p 4 4 ∨ field p 4 4 + n ≤ a) → mapGet 0 z.data a = mapGet 0 y.data a) ∧
    (pkgBad c 2 64 = false → ∀ y, s.testPkg k = some y →
      (y.formOk = true → s.pkgSigned y = true → mbxAnswers s (.testPackageCommit c) rowTestPackage c none 0 [] [] fun _ x =>
        x.testPkg k = some { y with accepted := true } ∧ (∀ j, j ≠ k → x.testPkg j = s.testPkg j) ∧ memorySame s x) ∧
      ((y.formOk = false ∨ s.pkgSigned y = false) →
        mbxAnswers s (.testPackageCommit c) rowTestPackage c none 5 [] [] unchanged)) ∧
    (pkgBad c 3 64 = false → mbxAnswers s (.testPackageDelete c) rowTestPackage c none 0 [] [] fun _ x =>
      x.testPkg k = none ∧ (∀ j, j ≠ k → x.testPkg j = s.testPkg j) ∧ memorySame s x) ∧
    (∀ (failed : List (Nat × Option Nat)) (ms : BitVec 32), s.testBad c = false →
      let tiles := (testTiles p).filter fun t => !(s.tileOut (tileOf t))
      ((s.modState = 5 ∨ s.modState = 6) → (∃ t ∈ tiles, ∃ d, (s.dom d).loaded = true ∧ s.domTile d t = true) →
        mbxAnswers s (.testRun c failed ms) rowTestRun c none 1 [] [] unchanged) ∧
      (s.modState = 4 → testFlag p 1 = false →
        ∃ fenced, mbxAnswers s (.testRun c failed ms) rowTestRun c none 0 (leBytes 2 tiles.length ++
            leBytes 2 (failed.filter fun e => tiles.contains e.1).length ++ leBytes 2 fenced ++ leBytes 2 0 ++
            leBytes 4 ms.toNat) [] fun _ x =>
          x.modState = 4 ∧ fenced = x.fences.length - s.fences.length ∧ (∀ g ∈ s.fences, g ∈ x.fences) ∧
          ((failed = [] ∨ testFlag p 0 = false) → x.fences = s.fences) ∧
          (testFlag p 0 = true → ∀ t, (t, none) ∈ failed → t ∈ tiles → x.hasFence 2 t 0 0 = true)))

/-- R456, R506 to R510, Tables 14.13, 14.14: a stage session erases the bank that is not active, writes its bytes to
both devices, and with COMMIT of images that pass every check makes it active on trial, or with ABORT erases it;
another mailbox finds it BUSY. FW_SHED prepares the active bank's images; the switch runs them, passes the system
controller's role on and completes it, at emergency level E2 or above it is put off, and AUTO makes it due again.
Model's choices in it: log entries 9, 25, 29 and 52. -/
def Obligations.FirmwareStagesAndSheds : Prop :=
  ∀ (s : State),
    (∀ (c : MbxCmd),
      let p := c.payload
      let bank := s.spareBank
      let own (x : Stage) : Prop := s.fw.stage = some x ∧ x.mb = c.mb
      (stageBad c 0 64 = false →
        ((∀ x, s.fw.stage = some x → x.mb = c.mb) → (s.flashDev 0).selector.trial = false →
          mbxAnswers s (.fwStageBegin c) rowFwStage c none 0 [] [] fun _ x => x.fw.stage = some ⟨c.mb, bank⟩ ∧
            (∀ dev off, dev < 2 → off < bankSize → x.bankByte dev bank off = 0xFF) ∧
            (∀ dev b off, b ≠ bank → off < bankSize → x.bankByte dev b off = s.bankByte dev b off) ∧ memorySame s x) ∧
        (((∃ x, s.fw.stage = some x ∧ x.mb ≠ c.mb) ∨ (s.flashDev 0).selector.trial = true) →
          mbxAnswers s (.fwStageBegin c) rowFwStage c none 1 [] [] unchanged)) ∧
      (∀ x, s.stageDataBad c = false → field p 1 1 = 0 →
        (own x → mbxAnswers s (.fwStageData c) rowFwStage c none 0 [] [] fun _ z => z.fw.stage = some x ∧ memorySame s z ∧
          (∀ dev j, dev < 2 → j < field p 8 4 → z.bankByte dev x.bank (field p 4 4 + j) = p.getD (64 + j) 0) ∧
          ∀ dev off, (off < field p 4 4 ∨ field p 4 4 + field p 8 4 ≤ off) →
            z.bankByte dev x.bank off = s.bankByte dev x.bank off) ∧
        (s.fw.stage = some x → x.mb ≠ c.mb → mbxAnswers s (.fwStageData c) rowFwStage c none 1 [] [] unchanged)) ∧
      (∀ x least, stageBad c 2 64 = false → own x → (s.flashDev 0).minVersion = some least →
        (∀ code, s.checkBank 0 x.bank least = .error code →
          mbxAnswers s (.fwStageCommit c) rowFwStage c none 0x0B (leBytes 1 code) [] unchanged) ∧
        (∀ im, s.checkBank 0 x.bank least = .ok im → (∀ dev, dev < 2 → (s.flashDev dev).sel.length = 2) →
          mbxAnswers s (.fwStageCommit c) rowFwStage c none 0 (leBytes 4 im.secVer) [] fun _ z => z.fw.stage = none ∧
            (∀ dev, dev < 2 → (z.flashDev dev).selector.active = x.bank ∧ (z.flashDev dev).selector.trial = true ∧
              (z.flashDev dev).selector.tries = 0) ∧ memorySame s z)) ∧
      (∀ x, stageBad c 3 64 = false → own x → mbxAnswers s (.fwStageAbort c) rowFwStage c none 0 [] [] fun _ z =>
        z.fw.stage = none ∧ memorySame s z ∧ ∀ dev off, dev < 2 → off < bankSize → z.bankByte dev x.bank off = 0xFF) ∧
      (s.shedBad c = false →
        ((s.fw.shed.any fun x => !x.late) = true → mbxAnswers s (.fwShed c) rowFwShed c none 1 [] [] unchanged) ∧
        (∀ least, (s.fw.shed.any fun x => !x.late) = false → (s.flashDev 0).minVersion = some least →
          (∀ code, s.checkBank 0 (s.flashDev 0).selector.active least = .error code →
            mbxAnswers s (.fwShed c) rowFwShed c none 0x0B (leBytes 1 code) [] fun y z =>
              z = { y with fw := { y.fw with shed := none } }) ∧
          (∀ im, s.checkBank 0 (s.flashDev 0).selector.active least = .ok im →
            mbxLater s (.fwShed c) rowFwShed c none .shed fun _ z =>
              z.fw.shed = some ⟨im, decide (field p 0 1 = 1), false, some c, none⟩ ∧ memorySame s z)))) ∧
    (∀ x, s.fw.shed = some x → s.fwActs = true →
      (x.late = false → (s.inE2 = true ∨ s.inE3 = true) → ∃ n, exec .shedSwitch s = .next n ∧
        n.fw.shed = some { x with late := true, cmd := none, since := none } ∧ n.fw.images = s.fw.images ∧
        (x.cmd ≠ none → ∀ e ∈ n.fw.later, e.2 ≠ .shed) ∧ memorySame s n) ∧
      (x.late = false → s.inE2 = false → s.inE3 = false → (∀ e ∈ s.fw.later, e.2 = .shed) →
        ∃ n, exec .shedSwitch s = .next n ∧ n.fw.shed = none ∧ n.fw.images = some x.images ∧ n.doms = s.doms ∧
          n.regField (regGa 48 0x50000) 59 59 = 1 - s.regField (regGa 48 0x50000) 59 59 ∧
          (∀ f, f < 2 → n.regField (regGa (48 + f) 0x70008) 63 32 = x.images.secVer % 2 ^ 32) ∧
          (x.cmd ≠ none → n.fw.later = []) ∧ n.mem = s.mem) ∧
      (x.late = true → exec .shedSwitch s = .next s) ∧
      (x.late = true → x.auto = true → s.inE2 = false → s.inE3 = false → (∃ f, x.since = some f ∧ f + secondFt ≤ s.ftc) →
        exec .shedAutoStart s = .next { s with fw := { s.fw with shed := some { x with late := false } } }))

/-! ### Registers and controllers (chapters 0, 6, 14) -/

/-- R7, R8: a bit of a register that belongs to no field reads as zero, and a write of 1 to it is ignored; a reserved
encoding written to an RW field leaves that field with its previous value, while the other fields of the same write
take effect. -/
def Obligations.ReservedBitsAndEncodings : Prop :=
  ∀ (s : State) (ga : Nat) (r : RegSpec) (old v : Word), regSpecAt ga = some r →
    (∀ k, k < 64 → (∀ f ∈ r.fields, k < f.lo ∨ f.hi < k) →
      (s.regLoad ga).getLsbD k = false ∧ (fieldsWrite r.fields old v).getLsbD k = old.getLsbD k) ∧
    (∀ f ∈ r.fields, f.acc = .rw → reservedIn f.bad (bits v f.hi f.lo) = true →
      bits (fieldsWrite r.fields old v) f.hi f.lo = bits old f.hi f.lo) ∧
    (∀ f ∈ r.fields, f.acc = .rw → reservedIn f.bad (bits v f.hi f.lo) = false →
      bits (fieldsWrite r.fields old v) f.hi f.lo = bits v f.hi f.lo) ∧
    (∀ f ∈ r.fields, f.acc = .w1c → bits (fieldsWrite r.fields old v) f.hi f.lo =
      bits old f.hi f.lo &&& (2 ^ (f.hi + 1 - f.lo) - 1 - bits v f.hi f.lo))

/-- R5 to R8, R190: a write of a register by firmware, or by a tile's engine that may write it, gives RW fields the
value, but for a reserved encoding, clears the W1C bits written as 1 and leaves the other fields; an engine that does
not reach a register, or may not write it, changes nothing. A read returns every field but WO ones, which read 0, and
RC fields return to their reset value. Model's choices in it: log entries 5, 9, 12, 62 and 73. -/
def Obligations.RegistersReadAndWrite : Prop :=
  ∀ (s : State) (ga : BitVec 40) (v : Word), s.on = true →
    let a := ga.toNat / 8 * 8
    let o := a % 2 ^ 30
    (∀ r who, regSpecAt a = some r → gaRegion a = 4 → gaDie a < 48 →
      ((0x130000 ≤ o ∧ o < 0x160000) ∨
        (o < 0xC0000 ∧ o % 0x10000 ≠ 0x1008 ∧ o % 0x10000 ≠ 0x3008 ∧ o % 0x10000 ≠ 0x5000)) →
      s.pwr.ps < 4 → s.writeHeld a = false →
      ((who = .firmware ∧ (s.die (gaDie a)).tripped = false) ∨
        ∃ t c, who = .tile t c ∧ s.regOpen t c ga.toNat .store = true ∧ mayWrite (some c.val) a = true) →
      ∃ n, exec (.registerWrite who ga v) s = .next n ∧ memorySame s n ∧ n.tiles = s.tiles ∧ n.out = s.out ∧
        (∀ b, b ≠ a → n.reg b = s.reg b) ∧
        ∀ f ∈ r.fields, n.regField a f.hi f.lo =
          match f.acc with
          | .rw => if reservedIn f.bad (bits v f.hi f.lo) then s.regField a f.hi f.lo else bits v f.hi f.lo
          | .w1c => s.regField a f.hi f.lo &&& (2 ^ (f.hi + 1 - f.lo) - 1 - bits v f.hi f.lo)
          | _ => s.regField a f.hi f.lo) ∧
    (∀ t c, (s.regOpen t c ga.toNat .store = false ∨ (mayWrite (some c.val) a = false ∧ gaDie a ≠ 63)) →
      exec (.registerWrite (.tile t c) ga v) s = .next s) ∧
    (∀ r who, regSpecAt a = some r → gaRegion a = 4 →
      (who = .firmware ∨ ∃ t c, who = .tile t c ∧ s.regOpen t c ga.toNat .load = true) →
      ∃ n, exec (.readClearRegister who ga) s = .next n ∧ memorySame s n ∧ n.tiles = s.tiles ∧
        (∀ b, b ≠ a → n.reg b = s.reg b) ∧ n.out = s.out ++ [.regValue (BitVec.ofNat 40 a) (s.regLoad a)] ∧
        ∀ f ∈ r.fields, bits (s.regLoad a) f.hi f.lo = (if f.acc = .wo then 0 else bits (s.regView a) f.hi f.lo) ∧
          n.regField a f.hi f.lo = (if f.acc = .rc then f.reset % 2 ^ (f.hi + 1 - f.lo) else s.regField a f.hi f.lo)) ∧
    (∀ t c, s.regOpen t c ga.toNat .load = false → exec (.readClearRegister (.tile t c) ga) s = .next s)

/-- R499 to R505: a lost system controller hands its role to an armed deputy, whose stage session ends, while
idempotent commands in progress go on; without one, or within 20 ms of another loss, the role stays vacant and the
module is FAULTED. A lost die or fabric controller is restarted and counted, and the third time in 10 minutes stays
down. Model's choices in it: log entries 9 and 41. -/
def Obligations.ControllersAreLost : Prop :=
  ∀ (s : State), s.fwActs = true → s.fw.shed = none →
    (∀ k, k ∈ s.fw.lost → exec (.watchdogFire k) s = .next s) ∧
    (.system ∉ s.fw.lost →
      let armed := s.regField (regGa 48 0x50000) 58 58 = 1 ∧ s.lostWithin .deputy ft20ms = false ∧
        s.lostWithin .system ft20ms = false
      (armed → ∃ n, exec (.watchdogFire .system) s = .next n ∧ n.pwr.vacant = false ∧ n.fw.stage = none ∧
        n.regField (regGa 48 0x50000) 59 59 = 1 - s.regField (regGa 48 0x50000) 59 59 ∧
        ∀ e ∈ s.fw.later, laterIdem e.2 = true → e ∈ n.fw.later) ∧
      (¬armed → ∃ n, exec (.watchdogFire .system) s = .next n ∧ n.pwr.vacant = true ∧ n.modState = 9 ∧ memorySame s n)) ∧
    (∀ k : Ctl, k ∉ s.fw.lost →
      let third := 3 ≤ (((s.ftc :: s.lossesOf k).take 3).filter fun t => decide (s.ftc ≤ t + ft10min)).length
      (∀ d, k = .die d → (s.die d.val).tripped = false →
        (¬third → .fabric (ctlFabric d) ∉ s.fw.lost → ∃ n, exec (.watchdogFire k) s = .next n ∧ n.fw.lost = s.fw.lost ∧
          n.lossesOf k = (s.ftc :: s.lossesOf k).take 3 ∧
          n.reg (regGa 48 0x50138) = s.reg (regGa 48 0x50138) + 1 ∧ memorySame s n) ∧
        (¬third → .fabric (ctlFabric d) ∈ s.fw.lost → ∃ n, exec (.watchdogFire k) s = .next n ∧
          n.fw.lost = s.fw.lost ++ [k] ∧ memorySame s n) ∧
        (third → ∃ n, exec (.watchdogFire k) s = .next n ∧ n.fw.lost = s.fw.lost ++ [k])) ∧
      (∀ f, k = .fabric f → s.fdTripped f.val = false →
        (¬third → ∃ n, exec (.watchdogFire k) s = .next n ∧ n.fw.lost = s.fw.lost ∧
          n.reg (regGa 48 0x50130) = s.reg (regGa 48 0x50130) + 1 ∧ memorySame s n) ∧
        (third → ∃ n, exec (.watchdogFire k) s = .next n ∧ n.fw.lost = s.fw.lost ++ [k] ∧ n.linkState (2 * f.val) = 6 ∧
          n.linkState (2 * f.val + 1) = 6)))

/-! ### Power and temperature (chapter 15) -/

/-- R537, R538, R540, R546, R548, R549, Tables 15.3, 15.10, 15.11, 15.15: a hardware limit passed sets its bit, notes
the first trip, clamps every compute die and raises the level to 3, until both values have fallen; a junction at 110
°C clamps its die, which below 105 °C ends; at 115 °C a compute die loses its power, its storage and its tiles, and is
fenced, and a fabric die its ports, or with FD0 or FD1 the module. Model's choices in it: log entries 9, 38, 40 and
50. -/
def Obligations.LimitsClampAndCut : Prop :=
  ∀ (s : State), s.on = true →
    (∀ (pin iin : BitVec 16) (k : Nat) (i : Instr),
      ((k = 0 ∧ i = .hlPeak pin iin ∧ 16500 < pin.toNat) ∨ (k = 1 ∧ i = .hlExc pin iin ∧ 14000 < pin.toNat) ∨
        (k = 2 ∧ i = .hlCur pin iin ∧ 3650 < iin.toNat)) →
      ∃ n, exec i s = .next n ∧ memorySame s n ∧
        (∀ f, f < 2 → n.regField (regGa (48 + f) 0x130000) 47 32 = iin.toNat) ∧
        (¬(s.regField (regGa 48 0x130018) (63 - k) (63 - k) = 1 ∧ s.regField (regGa 48 0x130018) 60 60 = 1) →
          n.regField (regGa 48 0x130010) 63 62 = 3 ∧ n.emerg 59 = true ∧ (∀ d, n.clamped d = true) ∧
          ∀ f, f < 2 → n.regField (regGa (48 + f) 0x130018) (63 - k) (63 - k) = 1 ∧
            n.regField (regGa (48 + f) 0x130018) 60 60 = 1 ∧
            n.regField (regGa (48 + f) 0x130018) 47 0 =
              if s.regField (regGa (48 + f) 0x130018) 63 61 = 0 then s.ftc % 2 ^ 48
              else s.regField (regGa (48 + f) 0x130018) 47 0)) ∧
    (∀ pin iin : BitVec 16, (pin.toNat ≤ 16500 → exec (.hlPeak pin iin) s = .next s) ∧
      (pin.toNat ≤ 14000 → exec (.hlExc pin iin) s = .next s) ∧ (iin.toNat ≤ 3650 → exec (.hlCur pin iin) s = .next s) ∧
      (s.emerg 59 = true → pin.toNat < 14000 → iin.toNat < 3040 →
        ∃ n, exec (.hwLimitRelease pin iin) s = .next n ∧ memorySame s n ∧ n.emerg 59 = false ∧ n.emerg 58 = s.emerg 58 ∧
          n.regField (regGa 48 0x130018) 60 60 = 0 ∧ n.regField (regGa 48 0x130000) 31 16 = pin.toNat ∧
          (s.emerg 58 = false → s.inE2 = false → n.regField (regGa 48 0x130010) 63 62 = if s.pwr.e1 then 1 else 0))) ∧
    (∀ (d : DieId) (tj : BitVec 12), s.dieUp d = true →
      let a := regGa d.val 0x140000
      (1760 ≤ temp tj → ∃ n, exec (.thermalClamp d tj) s = .next n ∧ memorySame s n ∧ n.regField a 46 45 = 2 ∧
        n.regField a 63 52 = tj.toNat ∧
        (s.regField a 46 45 ≠ 2 → n.regField a 44 44 = 1 ∧ n.emerg 58 = true ∧ n.regField (regGa 48 0x130010) 63 62 = 3)) ∧
      (temp tj < 1760 → exec (.thermalClamp d tj) s = .next s) ∧
      (s.regField a 46 45 = 2 → temp tj < 1680 → ∃ n, exec (.thermalClampRelease d tj) s = .next n ∧ memorySame s n ∧
        n.regField a 46 45 = (if s.policyOf d.val ≤ temp tj then 1 else 0) ∧ n.emerg 58 = n.anyClamp ∧ n.emerg 59 = s.emerg 59) ∧
      (1840 ≤ temp tj →
        (∀ k : CdId, k.val = d.val → ∃ n, exec (.dieOffTrip d tj) s = .next n ∧ (n.die k.val).tripped = true ∧
          n.dieFenced k.val = true ∧ n.sync = s.sync.filter (fun e => decide (gaDie e.1 ≠ k.val)) ∧
          (∀ b, n.byte b = if gaDie b = k.val then 0 else s.byte b) ∧
          ∀ t, tileDie t = k.val → (n.tile t).seq.running = false ∧ n.tileOn t = false) ∧
        (50 ≤ d.val → ∃ n, exec (.dieOffTrip d tj) s = .next n ∧ n.fdTripped (d.val - 48) = true ∧
          n.linkState (2 * (d.val - 48)) = 6 ∧ n.linkState (2 * (d.val - 48) + 1) = 6 ∧ memorySame s n) ∧
        (48 ≤ d.val → d.val < 50 → ∃ n, exec (.dieOffTrip d tj) s = .next n ∧ n.modState = 9 ∧ memorySame s n)))

/-- R532, R534, R535, R542, R543, R550, R556 to R558, Tables 15.4, 15.10: input power at 95% of the cap enters E1,
above the cap E2 with a power hold of every started domain, renewed while it lasts; both end below their marks. An
alarm raises its tile's rail by four steps, an estimate and a calibration set their own registers, an ageing reading
sets the rail that its tile needs. Model's choices in it: log entries 5, 9, 38, 39 and 40. -/
def Obligations.LevelsAndRails : Prop :=
  ∀ (s : State), s.on = true →
    (∀ pin : BitVec 16,
      (s.pwr.e1 = false → 95 * s.capNow ≤ 100 * pin.toNat → ∃ n, exec (.emergencyE1 pin) s = .next n ∧ memorySame s n ∧
        n.pwr.e1 = true ∧ n.regField (regGa 48 0x130000) 31 16 = pin.toNat ∧
        n.regField (regGa 48 0x130010) 63 62 = (if s.inE3 then 3 else if s.inE2 then 2 else 1) ∧
        ∀ t, n.regField (ctlReg t) 54 48 ≤ max 1 (s.regField (ctlReg t) 54 48)) ∧
      (100 * pin.toNat < 95 * s.capNow → exec (.emergencyE1 pin) s = .next s) ∧
      (s.inE2 = false → s.capNow < pin.toNat → ∃ n, exec (.emergencyE2 (.cap pin)) s = .next n ∧ memorySame s n ∧
        n.emerg 61 = true ∧ n.regField (regGa 48 0x130010) 63 62 = (if s.inE3 then 3 else 2) ∧
        (s.fwActs = true → s.isMaster = true → ∀ d, (s.dom d).started = true → ∃ r ∈ (n.dom d).hold.reqs, r.bit = 0)) ∧
      (pin.toNat ≤ s.capNow → exec (.emergencyE2 (.cap pin)) s = .next s) ∧
      (let cool := ∀ d : DieId, s.dieUp d = true →
         temp (BitVec.ofNat 12 (s.regField (regGa d.val 0x140000) 63 52)) < s.policyOf d.val - 48
       let e2 := s.inE2 = true ∧ 100 * pin.toNat < 97 * s.capNow ∧ cool
       let e1 := s.pwr.e1 = true ∧ 100 * pin.toNat < 92 * s.capNow
       (¬e1 → ¬e2 → exec (.emergencyExit pin) s = .next s) ∧
       ((e1 ∨ e2) → ∃ n, exec (.emergencyExit pin) s = .next n ∧ memorySame s n ∧ (e2 → n.inE2 = false) ∧
         (¬e2 → n.inE2 = s.inE2) ∧ (e1 → n.pwr.e1 = false) ∧ (¬e1 → n.pwr.e1 = s.pwr.e1) ∧
         (n.pwr.e1 = false → n.inE2 = false → s.fwActs = true → ∀ t, n.regField (ctlReg t) 54 48 = 64)))) ∧
    (∀ (d : DieId) (tj : BitVec 12), s.dieUp d = true → s.inE2 = false → s.policyOf d.val ≤ temp tj →
      ∃ n, exec (.emergencyE2 (.junction d tj)) s = .next n ∧ memorySame s n ∧ n.emerg 60 = true ∧
        n.regField (regGa d.val 0x140000) 63 52 = tj.toNat ∧
        n.regField (regGa 48 0x130010) 63 62 = (if s.inE3 then 3 else 2)) ∧
    (∀ d, (s.inE2 = false → exec (.powerHoldRenew d) s = .next s) ∧
      (s.inE2 = true → s.fwActs = true → s.isMaster = true → (s.dom d).started = true →
        ∃ n, exec (.powerHoldRenew d) s = .next n ∧ memorySame s n ∧ n.tiles = s.tiles ∧ ∃ r ∈ (n.dom d).hold.reqs, r.bit = 0)) ∧
    (∀ t, s.tileOn t = true →
      (∀ slack : BitVec 8, (6 ≤ slack.toNat → exec (.marginAlarm t slack) s = .next s) ∧
        (slack.toNat < 6 → ∃ n, exec (.marginAlarm t slack) s = .next n ∧ memorySame s n ∧
          n.regField (railReg t) 15 8 = slack.toNat ∧ n.regField (railReg t) 0 0 = 1 ∧
          n.regField (railReg t) 24 16 = (if s.fwActs then min 360 (s.regField (railReg t) 24 16 + 4)
            else s.regField (railReg t) 24 16))) ∧
      (∃ n, exec (.powerEstimate t) s = .next n ∧ memorySame s n ∧ n.tiles = s.tiles ∧ n.out = s.out ∧
        (∀ b, b ≠ ctlReg t → b ≠ regGa (tileDie t) 0x130100 → n.reg b = s.reg b) ∧
        n.regField (ctlReg t) 63 32 = s.regField (ctlReg t) 63 32) ∧
      (∀ dNow dBase va vb, s.fwActs = true → 0 < dNow →
        180 ≤ ((s.fw.images.map fun im => im.fmax.getD t.val 180).getD 180) * dBase / dNow → s.plannedOf t ≠ 0 →
        ∃ n, exec (.ageingReading t dNow dBase va vb) s = .next n ∧ memorySame s n ∧
          n.regField (railReg t) 24 16 = min 360 (max 260 ((va + 45000 + 2499) / 2500)) ∧
          (((s.fw.images.map fun im => im.fmax.getD t.val 180).getD 180) * dBase / dNow < s.fmaxOf t →
            n.capVersion = s.capVersion + 1) ∧
          (360 < (va + 45000 + 2499) / 2500 → (∀ d, (s.dom d).started = false) → setHas n.fw.weak t.val = true) ∧
          (360 < (va + 45000 + 2499) / 2500 → ∀ d, (s.dom d).started = true → t ∈ s.jobTiles d →
            (d = 1 → (s.dom 0).started = true → t ∉ s.jobTiles 0) → (2, t.val, 0, 0) ∈ (n.dom d).fences))) ∧
    (∀ d : CdId, s.dieOn d.val = true → s.fwActs = true → ∃ n, exec (.powerCalibration d) s = .next n ∧ memorySame s n ∧
      n.tiles = s.tiles ∧ n.out = s.out ∧ ∀ b, b ≠ regGa d.val 0x130108 → n.reg b = s.reg b) ∧
    (∀ tin tout : BitVec 12, s.dieUp 48 = true →
      ((640 < temp tin ∨ 288 < temp tout - temp tin) → ∃ n, exec (.coolantAlarm tin tout) s = .next n ∧ memorySame s n ∧
        n.regField (regGa 48 0x140018) 63 52 = tin.toNat ∧ n.regField (regGa 48 0x140018) 51 40 = tout.toNat) ∧
      (temp tin ≤ 640 → temp tout - temp tin ≤ 288 → exec (.coolantAlarm tin tout) s = .next s))

/-- R551 to R553, Table 15.5: a tile without work enters PS1 and, as its tolerance permits, PS2, in which its
translations and near-cache lines are lost; a die enters PS3, the compute dies PS4 and the module PS5, in which every
content of the compute dies is lost; a wake brings the unit back. Model's choices in it: log entries 1, 9, 30 and 40.
-/
def Obligations.PowerStates : Prop :=
  ∀ (s : State), s.on = true →
    (∀ t, s.tileOn t = true → s.pwr.ps = 0 →
      (s.regField (ctlReg t) 63 61 = 0 → 1 ≤ s.tilePs t → s.mayDoze t = true →
        exec (.tileIdle t) s = .next (s.setField (ctlReg t) 63 61 1)) ∧
      (s.mayDoze t = false → exec (.tileIdle t) s = .next s) ∧
      (s.fwActs = true → 2 ≤ s.tilePs t → s.regField (ctlReg t) 63 61 < 2 → s.maySleep t = true →
        ∃ n, exec (.powerStateEnter (.tile t) 2) s = .next n ∧ memorySame s n ∧ n.regField (ctlReg t) 63 61 = 2 ∧
          (n.tile t).tlb = [] ∧ (n.tile t).nc = [] ∧ (n.tile t).seq = (s.tile t).seq ∧
          (∀ b, b ≠ ctlReg t → n.reg b = s.reg b) ∧ ∀ k, k ≠ t → n.tile k = s.tile k) ∧
      (s.regField (regGa (tileDie t) 0x130100) 63 61 ≠ 3 →
        (s.regField (ctlReg t) 63 61 = 1 ∨ s.regField (ctlReg t) 63 61 = 2) →
        ∃ n, exec (.powerStateWake (.tile t)) s = .next n ∧ memorySame s n ∧ n.tiles = s.tiles ∧
          n.regField (ctlReg t) 63 61 = 0)) ∧
    (∀ d : CdId, s.dieOn d.val = true → s.pwr.ps = 0 →
      (s.fwActs = true → 3 ≤ s.diePs d.val → s.regField (regGa d.val 0x130100) 63 61 ≠ 3 →
        (∀ t, tileDie t = d.val → s.maySleep t = true) →
        ∃ n, exec (.powerStateEnter (.die d) 3) s = .next n ∧ n.regField (regGa d.val 0x130100) 63 61 = 3 ∧
          (n.die d.val).sets = [] ∧ ∀ t, tileDie t = d.val → n.regField (ctlReg t) 63 61 = 3 ∧ (n.tile t).tlb = []) ∧
      (s.regField (regGa d.val 0x130100) 63 61 = 3 →
        ∃ n, exec (.powerStateWake (.die d)) s = .next n ∧ memorySame s n ∧ n.regField (regGa d.val 0x130100) 63 61 = 0 ∧
          ∀ t, tileDie t = d.val → n.regField (ctlReg t) 63 61 = 0)) ∧
    (∀ u v : Nat, (u = 4 ∧ v ≤ s.modulePs ∧ v = 4 ∧ s.pwr.ps = 0) ∨ (u = 5 ∧ s.modulePs = 5 ∧ v = 5 ∧ s.pwr.ps ≠ 5) →
      s.fwActs = true → ∃ n, exec (.powerStateEnter (if u = 4 then .allDies else .module) (Fin.ofNat 6 v)) s = .next n ∧
        n.pwr.ps = v ∧ n.tiles = [] ∧ (∀ b, n.byte b = if gaDie b < 48 then 0 else s.byte b) ∧
        (v = 5 → ∀ l, l < 10 → n.linkState l = 0)) ∧
    ((s.pwr.ps = 4 → ∃ n, exec (.powerStateWake .allDies) s = .next n ∧ n.pwr.ps = 0 ∧ memorySame s n ∧ n.tiles = s.tiles) ∧
      (s.pwr.ps = 5 → ∃ n, exec (.powerStateWake .module) s = .next n ∧ n.pwr.ps = 0 ∧ memorySame s n ∧
        ∀ l, l < 10 → s.regField (linkReg l 0) 0 0 = 1 → n.linkState l = 1) ∧
      (s.pwr.ps = 5 → exec .i3cWake s = exec (.powerStateWake .module) s) ∧ (s.pwr.ps ≠ 5 → exec .i3cWake s = .next s))

/-! ### Events (chapter 16) -/

/-- R563 to R568, R570: a record that is not held back is the newest of the log, and its source's sequence number
advances; FATAL_MODULE leaves the module FAULTED; a CORRECTED record beyond the rate of its second is held back and
counted, and a summary tells of those once the second has ended. Loss of an event engine leaves the other, loss of
both the module FAULTED. Model's choices in it: log entries 9 and 54. -/
def Obligations.EventsAreLogged : Prop :=
  ∀ (s : State),
    (∀ q : EvtReq,
      let src := (sourceId s.selfIndex q.die q.kind q.inst).toNat
      let st := mapGet (⟨0, 0, 0, 0⟩ : RateSt) s.evt.rates src
      let n := s.raise q
      memorySame s n ∧ n.fw = s.fw ∧ n.doms = s.doms ∧
      (q.cls ≠ .corrected → n.evt.logged = s.evt.logged + 1 ∧ n.evt.log.head? = some (s.mkRec q false) ∧
        mapGet 0 n.evt.seqs src = mapGet 0 s.evt.seqs src + 1) ∧
      (q.cls = .fatal → n.modState = 9) ∧ (q.cls ≠ .fatal → n.modState = s.modState) ∧
      (q.cls = .corrected → st.second = s.ftc / secondFt → st.sent < s.regField regEvtCfg 15 0 →
        n.evt.logged = s.evt.logged + 1 ∧ n.evt.log.head? = some (s.mkRec q false)) ∧
      (q.cls = .corrected → st.second = s.ftc / secondFt → s.regField regEvtCfg 15 0 ≤ st.sent →
        n.evt.logged = s.evt.logged ∧ n.evt.log = s.evt.log ∧ (mapGet (⟨0, 0, 0, 0⟩ : RateSt) n.evt.rates src).held = st.held + 1 ∧
        n.reg (regGa q.die 0x150108) = s.reg (regGa q.die 0x150108) + 1)) ∧
    (∀ src : BitVec 32, s.on = true →
      let st := mapGet (⟨0, 0, 0, 0⟩ : RateSt) s.evt.rates src.toNat
      (st.second < s.ftc / secondFt → src.toNat / 2 ^ 20 = s.selfIndex.toNat → st.held ≠ 0 →
        ∃ n r, exec (.rateSummary src) s = .next n ∧ n.evt.logged = s.evt.logged + 1 ∧ n.evt.log.head? = some r ∧
          r.summary = true ∧ r.code = 0xF002 ∧ r.source = src ∧ memorySame s n ∧
          (mapGet (⟨0, 0, 0, 0⟩ : RateSt) n.evt.rates src.toNat).held = 0) ∧
      ((s.ftc / secondFt ≤ st.second ∨ st.held = 0) → exec (.rateSummary src) s = .next s)) ∧
    (∀ e : Fin 2, s.on = true →
      (e ∈ s.evt.lost → exec (.eventEngineLoss e) s = .next s) ∧
      (s.evt.lost = [] → exec (.eventEngineLoss e) s = .next { s with evt := { s.evt with lost := [e] } }) ∧
      (e ∉ s.evt.lost → s.evt.lost.length = 1 → ∃ n, exec (.eventEngineLoss e) s = .next n ∧ n.modState = 9 ∧
        n.evt.log = s.evt.log ∧ memorySame s n))

/-- R571 to R573, R636, Tables 16.6, 16.7: EVT_SUBSCRIBE on MBXM makes a collector and on a ring mailbox an event
ring, from the next record on, EVT_UNSUBSCRIBE ends either; a collector that is due gets up to 22 records in a
datagram, and EVT_REPLAY sends what it has been sent again; the head word that returns makes room for the records
held. Model's choices in it: log entries 5, 9, 24 and 37. -/
def Obligations.EventsAreDelivered : Prop :=
  ∀ (s : State),
    (∀ c : MbxCmd,
      let p := c.payload
      let m := c.mb.val
      let i := field p 3 1
      (evtBad c 0 = false → mbxAnswers s (.evtSubscribe c) rowEvt c none 0 [] [] fun _ x => memorySame s x ∧
        (c.mb = 8 → x.evt.served = true ∧ mapGet none x.evt.colls i = some ⟨BitVec.ofNat 8 (field p 1 1), ip6Of (slice p 24 16),
          BitVec.ofNat 16 (field p 40 2), 0, s.evt.logged⟩ ∧ x.evt.rings = s.evt.rings) ∧
        (c.mb ≠ 8 → x.evt.colls = s.evt.colls ∧ ∃ g, mapGet none x.evt.rings m = some g ∧ g.ctx = (s.mboxCtx m).val ∧
          g.classes = BitVec.ofNat 8 (field p 1 1) ∧ g.k = field p 2 1 ∧ g.vector = BitVec.ofNat 11 (field p 4 4) ∧
          g.base.toNat = field p 8 8 ∧ g.headAt.toNat = field p 16 8 ∧ g.tail = 0 ∧ g.head = 0 ∧ g.queue = [] ∧
          ∀ j, j ≠ m → mapGet none x.evt.rings j = mapGet none s.evt.rings j)) ∧
      (evtBad c 1 = false → mbxAnswers s (.evtUnsubscribe c) rowEvt c none 0 [] [] fun _ x => memorySame s x ∧
        (c.mb = 8 → mapGet none x.evt.colls i = none ∧ ∀ j, j ≠ i → mapGet none x.evt.colls j = mapGet none s.evt.colls j) ∧
        (c.mb ≠ 8 → mapGet none x.evt.rings m = none ∧
          ∀ j, j ≠ m → mapGet none x.evt.rings j = mapGet none s.evt.rings j)) ∧
      (∀ k, evtBad c 2 = false → s.evt.served = true → s.collector i = some k →
        let rs := (s.logged (field p 48 8) k.next).filter fun e => classOn k.classes e.2.cls
        s.oldestSeq ≤ field p 48 8 → rs.length ≤ 22 → ∀ e, rs.head? = some e →
        mbxAnswers s (.evtReplay c) rowEvt c none 0 [] [] fun _ x => memorySame s x ∧
          x.collector i = some { k with dseq := k.dseq + 1 } ∧
          ∃ b : List Byte, x.out = s.out ++ [.datagram s.mgtPort k.addr k.port b] ∧ b.length = 24 + 64 * rs.length ∧
            field b 0 8 = Config.serial.toNat ∧ field b 8 8 = e.1 % 2 ^ 64 ∧ field b 16 1 = rs.length ∧ field b 17 1 = 1 ∧
            field b 20 4 = k.dseq.toNat)) ∧
    (∀ (i : Fin 4) k, s.on = true → s.evt.lost.length ≠ 2 → s.collector i.val = some k →
      let rs := (s.logged k.next s.evt.logged).filter fun e => classOn k.classes e.2.cls
      let due := 22 ≤ rs.length ∨ ∃ e, rs.head? = some e ∧ e.2.ftc.toNat + 450000 ≤ s.ftc
      (due → ∃ n, exec (.eventDatagramSend i) s = .next n ∧ memorySame s n ∧
        (∃ x, n.collector i.val = some x ∧ x.dseq = k.dseq + 1 ∧ (rs.take 22).getLast?.map (·.1 + 1) = some x.next) ∧
        ∃ b : List Byte, n.out = s.out ++ [.datagram s.mgtPort k.addr k.port b] ∧ b.length = 24 + 64 * min 22 rs.length ∧
          field b 16 1 = min 22 rs.length ∧ field b 17 1 = 0 ∧ field b 20 4 = k.dseq.toNat) ∧
      (¬due → exec (.eventDatagramSend i) s = .next s)) ∧
    (∀ (m : Fin 8) (h : BitVec 64) g, s.on = true → s.evt.lost.length ≠ 2 → mapGet none s.evt.rings m.val = some g →
      let n := 2 ^ g.k
      let head := min g.tail (g.head + (h.toNat + n - g.head % n) % n)
      (g.queue = [] → g.dropped = 0 → exec (.eventRingSpaceReturn m h) s =
        .next { s with evt := { s.evt with rings := mapSet none s.evt.rings m.val (some { g with head := head }) } }) ∧
      (∀ r rest, g.queue = r :: rest → g.dropped = 0 → g.tail - head < n →
        ∃ x, exec (.eventRingSpaceReturn m h) s = .next x ∧ memorySame s x ∧
          .cclWrite (s.mbPort m.val) (g.base + BitVec.ofNat 52 (64 * (g.tail % n)))
            (r.bytes (decide (g.tail / n % 2 = 0)) r.tag) ∈ x.out))

/-! ### Supply, reset and service (chapters 13, 15, 17) -/

/-- R472, R528, R529, R605, R615, R627, R628: with the input present and both clips made the power-up raises PWR_OK, a
failed charge stops it until it is tried again, a shutdown or a broken clip takes every die's power and all state but
flash; with PWR_OK high, the rise of MOD_RST_N boots the module to LOCKED from the first source that passes, or leaves
it FAULTED, and a low level of 10 µs resets it. R605 is that of the clips and R627 that of the line; what the boot
meets is an operand, memory without power is empty, and the rest is named in log entries 1, 4, 5, 9, 21 and 72. -/
def Obligations.SupplyAndReset : Prop :=
  ∀ (s : State),
    (∀ i st, (i = Instr.inputTurnOn ∧ st = Supply.off) ∨ (i = .inrushRetry ∧ st = .stopped) ∨ (i = .powerUpRetry ∧ st = .down) →
      (s.pwr.stage ≠ st ∨ s.clipsMade = false → exec i s = .next s) ∧
      (s.pwr.stage = st → s.clipsMade = true →
        ∃ n, exec i s = .next n ∧ n.powered = true ∧ n.pwr.stage = .on ∧ .pwrOk true ∈ n.out ∧
          (s.pwr.rst = false → n.modState = s.modState ∧ n.running = s.running ∧ memorySame s n) ∧
          (∀ b, s.pwr.rst = true → s.pwr.world = some b → n.running = true ∧ n.modState ≠ 0))) ∧
    (s.pwr.stage = .off → s.clipsMade = true →
      exec .inrushTimeout s = .next { s with pwr := { s.pwr with stage := .stopped } }) ∧
    (∀ (c : ShutdownCause) (k : Fin 2),
      (s.powered = false → exec (.supplyShutdown c) s = .next s) ∧
      (s.powered = false → ∃ n, exec (.clipSenseBreak k) s = .next n ∧ n.clipsMade = false ∧ n.out = s.out) ∧
      (s.powered = true → ∀ i, (i = .supplyShutdown c ∨ i = .clipSenseBreak k) → ∃ n, exec i s = .next n ∧
        n.powered = false ∧ n.running = false ∧ n.modState = 0 ∧ n.mem = [] ∧ n.sync = [] ∧ n.regs = [] ∧ n.tiles = [] ∧
        n.doms = [] ∧ n.xl.ctxs = [] ∧ n.fw.images = none ∧ n.fw.flash = s.fw.flash ∧ n.pwr.stage = .down ∧
        n.svc.dyn = none ∧ n.out = s.out ++ [.pwrOk false] ∧ (i = .clipSenseBreak k → n.clipsMade = false))) ∧
    (∀ b : BootWorld,
      (s.pwr.rst = true → exec (.modRstNRise b) s = .next s) ∧
      (s.pwr.rst = false → s.powered = false →
        exec (.modRstNRise b) s = .next { s with pwr := { s.pwr with rst := true, world := some b } }) ∧
      (s.pwr.rst = false → s.powered = true →
        (∀ least im, (∀ d, d < 2 → (s.flashDev d).selector.trial = false) → (s.flashDev 0).minVersion = some least →
          s.checkBank 0 (s.flashDev 0).selector.active least = .ok im →
          ∃ n, exec (.modRstNRise b) s = .next n ∧ n.modState = 3 ∧ n.running = true ∧ n.fw.images = some im ∧
            n.selfIndex = b.straps ∧ n.svc.mstrSel = b.mstrSel ∧ mapGet none n.xl.ctxs 0 ≠ none) ∧
        ((s.flashDev 0).minVersion = none → ∃ n, exec (.modRstNRise b) s = .next n ∧ n.modState = 9 ∧
          n.regField (regGa 48 0x70000) 63 56 = 10))) ∧
    (∀ ns : Nat, (ns < 10000 ∨ s.pwr.rst = false → exec (.modRstNFall ns) s = .next s) ∧
      (10000 ≤ ns → s.pwr.rst = true → ∃ n, exec (.modRstNFall ns) s = .next n ∧ n.powered = s.powered ∧ n.running = false ∧
        n.modState = 0 ∧ n.mem = [] ∧ n.sync = [] ∧ n.regs = [] ∧ n.tiles = [] ∧ n.doms = [] ∧ n.fw.images = none ∧
        n.fw.flash = s.fw.flash ∧ n.pwr.rst = false ∧ n.out = s.out))

/-- R474, R571, R617 to R625, Table 17.7: recovery takes the image's bytes, and its close runs or refuses it; I3C
commands set the address and enable interrupts; the management address records and the default collector are taken
when in order; a management port answers what asks for an address of its own; the boundary scan answers while
MOD_RST_N is low. Model's choices in it: log entries 5, 9, 22, 23, 24 and 72. -/
def Obligations.ServiceConnector : Prop :=
  ∀ (s : State),
    (s.recovers = true →
      exec .recoveryOpen s = .next { s with svc := { s.svc with recov := (1, 0), image := [] } } ∧
      (s.svc.recov.1 = 1 →
        (∀ (off : BitVec 32) (bs : List Byte), off.toNat + bs.length ≤ recoverySize →
          ∃ n, exec (.recoveryData off bs) s = .next n ∧ n.rescueBytes off.toNat bs.length = bs ∧ n.svc.recov = s.svc.recov ∧
            memorySame s n ∧ ∀ a, (a < off.toNat ∨ off.toNat + bs.length ≤ a) → n.rescueBytes a 1 = s.rescueBytes a 1) ∧
        (let code := manCode s.rescueBytes recoverySize true (((s.flashDev 0).minVersion).getD 0)
         (code = none → exec .recoveryClose s = .next { s with svc := { s.svc with recov := (3, 0), rescue := true } }) ∧
         ∀ c, code = some c → exec .recoveryClose s = .next { s with svc := { s.svc with recov := (4, c) } }))) ∧
    (s.recovers = false → exec .recoveryOpen s = .next s ∧ exec .recoveryClose s = .next s ∧
      ∀ off bs, exec (.recoveryData off bs) s = .next s) ∧
    (s.on = true →
      (∀ a, exec (.enec (.setdasa a)) s = .next { s with svc := { s.svc with dyn := some a } } ∧
        exec (.enec (.entdaa a)) s = .next { s with svc := { s.svc with dyn := some a } }) ∧
      exec (.enec .enec) s = .next { s with svc := { s.svc with ibi := true } } ∧
      (∀ (p : Fin 2) (bs : List Byte), (addrOk bs = false → exec (.mgtAddrWrite p bs) s = .next s) ∧
        (addrOk bs = true → ∃ n, exec (.mgtAddrWrite p bs) s = .next n ∧ mapGet [] n.svc.addrs p.val = bs ∧
          (∀ q, q ≠ p.val → mapGet [] n.svc.addrs q = mapGet [] s.svc.addrs q) ∧ memorySame s n)) ∧
      (∀ bs : List Byte, (bs.length ≠ 18 → exec (.collectorWrite bs) s = .next s) ∧
        (bs.length = 18 → ∃ n k, exec (.collectorWrite bs) s = .next n ∧ n.evt.defColl = some k ∧ k.addr = ip6Of bs ∧
          k.port.toNat = field bs 16 2 ∧ memorySame s n))) ∧
    (∀ (p : Fin 2) (up : Bool), ∃ n, exec (.mgtLinkChange p up) s = .next n ∧ setHas n.svc.links p.val = up ∧
      (∀ q, q ≠ p.val → setHas n.svc.links q = setHas s.svc.links q) ∧ memorySame s n) ∧
    (s.fwOn = true → ∀ p : Fin 2,
      let gives (f : MgtFrame) (yes : Prop) : Prop :=
        (yes → exec (.mgtFrameReceive p f) s = .next (s.send (.answer p (macOf p) f))) ∧
        (¬yes → exec (.mgtFrameReceive p f) s = .next s)
      (∀ a, gives (.arpRequest a) (a ∈ s.ip4s p) ∧ (∀ d, gives (.icmpEcho a d) (a ∈ s.ip4s p))) ∧
      (∀ a, gives (.neighbourSolicit a) (a ∈ s.ip6s p) ∧ (∀ d, gives (.icmp6Echo a d) (a ∈ s.ip6s p))) ∧
      exec (.mgtFrameReceive p .other) s = .next s) ∧
    (∀ op : JtagOp, ((s.powered = false ∨ s.pwr.rst = true) → exec (.boundaryScan op) s = .next s) ∧
      (s.powered = true → s.pwr.rst = false → ∃ n v, exec (.boundaryScan op) s = .next n ∧ n.out = s.out ++ [.scan v] ∧
        (op = .idcode → v = 0x1C480BC7) ∧ (op = .bypass → v = 0) ∧
        (∀ x, (op = .samplePreload x ∨ op = .extest x) → n.svc.cells = x) ∧ memorySame s n))

/-! ### The step and what it keeps -/

/-- The step takes the command at the front of the queue and performs it on the state with the queue's rest; on an
empty queue one fabric tick passes, in which the FTC of a running module advances by one (R10, R301; the queue and the
tick are the model's choice, log entries 8 and 14). -/
def Obligations.StepTakesTheFront : Prop :=
  (∀ (s : State) (c : Instr) (l : List Instr), step { s with pending := c :: l } = exec c { s with pending := l }) ∧
  (∀ s : State, s.pending = [] → ∃ n, step s = .next n ∧ n.ftc = s.ftc + (if s.on then 1 else 0) ∧ n.mem = s.mem ∧
    (s.on = false → n = { s with pending := s.waits, waits := [] }) ∧
    (s.on = true → (s.dom 0).started = false → (s.dom 1).started = false → n.doms = s.doms ∧ n.tiles = s.tiles))

/-- Every step keeps the canonical form of memory, of its poison and of the sync words. The canonical form is the
model's own, on log entry 1. -/
def Obligations.StepsKeepStateTidy : Prop :=
  ∀ (s n : State), tidy s = true → step s = .next n → tidy n = true

/-- R10, R482, R627: after reset the module is OFF, without power, its FTC 0, with nothing in memory, in the queue or
sent, and its state is in canonical form; every register reads its table's reset value (with nothing stored). Model's
choices in it: log entries 1, 2 and 4. -/
def Obligations.ResetIsOffAndTidy : Prop :=
  tidy State.reset = true ∧ State.reset.modState = 0 ∧ State.reset.powered = false ∧ State.reset.running = false ∧
  State.reset.ftc = 0 ∧ State.reset.pending = [] ∧ State.reset.out = [] ∧ (∀ a, State.reset.byte a = 0) ∧
  (∀ a, State.reset.reg a = regReset a) ∧ ∀ d, State.reset.dom d = DomSt.reset
end

