-- ==== Sys2Proof/Laws/SMap.lean ====
section
/-!
SUPPORT. Laws of sparse maps: what a key reads after a write, and that a write keeps the canonical form.
-/

namespace Sys2Proof.Machine

variable {α : Type}

theorem mapGet_mapErase_self (d : α) (m : SMap α) (k : Nat) : mapGet d (mapErase m k) k = d := by
  induction m with
  | nil => rfl
  | cons e rest ih =>
    obtain ⟨j, w⟩ := e
    by_cases h : j = k <;> simp [mapErase, mapGet, h, ih]

theorem mapGet_mapErase_ne (d : α) (m : SMap α) {k j : Nat} (h : j ≠ k) :
    mapGet d (mapErase m k) j = mapGet d m j := by
  induction m with
  | nil => rfl
  | cons e rest ih =>
    obtain ⟨i, w⟩ := e
    by_cases hi : i = k
    · subst hi; simp [mapErase, mapGet, ih, Ne.symm h]
    · simp only [mapErase, if_neg hi, mapGet, ih]

theorem mapGet_mapPut_self (d : α) (m : SMap α) (k : Nat) (v : α) : mapGet d (mapPut m k v) k = v := by
  induction m with
  | nil => simp [mapPut, mapGet]
  | cons e rest ih =>
    obtain ⟨j, w⟩ := e
    by_cases h : k < j
    · simp [mapPut, mapGet, h]
    · by_cases h2 : k = j
      · simp [mapPut, mapGet, h2]
      · simp [mapPut, mapGet, h, h2, ih, Ne.symm h2]

theorem mapGet_mapPut_ne (d : α) (m : SMap α) {k j : Nat} (v : α) (h : j ≠ k) :
    mapGet d (mapPut m k v) j = mapGet d m j := by
  induction m with
  | nil => simp [mapPut, mapGet, Ne.symm h]
  | cons e rest ih =>
    obtain ⟨i, w⟩ := e
    by_cases h1 : k < i
    · simp [mapPut, mapGet, h1, Ne.symm h]
    · by_cases h2 : k = i
      · subst h2; simp [mapPut, mapGet, Ne.symm h]
      · simp only [mapPut, if_neg h1, if_neg h2, mapGet, ih]

/-- A key reads what was last written to it. -/
@[simp] theorem mapGet_mapSet_self [DecidableEq α] (d : α) (m : SMap α) (k : Nat) (v : α) :
    mapGet d (mapSet d m k v) k = v := by
  by_cases h : v = d
  · simp [mapSet, h, mapGet_mapErase_self]
  · simp [mapSet, h, mapGet_mapPut_self]

/-- A write leaves every other key alone. -/
theorem mapGet_mapSet_ne [DecidableEq α] (d e : α) (m : SMap α) {k j : Nat} (v : α) (h : j ≠ k) :
    mapGet e (mapSet d m k v) j = mapGet e m j := by
  by_cases hv : v = d
  · simp [mapSet, hv, mapGet_mapErase_ne _ _ h]
  · simp [mapSet, hv, mapGet_mapPut_ne _ _ _ h]

theorem mapWfFrom_weaken [DecidableEq α] (d : α) (m : SMap α) {a b : Nat} (hab : a ≤ b)
    (h : mapWfFrom d b m = true) : mapWfFrom d a m = true := by
  cases m with
  | nil => rfl
  | cons e rest =>
    obtain ⟨j, w⟩ := e
    simp only [mapWfFrom, Bool.and_eq_true, decide_eq_true_eq] at h ⊢
    exact ⟨⟨by omega, h.1.2⟩, h.2⟩

theorem mapWfFrom_erase [DecidableEq α] (d : α) (m : SMap α) (b k : Nat) (h : mapWfFrom d b m = true) :
    mapWfFrom d b (mapErase m k) = true := by
  induction m generalizing b with
  | nil => rfl
  | cons e rest ih =>
    obtain ⟨j, w⟩ := e
    simp only [mapWfFrom, Bool.and_eq_true, decide_eq_true_eq] at h
    by_cases hj : j = k
    · simp only [mapErase, hj, if_pos]
      exact mapWfFrom_weaken d _ (by omega) (ih (j + 1) h.2)
    · simp only [mapErase, hj, if_neg, mapWfFrom, Bool.and_eq_true, decide_eq_true_eq, not_false_eq_true]
      exact ⟨h.1, ih (j + 1) h.2⟩

theorem mapWfFrom_put [DecidableEq α] (d : α) (m : SMap α) (b k : Nat) (v : α) (hv : v ≠ d) (hb : b ≤ k)
    (h : mapWfFrom d b m = true) : mapWfFrom d b (mapPut m k v) = true := by
  induction m generalizing b with
  | nil => simp [mapPut, mapWfFrom, hv, hb]
  | cons e rest ih =>
    obtain ⟨j, w⟩ := e
    simp only [mapWfFrom, Bool.and_eq_true, decide_eq_true_eq] at h
    by_cases h1 : k < j
    · simp only [mapPut, h1, if_pos, mapWfFrom, Bool.and_eq_true, decide_eq_true_eq]
      exact ⟨⟨hb, hv⟩, ⟨by omega, h.1.2⟩, h.2⟩
    · by_cases h2 : k = j
      · subst h2
        simp only [mapPut, lt_irrefl, if_false, if_true, mapWfFrom, Bool.and_eq_true, decide_eq_true_eq]
        exact ⟨⟨hb, hv⟩, h.2⟩
      · simp only [mapPut, h1, h2, if_false, mapWfFrom, Bool.and_eq_true, decide_eq_true_eq]
        exact ⟨h.1, ih (j + 1) (by omega) h.2⟩

/-- A write keeps the canonical form. -/
theorem mapWf_mapSet [DecidableEq α] (d : α) (m : SMap α) (k : Nat) (v : α) (h : mapWf d m = true) :
    mapWf d (mapSet d m k v) = true := by
  by_cases hv : v = d
  · simp only [mapSet, hv, if_true]; exact mapWfFrom_erase d m 0 k h
  · simp only [mapSet, hv, if_false]; exact mapWfFrom_put d m 0 k v hv (Nat.zero_le _) h

theorem mapWfFrom_filter [DecidableEq α] (d : α) (m : SMap α) (b : Nat) (p : Nat × α → Bool)
    (h : mapWfFrom d b m = true) : mapWfFrom d b (m.filter p) = true := by
  induction m generalizing b with
  | nil => rfl
  | cons e rest ih =>
    obtain ⟨j, w⟩ := e
    simp only [mapWfFrom, Bool.and_eq_true, decide_eq_true_eq] at h
    by_cases hp : p (j, w)
    · simp only [List.filter, hp, mapWfFrom, Bool.and_eq_true, decide_eq_true_eq]
      exact ⟨h.1, ih (j + 1) h.2⟩
    · simp only [List.filter, hp]
      exact mapWfFrom_weaken d _ (by omega) (ih (j + 1) h.2)

/-- Dropping entries keeps the canonical form. -/
theorem mapWf_filter [DecidableEq α] (d : α) (m : SMap α) (p : Nat × α → Bool) (h : mapWf d m = true) :
    mapWf d (m.filter p) = true := mapWfFrom_filter d m 0 p h

end Sys2Proof.Machine
end

