-- ==== Sys2Proof/Laws/State.lean ====
section
/-!
SUPPORT. What each plain update of the state leaves alone, field by field, and what it writes.
-/

namespace Sys2Proof.Machine

/-! ### setTile -/

@[simp] theorem State.setTile_mem (s : State) (t : TileId) (x : TileSt) : (s.setTile t x).mem = s.mem := rfl
@[simp] theorem State.setTile_poison (s : State) (t : TileId) (x : TileSt) : (s.setTile t x).poison = s.poison := rfl
@[simp] theorem State.setTile_sync (s : State) (t : TileId) (x : TileSt) : (s.setTile t x).sync = s.sync := rfl
@[simp] theorem State.setTile_regs (s : State) (t : TileId) (x : TileSt) : (s.setTile t x).regs = s.regs := rfl
@[simp] theorem State.setTile_dies (s : State) (t : TileId) (x : TileSt) : (s.setTile t x).dies = s.dies := rfl
@[simp] theorem State.setTile_xl (s : State) (t : TileId) (x : TileSt) : (s.setTile t x).xl = s.xl := rfl
@[simp] theorem State.setTile_fences (s : State) (t : TileId) (x : TileSt) : (s.setTile t x).fences = s.fences := rfl
@[simp] theorem State.setTile_doms (s : State) (t : TileId) (x : TileSt) : (s.setTile t x).doms = s.doms := rfl
@[simp] theorem State.setTile_sy (s : State) (t : TileId) (x : TileSt) : (s.setTile t x).sy = s.sy := rfl
@[simp] theorem State.setTile_noted (s : State) (t : TileId) (x : TileSt) : (s.setTile t x).noted = s.noted := rfl
@[simp] theorem State.setTile_faults (s : State) (t : TileId) (x : TileSt) : (s.setTile t x).faults = s.faults := rfl
@[simp] theorem State.setTile_fab (s : State) (t : TileId) (x : TileSt) : (s.setTile t x).fab = s.fab := rfl
@[simp] theorem State.setTile_ue (s : State) (t : TileId) (x : TileSt) : (s.setTile t x).ue = s.ue := rfl
@[simp] theorem State.setTile_fw (s : State) (t : TileId) (x : TileSt) : (s.setTile t x).fw = s.fw := rfl
@[simp] theorem State.setTile_pwr (s : State) (t : TileId) (x : TileSt) : (s.setTile t x).pwr = s.pwr := rfl
@[simp] theorem State.setTile_svc (s : State) (t : TileId) (x : TileSt) : (s.setTile t x).svc = s.svc := rfl
@[simp] theorem State.setTile_time (s : State) (t : TileId) (x : TileSt) : (s.setTile t x).time = s.time := rfl
@[simp] theorem State.setTile_evt (s : State) (t : TileId) (x : TileSt) : (s.setTile t x).evt = s.evt := rfl
@[simp] theorem State.setTile_mboxes (s : State) (t : TileId) (x : TileSt) : (s.setTile t x).mboxes = s.mboxes := rfl
@[simp] theorem State.setTile_capVersion (s : State) (t : TileId) (x : TileSt) : (s.setTile t x).capVersion = s.capVersion := rfl
@[simp] theorem State.setTile_ftc (s : State) (t : TileId) (x : TileSt) : (s.setTile t x).ftc = s.ftc := rfl
@[simp] theorem State.setTile_powered (s : State) (t : TileId) (x : TileSt) : (s.setTile t x).powered = s.powered := rfl
@[simp] theorem State.setTile_running (s : State) (t : TileId) (x : TileSt) : (s.setTile t x).running = s.running := rfl
@[simp] theorem State.setTile_modState (s : State) (t : TileId) (x : TileSt) : (s.setTile t x).modState = s.modState := rfl
@[simp] theorem State.setTile_waits (s : State) (t : TileId) (x : TileSt) : (s.setTile t x).waits = s.waits := rfl
@[simp] theorem State.setTile_out (s : State) (t : TileId) (x : TileSt) : (s.setTile t x).out = s.out := rfl
@[simp] theorem State.setTile_freeCount (s : State) (t : TileId) (x : TileSt) : (s.setTile t x).freeCount = s.freeCount := rfl
@[simp] theorem State.setTile_pending (s : State) (t : TileId) (x : TileSt) : (s.setTile t x).pending = s.pending := rfl

/-! ### setDie -/

@[simp] theorem State.setDie_mem (s : State) (d : Nat) (x : DieSt) : (s.setDie d x).mem = s.mem := rfl
@[simp] theorem State.setDie_poison (s : State) (d : Nat) (x : DieSt) : (s.setDie d x).poison = s.poison := rfl
@[simp] theorem State.setDie_sync (s : State) (d : Nat) (x : DieSt) : (s.setDie d x).sync = s.sync := rfl
@[simp] theorem State.setDie_regs (s : State) (d : Nat) (x : DieSt) : (s.setDie d x).regs = s.regs := rfl
@[simp] theorem State.setDie_tiles (s : State) (d : Nat) (x : DieSt) : (s.setDie d x).tiles = s.tiles := rfl
@[simp] theorem State.setDie_xl (s : State) (d : Nat) (x : DieSt) : (s.setDie d x).xl = s.xl := rfl
@[simp] theorem State.setDie_fences (s : State) (d : Nat) (x : DieSt) : (s.setDie d x).fences = s.fences := rfl
@[simp] theorem State.setDie_doms (s : State) (d : Nat) (x : DieSt) : (s.setDie d x).doms = s.doms := rfl
@[simp] theorem State.setDie_sy (s : State) (d : Nat) (x : DieSt) : (s.setDie d x).sy = s.sy := rfl
@[simp] theorem State.setDie_noted (s : State) (d : Nat) (x : DieSt) : (s.setDie d x).noted = s.noted := rfl
@[simp] theorem State.setDie_faults (s : State) (d : Nat) (x : DieSt) : (s.setDie d x).faults = s.faults := rfl
@[simp] theorem State.setDie_fab (s : State) (d : Nat) (x : DieSt) : (s.setDie d x).fab = s.fab := rfl
@[simp] theorem State.setDie_ue (s : State) (d : Nat) (x : DieSt) : (s.setDie d x).ue = s.ue := rfl
@[simp] theorem State.setDie_fw (s : State) (d : Nat) (x : DieSt) : (s.setDie d x).fw = s.fw := rfl
@[simp] theorem State.setDie_pwr (s : State) (d : Nat) (x : DieSt) : (s.setDie d x).pwr = s.pwr := rfl
@[simp] theorem State.setDie_svc (s : State) (d : Nat) (x : DieSt) : (s.setDie d x).svc = s.svc := rfl
@[simp] theorem State.setDie_time (s : State) (d : Nat) (x : DieSt) : (s.setDie d x).time = s.time := rfl
@[simp] theorem State.setDie_evt (s : State) (d : Nat) (x : DieSt) : (s.setDie d x).evt = s.evt := rfl
@[simp] theorem State.setDie_mboxes (s : State) (d : Nat) (x : DieSt) : (s.setDie d x).mboxes = s.mboxes := rfl
@[simp] theorem State.setDie_capVersion (s : State) (d : Nat) (x : DieSt) : (s.setDie d x).capVersion = s.capVersion := rfl
@[simp] theorem State.setDie_ftc (s : State) (d : Nat) (x : DieSt) : (s.setDie d x).ftc = s.ftc := rfl
@[simp] theorem State.setDie_powered (s : State) (d : Nat) (x : DieSt) : (s.setDie d x).powered = s.powered := rfl
@[simp] theorem State.setDie_running (s : State) (d : Nat) (x : DieSt) : (s.setDie d x).running = s.running := rfl
@[simp] theorem State.setDie_modState (s : State) (d : Nat) (x : DieSt) : (s.setDie d x).modState = s.modState := rfl
@[simp] theorem State.setDie_waits (s : State) (d : Nat) (x : DieSt) : (s.setDie d x).waits = s.waits := rfl
@[simp] theorem State.setDie_out (s : State) (d : Nat) (x : DieSt) : (s.setDie d x).out = s.out := rfl
@[simp] theorem State.setDie_freeCount (s : State) (d : Nat) (x : DieSt) : (s.setDie d x).freeCount = s.freeCount := rfl
@[simp] theorem State.setDie_pending (s : State) (d : Nat) (x : DieSt) : (s.setDie d x).pending = s.pending := rfl

/-! ### setDom -/

@[simp] theorem State.setDom_mem (s : State) (d : Fin 2) (x : DomSt) : (s.setDom d x).mem = s.mem := rfl
@[simp] theorem State.setDom_poison (s : State) (d : Fin 2) (x : DomSt) : (s.setDom d x).poison = s.poison := rfl
@[simp] theorem State.setDom_sync (s : State) (d : Fin 2) (x : DomSt) : (s.setDom d x).sync = s.sync := rfl
@[simp] theorem State.setDom_regs (s : State) (d : Fin 2) (x : DomSt) : (s.setDom d x).regs = s.regs := rfl
@[simp] theorem State.setDom_tiles (s : State) (d : Fin 2) (x : DomSt) : (s.setDom d x).tiles = s.tiles := rfl
@[simp] theorem State.setDom_dies (s : State) (d : Fin 2) (x : DomSt) : (s.setDom d x).dies = s.dies := rfl
@[simp] theorem State.setDom_xl (s : State) (d : Fin 2) (x : DomSt) : (s.setDom d x).xl = s.xl := rfl
@[simp] theorem State.setDom_fences (s : State) (d : Fin 2) (x : DomSt) : (s.setDom d x).fences = s.fences := rfl
@[simp] theorem State.setDom_sy (s : State) (d : Fin 2) (x : DomSt) : (s.setDom d x).sy = s.sy := rfl
@[simp] theorem State.setDom_noted (s : State) (d : Fin 2) (x : DomSt) : (s.setDom d x).noted = s.noted := rfl
@[simp] theorem State.setDom_faults (s : State) (d : Fin 2) (x : DomSt) : (s.setDom d x).faults = s.faults := rfl
@[simp] theorem State.setDom_fab (s : State) (d : Fin 2) (x : DomSt) : (s.setDom d x).fab = s.fab := rfl
@[simp] theorem State.setDom_ue (s : State) (d : Fin 2) (x : DomSt) : (s.setDom d x).ue = s.ue := rfl
@[simp] theorem State.setDom_fw (s : State) (d : Fin 2) (x : DomSt) : (s.setDom d x).fw = s.fw := rfl
@[simp] theorem State.setDom_pwr (s : State) (d : Fin 2) (x : DomSt) : (s.setDom d x).pwr = s.pwr := rfl
@[simp] theorem State.setDom_svc (s : State) (d : Fin 2) (x : DomSt) : (s.setDom d x).svc = s.svc := rfl
@[simp] theorem State.setDom_time (s : State) (d : Fin 2) (x : DomSt) : (s.setDom d x).time = s.time := rfl
@[simp] theorem State.setDom_evt (s : State) (d : Fin 2) (x : DomSt) : (s.setDom d x).evt = s.evt := rfl
@[simp] theorem State.setDom_mboxes (s : State) (d : Fin 2) (x : DomSt) : (s.setDom d x).mboxes = s.mboxes := rfl
@[simp] theorem State.setDom_capVersion (s : State) (d : Fin 2) (x : DomSt) : (s.setDom d x).capVersion = s.capVersion := rfl
@[simp] theorem State.setDom_ftc (s : State) (d : Fin 2) (x : DomSt) : (s.setDom d x).ftc = s.ftc := rfl
@[simp] theorem State.setDom_powered (s : State) (d : Fin 2) (x : DomSt) : (s.setDom d x).powered = s.powered := rfl
@[simp] theorem State.setDom_running (s : State) (d : Fin 2) (x : DomSt) : (s.setDom d x).running = s.running := rfl
@[simp] theorem State.setDom_modState (s : State) (d : Fin 2) (x : DomSt) : (s.setDom d x).modState = s.modState := rfl
@[simp] theorem State.setDom_waits (s : State) (d : Fin 2) (x : DomSt) : (s.setDom d x).waits = s.waits := rfl
@[simp] theorem State.setDom_out (s : State) (d : Fin 2) (x : DomSt) : (s.setDom d x).out = s.out := rfl
@[simp] theorem State.setDom_freeCount (s : State) (d : Fin 2) (x : DomSt) : (s.setDom d x).freeCount = s.freeCount := rfl
@[simp] theorem State.setDom_pending (s : State) (d : Fin 2) (x : DomSt) : (s.setDom d x).pending = s.pending := rfl

/-! ### setReg -/

@[simp] theorem State.setReg_mem (s : State) (a : Nat) (v : Word) : (s.setReg a v).mem = s.mem := rfl
@[simp] theorem State.setReg_poison (s : State) (a : Nat) (v : Word) : (s.setReg a v).poison = s.poison := rfl
@[simp] theorem State.setReg_sync (s : State) (a : Nat) (v : Word) : (s.setReg a v).sync = s.sync := rfl
@[simp] theorem State.setReg_tiles (s : State) (a : Nat) (v : Word) : (s.setReg a v).tiles = s.tiles := rfl
@[simp] theorem State.setReg_dies (s : State) (a : Nat) (v : Word) : (s.setReg a v).dies = s.dies := rfl
@[simp] theorem State.setReg_xl (s : State) (a : Nat) (v : Word) : (s.setReg a v).xl = s.xl := rfl
@[simp] theorem State.setReg_fences (s : State) (a : Nat) (v : Word) : (s.setReg a v).fences = s.fences := rfl
@[simp] theorem State.setReg_doms (s : State) (a : Nat) (v : Word) : (s.setReg a v).doms = s.doms := rfl
@[simp] theorem State.setReg_sy (s : State) (a : Nat) (v : Word) : (s.setReg a v).sy = s.sy := rfl
@[simp] theorem State.setReg_noted (s : State) (a : Nat) (v : Word) : (s.setReg a v).noted = s.noted := rfl
@[simp] theorem State.setReg_faults (s : State) (a : Nat) (v : Word) : (s.setReg a v).faults = s.faults := rfl
@[simp] theorem State.setReg_fab (s : State) (a : Nat) (v : Word) : (s.setReg a v).fab = s.fab := rfl
@[simp] theorem State.setReg_ue (s : State) (a : Nat) (v : Word) : (s.setReg a v).ue = s.ue := rfl
@[simp] theorem State.setReg_fw (s : State) (a : Nat) (v : Word) : (s.setReg a v).fw = s.fw := rfl
@[simp] theorem State.setReg_pwr (s : State) (a : Nat) (v : Word) : (s.setReg a v).pwr = s.pwr := rfl
@[simp] theorem State.setReg_svc (s : State) (a : Nat) (v : Word) : (s.setReg a v).svc = s.svc := rfl
@[simp] theorem State.setReg_time (s : State) (a : Nat) (v : Word) : (s.setReg a v).time = s.time := rfl
@[simp] theorem State.setReg_evt (s : State) (a : Nat) (v : Word) : (s.setReg a v).evt = s.evt := rfl
@[simp] theorem State.setReg_mboxes (s : State) (a : Nat) (v : Word) : (s.setReg a v).mboxes = s.mboxes := rfl
@[simp] theorem State.setReg_capVersion (s : State) (a : Nat) (v : Word) : (s.setReg a v).capVersion = s.capVersion := rfl
@[simp] theorem State.setReg_ftc (s : State) (a : Nat) (v : Word) : (s.setReg a v).ftc = s.ftc := rfl
@[simp] theorem State.setReg_powered (s : State) (a : Nat) (v : Word) : (s.setReg a v).powered = s.powered := rfl
@[simp] theorem State.setReg_running (s : State) (a : Nat) (v : Word) : (s.setReg a v).running = s.running := rfl
@[simp] theorem State.setReg_modState (s : State) (a : Nat) (v : Word) : (s.setReg a v).modState = s.modState := rfl
@[simp] theorem State.setReg_waits (s : State) (a : Nat) (v : Word) : (s.setReg a v).waits = s.waits := rfl
@[simp] theorem State.setReg_out (s : State) (a : Nat) (v : Word) : (s.setReg a v).out = s.out := rfl
@[simp] theorem State.setReg_freeCount (s : State) (a : Nat) (v : Word) : (s.setReg a v).freeCount = s.freeCount := rfl
@[simp] theorem State.setReg_pending (s : State) (a : Nat) (v : Word) : (s.setReg a v).pending = s.pending := rfl

/-! ### setField -/

@[simp] theorem State.setField_mem (s : State) (a hi lo v : Nat) : (s.setField a hi lo v).mem = s.mem := rfl
@[simp] theorem State.setField_poison (s : State) (a hi lo v : Nat) : (s.setField a hi lo v).poison = s.poison := rfl
@[simp] theorem State.setField_sync (s : State) (a hi lo v : Nat) : (s.setField a hi lo v).sync = s.sync := rfl
@[simp] theorem State.setField_tiles (s : State) (a hi lo v : Nat) : (s.setField a hi lo v).tiles = s.tiles := rfl
@[simp] theorem State.setField_dies (s : State) (a hi lo v : Nat) : (s.setField a hi lo v).dies = s.dies := rfl
@[simp] theorem State.setField_xl (s : State) (a hi lo v : Nat) : (s.setField a hi lo v).xl = s.xl := rfl
@[simp] theorem State.setField_fences (s : State) (a hi lo v : Nat) : (s.setField a hi lo v).fences = s.fences := rfl
@[simp] theorem State.setField_doms (s : State) (a hi lo v : Nat) : (s.setField a hi lo v).doms = s.doms := rfl
@[simp] theorem State.setField_sy (s : State) (a hi lo v : Nat) : (s.setField a hi lo v).sy = s.sy := rfl
@[simp] theorem State.setField_noted (s : State) (a hi lo v : Nat) : (s.setField a hi lo v).noted = s.noted := rfl
@[simp] theorem State.setField_faults (s : State) (a hi lo v : Nat) : (s.setField a hi lo v).faults = s.faults := rfl
@[simp] theorem State.setField_fab (s : State) (a hi lo v : Nat) : (s.setField a hi lo v).fab = s.fab := rfl
@[simp] theorem State.setField_ue (s : State) (a hi lo v : Nat) : (s.setField a hi lo v).ue = s.ue := rfl
@[simp] theorem State.setField_fw (s : State) (a hi lo v : Nat) : (s.setField a hi lo v).fw = s.fw := rfl
@[simp] theorem State.setField_pwr (s : State) (a hi lo v : Nat) : (s.setField a hi lo v).pwr = s.pwr := rfl
@[simp] theorem State.setField_svc (s : State) (a hi lo v : Nat) : (s.setField a hi lo v).svc = s.svc := rfl
@[simp] theorem State.setField_time (s : State) (a hi lo v : Nat) : (s.setField a hi lo v).time = s.time := rfl
@[simp] theorem State.setField_evt (s : State) (a hi lo v : Nat) : (s.setField a hi lo v).evt = s.evt := rfl
@[simp] theorem State.setField_mboxes (s : State) (a hi lo v : Nat) : (s.setField a hi lo v).mboxes = s.mboxes := rfl
@[simp] theorem State.setField_capVersion (s : State) (a hi lo v : Nat) : (s.setField a hi lo v).capVersion = s.capVersion := rfl
@[simp] theorem State.setField_ftc (s : State) (a hi lo v : Nat) : (s.setField a hi lo v).ftc = s.ftc := rfl
@[simp] theorem State.setField_powered (s : State) (a hi lo v : Nat) : (s.setField a hi lo v).powered = s.powered := rfl
@[simp] theorem State.setField_running (s : State) (a hi lo v : Nat) : (s.setField a hi lo v).running = s.running := rfl
@[simp] theorem State.setField_modState (s : State) (a hi lo v : Nat) : (s.setField a hi lo v).modState = s.modState := rfl
@[simp] theorem State.setField_waits (s : State) (a hi lo v : Nat) : (s.setField a hi lo v).waits = s.waits := rfl
@[simp] theorem State.setField_out (s : State) (a hi lo v : Nat) : (s.setField a hi lo v).out = s.out := rfl
@[simp] theorem State.setField_freeCount (s : State) (a hi lo v : Nat) : (s.setField a hi lo v).freeCount = s.freeCount := rfl
@[simp] theorem State.setField_pending (s : State) (a hi lo v : Nat) : (s.setField a hi lo v).pending = s.pending := rfl

/-! ### wait -/

@[simp] theorem State.wait_mem (s : State) (c : Instr) : (s.wait c).mem = s.mem := rfl
@[simp] theorem State.wait_poison (s : State) (c : Instr) : (s.wait c).poison = s.poison := rfl
@[simp] theorem State.wait_sync (s : State) (c : Instr) : (s.wait c).sync = s.sync := rfl
@[simp] theorem State.wait_regs (s : State) (c : Instr) : (s.wait c).regs = s.regs := rfl
@[simp] theorem State.wait_tiles (s : State) (c : Instr) : (s.wait c).tiles = s.tiles := rfl
@[simp] theorem State.wait_dies (s : State) (c : Instr) : (s.wait c).dies = s.dies := rfl
@[simp] theorem State.wait_xl (s : State) (c : Instr) : (s.wait c).xl = s.xl := rfl
@[simp] theorem State.wait_fences (s : State) (c : Instr) : (s.wait c).fences = s.fences := rfl
@[simp] theorem State.wait_doms (s : State) (c : Instr) : (s.wait c).doms = s.doms := rfl
@[simp] theorem State.wait_sy (s : State) (c : Instr) : (s.wait c).sy = s.sy := rfl
@[simp] theorem State.wait_noted (s : State) (c : Instr) : (s.wait c).noted = s.noted := rfl
@[simp] theorem State.wait_faults (s : State) (c : Instr) : (s.wait c).faults = s.faults := rfl
@[simp] theorem State.wait_fab (s : State) (c : Instr) : (s.wait c).fab = s.fab := rfl
@[simp] theorem State.wait_ue (s : State) (c : Instr) : (s.wait c).ue = s.ue := rfl
@[simp] theorem State.wait_fw (s : State) (c : Instr) : (s.wait c).fw = s.fw := rfl
@[simp] theorem State.wait_pwr (s : State) (c : Instr) : (s.wait c).pwr = s.pwr := rfl
@[simp] theorem State.wait_svc (s : State) (c : Instr) : (s.wait c).svc = s.svc := rfl
@[simp] theorem State.wait_time (s : State) (c : Instr) : (s.wait c).time = s.time := rfl
@[simp] theorem State.wait_evt (s : State) (c : Instr) : (s.wait c).evt = s.evt := rfl
@[simp] theorem State.wait_mboxes (s : State) (c : Instr) : (s.wait c).mboxes = s.mboxes := rfl
@[simp] theorem State.wait_capVersion (s : State) (c : Instr) : (s.wait c).capVersion = s.capVersion := rfl
@[simp] theorem State.wait_ftc (s : State) (c : Instr) : (s.wait c).ftc = s.ftc := rfl
@[simp] theorem State.wait_powered (s : State) (c : Instr) : (s.wait c).powered = s.powered := rfl
@[simp] theorem State.wait_running (s : State) (c : Instr) : (s.wait c).running = s.running := rfl
@[simp] theorem State.wait_modState (s : State) (c : Instr) : (s.wait c).modState = s.modState := rfl
@[simp] theorem State.wait_out (s : State) (c : Instr) : (s.wait c).out = s.out := rfl
@[simp] theorem State.wait_freeCount (s : State) (c : Instr) : (s.wait c).freeCount = s.freeCount := rfl
@[simp] theorem State.wait_pending (s : State) (c : Instr) : (s.wait c).pending = s.pending := rfl

/-! ### send -/

@[simp] theorem State.send_mem (s : State) (m : OutMsg) : (s.send m).mem = s.mem := rfl
@[simp] theorem State.send_poison (s : State) (m : OutMsg) : (s.send m).poison = s.poison := rfl
@[simp] theorem State.send_sync (s : State) (m : OutMsg) : (s.send m).sync = s.sync := rfl
@[simp] theorem State.send_regs (s : State) (m : OutMsg) : (s.send m).regs = s.regs := rfl
@[simp] theorem State.send_tiles (s : State) (m : OutMsg) : (s.send m).tiles = s.tiles := rfl
@[simp] theorem State.send_dies (s : State) (m : OutMsg) : (s.send m).dies = s.dies := rfl
@[simp] theorem State.send_xl (s : State) (m : OutMsg) : (s.send m).xl = s.xl := rfl
@[simp] theorem State.send_fences (s : State) (m : OutMsg) : (s.send m).fences = s.fences := rfl
@[simp] theorem State.send_doms (s : State) (m : OutMsg) : (s.send m).doms = s.doms := rfl
@[simp] theorem State.send_sy (s : State) (m : OutMsg) : (s.send m).sy = s.sy := rfl
@[simp] theorem State.send_noted (s : State) (m : OutMsg) : (s.send m).noted = s.noted := rfl
@[simp] theorem State.send_faults (s : State) (m : OutMsg) : (s.send m).faults = s.faults := rfl
@[simp] theorem State.send_fab (s : State) (m : OutMsg) : (s.send m).fab = s.fab := rfl
@[simp] theorem State.send_ue (s : State) (m : OutMsg) : (s.send m).ue = s.ue := rfl
@[simp] theorem State.send_fw (s : State) (m : OutMsg) : (s.send m).fw = s.fw := rfl
@[simp] theorem State.send_pwr (s : State) (m : OutMsg) : (s.send m).pwr = s.pwr := rfl
@[simp] theorem State.send_svc (s : State) (m : OutMsg) : (s.send m).svc = s.svc := rfl
@[simp] theorem State.send_time (s : State) (m : OutMsg) : (s.send m).time = s.time := rfl
@[simp] theorem State.send_evt (s : State) (m : OutMsg) : (s.send m).evt = s.evt := rfl
@[simp] theorem State.send_mboxes (s : State) (m : OutMsg) : (s.send m).mboxes = s.mboxes := rfl
@[simp] theorem State.send_capVersion (s : State) (m : OutMsg) : (s.send m).capVersion = s.capVersion := rfl
@[simp] theorem State.send_ftc (s : State) (m : OutMsg) : (s.send m).ftc = s.ftc := rfl
@[simp] theorem State.send_powered (s : State) (m : OutMsg) : (s.send m).powered = s.powered := rfl
@[simp] theorem State.send_running (s : State) (m : OutMsg) : (s.send m).running = s.running := rfl
@[simp] theorem State.send_modState (s : State) (m : OutMsg) : (s.send m).modState = s.modState := rfl
@[simp] theorem State.send_waits (s : State) (m : OutMsg) : (s.send m).waits = s.waits := rfl
@[simp] theorem State.send_freeCount (s : State) (m : OutMsg) : (s.send m).freeCount = s.freeCount := rfl
@[simp] theorem State.send_pending (s : State) (m : OutMsg) : (s.send m).pending = s.pending := rfl

/-! ### capBump -/

@[simp] theorem State.capBump_mem (s : State) : (s.capBump).mem = s.mem := rfl
@[simp] theorem State.capBump_poison (s : State) : (s.capBump).poison = s.poison := rfl
@[simp] theorem State.capBump_sync (s : State) : (s.capBump).sync = s.sync := rfl
@[simp] theorem State.capBump_regs (s : State) : (s.capBump).regs = s.regs := rfl
@[simp] theorem State.capBump_tiles (s : State) : (s.capBump).tiles = s.tiles := rfl
@[simp] theorem State.capBump_dies (s : State) : (s.capBump).dies = s.dies := rfl
@[simp] theorem State.capBump_xl (s : State) : (s.capBump).xl = s.xl := rfl
@[simp] theorem State.capBump_fences (s : State) : (s.capBump).fences = s.fences := rfl
@[simp] theorem State.capBump_doms (s : State) : (s.capBump).doms = s.doms := rfl
@[simp] theorem State.capBump_sy (s : State) : (s.capBump).sy = s.sy := rfl
@[simp] theorem State.capBump_noted (s : State) : (s.capBump).noted = s.noted := rfl
@[simp] theorem State.capBump_faults (s : State) : (s.capBump).faults = s.faults := rfl
@[simp] theorem State.capBump_fab (s : State) : (s.capBump).fab = s.fab := rfl
@[simp] theorem State.capBump_ue (s : State) : (s.capBump).ue = s.ue := rfl
@[simp] theorem State.capBump_fw (s : State) : (s.capBump).fw = s.fw := rfl
@[simp] theorem State.capBump_pwr (s : State) : (s.capBump).pwr = s.pwr := rfl
@[simp] theorem State.capBump_svc (s : State) : (s.capBump).svc = s.svc := rfl
@[simp] theorem State.capBump_time (s : State) : (s.capBump).time = s.time := rfl
@[simp] theorem State.capBump_evt (s : State) : (s.capBump).evt = s.evt := rfl
@[simp] theorem State.capBump_mboxes (s : State) : (s.capBump).mboxes = s.mboxes := rfl
@[simp] theorem State.capBump_ftc (s : State) : (s.capBump).ftc = s.ftc := rfl
@[simp] theorem State.capBump_powered (s : State) : (s.capBump).powered = s.powered := rfl
@[simp] theorem State.capBump_running (s : State) : (s.capBump).running = s.running := rfl
@[simp] theorem State.capBump_modState (s : State) : (s.capBump).modState = s.modState := rfl
@[simp] theorem State.capBump_waits (s : State) : (s.capBump).waits = s.waits := rfl
@[simp] theorem State.capBump_out (s : State) : (s.capBump).out = s.out := rfl
@[simp] theorem State.capBump_freeCount (s : State) : (s.capBump).freeCount = s.freeCount := rfl
@[simp] theorem State.capBump_pending (s : State) : (s.capBump).pending = s.pending := rfl

/-! ### setSeq -/

@[simp] theorem State.setSeq_mem (s : State) (t : TileId) (q : SeqSt) : (s.setSeq t q).mem = s.mem := rfl
@[simp] theorem State.setSeq_poison (s : State) (t : TileId) (q : SeqSt) : (s.setSeq t q).poison = s.poison := rfl
@[simp] theorem State.setSeq_sync (s : State) (t : TileId) (q : SeqSt) : (s.setSeq t q).sync = s.sync := rfl
@[simp] theorem State.setSeq_regs (s : State) (t : TileId) (q : SeqSt) : (s.setSeq t q).regs = s.regs := rfl
@[simp] theorem State.setSeq_dies (s : State) (t : TileId) (q : SeqSt) : (s.setSeq t q).dies = s.dies := rfl
@[simp] theorem State.setSeq_xl (s : State) (t : TileId) (q : SeqSt) : (s.setSeq t q).xl = s.xl := rfl
@[simp] theorem State.setSeq_fences (s : State) (t : TileId) (q : SeqSt) : (s.setSeq t q).fences = s.fences := rfl
@[simp] theorem State.setSeq_doms (s : State) (t : TileId) (q : SeqSt) : (s.setSeq t q).doms = s.doms := rfl
@[simp] theorem State.setSeq_sy (s : State) (t : TileId) (q : SeqSt) : (s.setSeq t q).sy = s.sy := rfl
@[simp] theorem State.setSeq_noted (s : State) (t : TileId) (q : SeqSt) : (s.setSeq t q).noted = s.noted := rfl
@[simp] theorem State.setSeq_faults (s : State) (t : TileId) (q : SeqSt) : (s.setSeq t q).faults = s.faults := rfl
@[simp] theorem State.setSeq_fab (s : State) (t : TileId) (q : SeqSt) : (s.setSeq t q).fab = s.fab := rfl
@[simp] theorem State.setSeq_ue (s : State) (t : TileId) (q : SeqSt) : (s.setSeq t q).ue = s.ue := rfl
@[simp] theorem State.setSeq_fw (s : State) (t : TileId) (q : SeqSt) : (s.setSeq t q).fw = s.fw := rfl
@[simp] theorem State.setSeq_pwr (s : State) (t : TileId) (q : SeqSt) : (s.setSeq t q).pwr = s.pwr := rfl
@[simp] theorem State.setSeq_svc (s : State) (t : TileId) (q : SeqSt) : (s.setSeq t q).svc = s.svc := rfl
@[simp] theorem State.setSeq_time (s : State) (t : TileId) (q : SeqSt) : (s.setSeq t q).time = s.time := rfl
@[simp] theorem State.setSeq_evt (s : State) (t : TileId) (q : SeqSt) : (s.setSeq t q).evt = s.evt := rfl
@[simp] theorem State.setSeq_mboxes (s : State) (t : TileId) (q : SeqSt) : (s.setSeq t q).mboxes = s.mboxes := rfl
@[simp] theorem State.setSeq_capVersion (s : State) (t : TileId) (q : SeqSt) : (s.setSeq t q).capVersion = s.capVersion := rfl
@[simp] theorem State.setSeq_ftc (s : State) (t : TileId) (q : SeqSt) : (s.setSeq t q).ftc = s.ftc := rfl
@[simp] theorem State.setSeq_powered (s : State) (t : TileId) (q : SeqSt) : (s.setSeq t q).powered = s.powered := rfl
@[simp] theorem State.setSeq_running (s : State) (t : TileId) (q : SeqSt) : (s.setSeq t q).running = s.running := rfl
@[simp] theorem State.setSeq_modState (s : State) (t : TileId) (q : SeqSt) : (s.setSeq t q).modState = s.modState := rfl
@[simp] theorem State.setSeq_waits (s : State) (t : TileId) (q : SeqSt) : (s.setSeq t q).waits = s.waits := rfl
@[simp] theorem State.setSeq_out (s : State) (t : TileId) (q : SeqSt) : (s.setSeq t q).out = s.out := rfl
@[simp] theorem State.setSeq_freeCount (s : State) (t : TileId) (q : SeqSt) : (s.setSeq t q).freeCount = s.freeCount := rfl
@[simp] theorem State.setSeq_pending (s : State) (t : TileId) (q : SeqSt) : (s.setSeq t q).pending = s.pending := rfl

/-! ### setTge -/

@[simp] theorem State.setTge_mem (s : State) (t : TileId) (x : TgeSt) : (s.setTge t x).mem = s.mem := rfl
@[simp] theorem State.setTge_poison (s : State) (t : TileId) (x : TgeSt) : (s.setTge t x).poison = s.poison := rfl
@[simp] theorem State.setTge_sync (s : State) (t : TileId) (x : TgeSt) : (s.setTge t x).sync = s.sync := rfl
@[simp] theorem State.setTge_regs (s : State) (t : TileId) (x : TgeSt) : (s.setTge t x).regs = s.regs := rfl
@[simp] theorem State.setTge_dies (s : State) (t : TileId) (x : TgeSt) : (s.setTge t x).dies = s.dies := rfl
@[simp] theorem State.setTge_xl (s : State) (t : TileId) (x : TgeSt) : (s.setTge t x).xl = s.xl := rfl
@[simp] theorem State.setTge_fences (s : State) (t : TileId) (x : TgeSt) : (s.setTge t x).fences = s.fences := rfl
@[simp] theorem State.setTge_doms (s : State) (t : TileId) (x : TgeSt) : (s.setTge t x).doms = s.doms := rfl
@[simp] theorem State.setTge_sy (s : State) (t : TileId) (x : TgeSt) : (s.setTge t x).sy = s.sy := rfl
@[simp] theorem State.setTge_noted (s : State) (t : TileId) (x : TgeSt) : (s.setTge t x).noted = s.noted := rfl
@[simp] theorem State.setTge_faults (s : State) (t : TileId) (x : TgeSt) : (s.setTge t x).faults = s.faults := rfl
@[simp] theorem State.setTge_fab (s : State) (t : TileId) (x : TgeSt) : (s.setTge t x).fab = s.fab := rfl
@[simp] theorem State.setTge_ue (s : State) (t : TileId) (x : TgeSt) : (s.setTge t x).ue = s.ue := rfl
@[simp] theorem State.setTge_fw (s : State) (t : TileId) (x : TgeSt) : (s.setTge t x).fw = s.fw := rfl
@[simp] theorem State.setTge_pwr (s : State) (t : TileId) (x : TgeSt) : (s.setTge t x).pwr = s.pwr := rfl
@[simp] theorem State.setTge_svc (s : State) (t : TileId) (x : TgeSt) : (s.setTge t x).svc = s.svc := rfl
@[simp] theorem State.setTge_time (s : State) (t : TileId) (x : TgeSt) : (s.setTge t x).time = s.time := rfl
@[simp] theorem State.setTge_evt (s : State) (t : TileId) (x : TgeSt) : (s.setTge t x).evt = s.evt := rfl
@[simp] theorem State.setTge_mboxes (s : State) (t : TileId) (x : TgeSt) : (s.setTge t x).mboxes = s.mboxes := rfl
@[simp] theorem State.setTge_capVersion (s : State) (t : TileId) (x : TgeSt) : (s.setTge t x).capVersion = s.capVersion := rfl
@[simp] theorem State.setTge_ftc (s : State) (t : TileId) (x : TgeSt) : (s.setTge t x).ftc = s.ftc := rfl
@[simp] theorem State.setTge_powered (s : State) (t : TileId) (x : TgeSt) : (s.setTge t x).powered = s.powered := rfl
@[simp] theorem State.setTge_running (s : State) (t : TileId) (x : TgeSt) : (s.setTge t x).running = s.running := rfl
@[simp] theorem State.setTge_modState (s : State) (t : TileId) (x : TgeSt) : (s.setTge t x).modState = s.modState := rfl
@[simp] theorem State.setTge_waits (s : State) (t : TileId) (x : TgeSt) : (s.setTge t x).waits = s.waits := rfl
@[simp] theorem State.setTge_out (s : State) (t : TileId) (x : TgeSt) : (s.setTge t x).out = s.out := rfl
@[simp] theorem State.setTge_freeCount (s : State) (t : TileId) (x : TgeSt) : (s.setTge t x).freeCount = s.freeCount := rfl
@[simp] theorem State.setTge_pending (s : State) (t : TileId) (x : TgeSt) : (s.setTge t x).pending = s.pending := rfl

/-! ### setMxa -/

@[simp] theorem State.setMxa_mem (s : State) (t : TileId) (x : MxaSt) : (s.setMxa t x).mem = s.mem := rfl
@[simp] theorem State.setMxa_poison (s : State) (t : TileId) (x : MxaSt) : (s.setMxa t x).poison = s.poison := rfl
@[simp] theorem State.setMxa_sync (s : State) (t : TileId) (x : MxaSt) : (s.setMxa t x).sync = s.sync := rfl
@[simp] theorem State.setMxa_regs (s : State) (t : TileId) (x : MxaSt) : (s.setMxa t x).regs = s.regs := rfl
@[simp] theorem State.setMxa_dies (s : State) (t : TileId) (x : MxaSt) : (s.setMxa t x).dies = s.dies := rfl
@[simp] theorem State.setMxa_xl (s : State) (t : TileId) (x : MxaSt) : (s.setMxa t x).xl = s.xl := rfl
@[simp] theorem State.setMxa_fences (s : State) (t : TileId) (x : MxaSt) : (s.setMxa t x).fences = s.fences := rfl
@[simp] theorem State.setMxa_doms (s : State) (t : TileId) (x : MxaSt) : (s.setMxa t x).doms = s.doms := rfl
@[simp] theorem State.setMxa_sy (s : State) (t : TileId) (x : MxaSt) : (s.setMxa t x).sy = s.sy := rfl
@[simp] theorem State.setMxa_noted (s : State) (t : TileId) (x : MxaSt) : (s.setMxa t x).noted = s.noted := rfl
@[simp] theorem State.setMxa_faults (s : State) (t : TileId) (x : MxaSt) : (s.setMxa t x).faults = s.faults := rfl
@[simp] theorem State.setMxa_fab (s : State) (t : TileId) (x : MxaSt) : (s.setMxa t x).fab = s.fab := rfl
@[simp] theorem State.setMxa_ue (s : State) (t : TileId) (x : MxaSt) : (s.setMxa t x).ue = s.ue := rfl
@[simp] theorem State.setMxa_fw (s : State) (t : TileId) (x : MxaSt) : (s.setMxa t x).fw = s.fw := rfl
@[simp] theorem State.setMxa_pwr (s : State) (t : TileId) (x : MxaSt) : (s.setMxa t x).pwr = s.pwr := rfl
@[simp] theorem State.setMxa_svc (s : State) (t : TileId) (x : MxaSt) : (s.setMxa t x).svc = s.svc := rfl
@[simp] theorem State.setMxa_time (s : State) (t : TileId) (x : MxaSt) : (s.setMxa t x).time = s.time := rfl
@[simp] theorem State.setMxa_evt (s : State) (t : TileId) (x : MxaSt) : (s.setMxa t x).evt = s.evt := rfl
@[simp] theorem State.setMxa_mboxes (s : State) (t : TileId) (x : MxaSt) : (s.setMxa t x).mboxes = s.mboxes := rfl
@[simp] theorem State.setMxa_capVersion (s : State) (t : TileId) (x : MxaSt) : (s.setMxa t x).capVersion = s.capVersion := rfl
@[simp] theorem State.setMxa_ftc (s : State) (t : TileId) (x : MxaSt) : (s.setMxa t x).ftc = s.ftc := rfl
@[simp] theorem State.setMxa_powered (s : State) (t : TileId) (x : MxaSt) : (s.setMxa t x).powered = s.powered := rfl
@[simp] theorem State.setMxa_running (s : State) (t : TileId) (x : MxaSt) : (s.setMxa t x).running = s.running := rfl
@[simp] theorem State.setMxa_modState (s : State) (t : TileId) (x : MxaSt) : (s.setMxa t x).modState = s.modState := rfl
@[simp] theorem State.setMxa_waits (s : State) (t : TileId) (x : MxaSt) : (s.setMxa t x).waits = s.waits := rfl
@[simp] theorem State.setMxa_out (s : State) (t : TileId) (x : MxaSt) : (s.setMxa t x).out = s.out := rfl
@[simp] theorem State.setMxa_freeCount (s : State) (t : TileId) (x : MxaSt) : (s.setMxa t x).freeCount = s.freeCount := rfl
@[simp] theorem State.setMxa_pending (s : State) (t : TileId) (x : MxaSt) : (s.setMxa t x).pending = s.pending := rfl

/-! ### setSync -/

@[simp] theorem State.setSync_mem (s : State) (g : Nat) (w : Word) : (s.setSync g w).mem = s.mem := rfl
@[simp] theorem State.setSync_poison (s : State) (g : Nat) (w : Word) : (s.setSync g w).poison = s.poison := rfl
@[simp] theorem State.setSync_regs (s : State) (g : Nat) (w : Word) : (s.setSync g w).regs = s.regs := rfl
@[simp] theorem State.setSync_tiles (s : State) (g : Nat) (w : Word) : (s.setSync g w).tiles = s.tiles := rfl
@[simp] theorem State.setSync_dies (s : State) (g : Nat) (w : Word) : (s.setSync g w).dies = s.dies := rfl
@[simp] theorem State.setSync_xl (s : State) (g : Nat) (w : Word) : (s.setSync g w).xl = s.xl := rfl
@[simp] theorem State.setSync_fences (s : State) (g : Nat) (w : Word) : (s.setSync g w).fences = s.fences := rfl
@[simp] theorem State.setSync_doms (s : State) (g : Nat) (w : Word) : (s.setSync g w).doms = s.doms := rfl
@[simp] theorem State.setSync_sy (s : State) (g : Nat) (w : Word) : (s.setSync g w).sy = s.sy := rfl
@[simp] theorem State.setSync_noted (s : State) (g : Nat) (w : Word) : (s.setSync g w).noted = s.noted := rfl
@[simp] theorem State.setSync_faults (s : State) (g : Nat) (w : Word) : (s.setSync g w).faults = s.faults := rfl
@[simp] theorem State.setSync_fab (s : State) (g : Nat) (w : Word) : (s.setSync g w).fab = s.fab := rfl
@[simp] theorem State.setSync_ue (s : State) (g : Nat) (w : Word) : (s.setSync g w).ue = s.ue := rfl
@[simp] theorem State.setSync_fw (s : State) (g : Nat) (w : Word) : (s.setSync g w).fw = s.fw := rfl
@[simp] theorem State.setSync_pwr (s : State) (g : Nat) (w : Word) : (s.setSync g w).pwr = s.pwr := rfl
@[simp] theorem State.setSync_svc (s : State) (g : Nat) (w : Word) : (s.setSync g w).svc = s.svc := rfl
@[simp] theorem State.setSync_time (s : State) (g : Nat) (w : Word) : (s.setSync g w).time = s.time := rfl
@[simp] theorem State.setSync_evt (s : State) (g : Nat) (w : Word) : (s.setSync g w).evt = s.evt := rfl
@[simp] theorem State.setSync_mboxes (s : State) (g : Nat) (w : Word) : (s.setSync g w).mboxes = s.mboxes := rfl
@[simp] theorem State.setSync_capVersion (s : State) (g : Nat) (w : Word) : (s.setSync g w).capVersion = s.capVersion := rfl
@[simp] theorem State.setSync_ftc (s : State) (g : Nat) (w : Word) : (s.setSync g w).ftc = s.ftc := rfl
@[simp] theorem State.setSync_powered (s : State) (g : Nat) (w : Word) : (s.setSync g w).powered = s.powered := rfl
@[simp] theorem State.setSync_running (s : State) (g : Nat) (w : Word) : (s.setSync g w).running = s.running := rfl
@[simp] theorem State.setSync_modState (s : State) (g : Nat) (w : Word) : (s.setSync g w).modState = s.modState := rfl
@[simp] theorem State.setSync_waits (s : State) (g : Nat) (w : Word) : (s.setSync g w).waits = s.waits := rfl
@[simp] theorem State.setSync_out (s : State) (g : Nat) (w : Word) : (s.setSync g w).out = s.out := rfl
@[simp] theorem State.setSync_freeCount (s : State) (g : Nat) (w : Word) : (s.setSync g w).freeCount = s.freeCount := rfl
@[simp] theorem State.setSync_pending (s : State) (g : Nat) (w : Word) : (s.setSync g w).pending = s.pending := rfl

/-! ### setHome -/

@[simp] theorem State.setHome_mem (s : State) (d : Nat) (h : SyncHome) : (s.setHome d h).mem = s.mem := rfl
@[simp] theorem State.setHome_poison (s : State) (d : Nat) (h : SyncHome) : (s.setHome d h).poison = s.poison := rfl
@[simp] theorem State.setHome_sync (s : State) (d : Nat) (h : SyncHome) : (s.setHome d h).sync = s.sync := rfl
@[simp] theorem State.setHome_regs (s : State) (d : Nat) (h : SyncHome) : (s.setHome d h).regs = s.regs := rfl
@[simp] theorem State.setHome_tiles (s : State) (d : Nat) (h : SyncHome) : (s.setHome d h).tiles = s.tiles := rfl
@[simp] theorem State.setHome_dies (s : State) (d : Nat) (h : SyncHome) : (s.setHome d h).dies = s.dies := rfl
@[simp] theorem State.setHome_xl (s : State) (d : Nat) (h : SyncHome) : (s.setHome d h).xl = s.xl := rfl
@[simp] theorem State.setHome_fences (s : State) (d : Nat) (h : SyncHome) : (s.setHome d h).fences = s.fences := rfl
@[simp] theorem State.setHome_doms (s : State) (d : Nat) (h : SyncHome) : (s.setHome d h).doms = s.doms := rfl
@[simp] theorem State.setHome_noted (s : State) (d : Nat) (h : SyncHome) : (s.setHome d h).noted = s.noted := rfl
@[simp] theorem State.setHome_faults (s : State) (d : Nat) (h : SyncHome) : (s.setHome d h).faults = s.faults := rfl
@[simp] theorem State.setHome_fab (s : State) (d : Nat) (h : SyncHome) : (s.setHome d h).fab = s.fab := rfl
@[simp] theorem State.setHome_ue (s : State) (d : Nat) (h : SyncHome) : (s.setHome d h).ue = s.ue := rfl
@[simp] theorem State.setHome_fw (s : State) (d : Nat) (h : SyncHome) : (s.setHome d h).fw = s.fw := rfl
@[simp] theorem State.setHome_pwr (s : State) (d : Nat) (h : SyncHome) : (s.setHome d h).pwr = s.pwr := rfl
@[simp] theorem State.setHome_svc (s : State) (d : Nat) (h : SyncHome) : (s.setHome d h).svc = s.svc := rfl
@[simp] theorem State.setHome_time (s : State) (d : Nat) (h : SyncHome) : (s.setHome d h).time = s.time := rfl
@[simp] theorem State.setHome_evt (s : State) (d : Nat) (h : SyncHome) : (s.setHome d h).evt = s.evt := rfl
@[simp] theorem State.setHome_mboxes (s : State) (d : Nat) (h : SyncHome) : (s.setHome d h).mboxes = s.mboxes := rfl
@[simp] theorem State.setHome_capVersion (s : State) (d : Nat) (h : SyncHome) : (s.setHome d h).capVersion = s.capVersion := rfl
@[simp] theorem State.setHome_ftc (s : State) (d : Nat) (h : SyncHome) : (s.setHome d h).ftc = s.ftc := rfl
@[simp] theorem State.setHome_powered (s : State) (d : Nat) (h : SyncHome) : (s.setHome d h).powered = s.powered := rfl
@[simp] theorem State.setHome_running (s : State) (d : Nat) (h : SyncHome) : (s.setHome d h).running = s.running := rfl
@[simp] theorem State.setHome_modState (s : State) (d : Nat) (h : SyncHome) : (s.setHome d h).modState = s.modState := rfl
@[simp] theorem State.setHome_waits (s : State) (d : Nat) (h : SyncHome) : (s.setHome d h).waits = s.waits := rfl
@[simp] theorem State.setHome_out (s : State) (d : Nat) (h : SyncHome) : (s.setHome d h).out = s.out := rfl
@[simp] theorem State.setHome_freeCount (s : State) (d : Nat) (h : SyncHome) : (s.setHome d h).freeCount = s.freeCount := rfl
@[simp] theorem State.setHome_pending (s : State) (d : Nat) (h : SyncHome) : (s.setHome d h).pending = s.pending := rfl

/-! ### setCluster -/

@[simp] theorem State.setCluster_mem (s : State) (f : Nat) (x : UeSt) : (s.setCluster f x).mem = s.mem := rfl
@[simp] theorem State.setCluster_poison (s : State) (f : Nat) (x : UeSt) : (s.setCluster f x).poison = s.poison := rfl
@[simp] theorem State.setCluster_sync (s : State) (f : Nat) (x : UeSt) : (s.setCluster f x).sync = s.sync := rfl
@[simp] theorem State.setCluster_regs (s : State) (f : Nat) (x : UeSt) : (s.setCluster f x).regs = s.regs := rfl
@[simp] theorem State.setCluster_tiles (s : State) (f : Nat) (x : UeSt) : (s.setCluster f x).tiles = s.tiles := rfl
@[simp] theorem State.setCluster_dies (s : State) (f : Nat) (x : UeSt) : (s.setCluster f x).dies = s.dies := rfl
@[simp] theorem State.setCluster_xl (s : State) (f : Nat) (x : UeSt) : (s.setCluster f x).xl = s.xl := rfl
@[simp] theorem State.setCluster_fences (s : State) (f : Nat) (x : UeSt) : (s.setCluster f x).fences = s.fences := rfl
@[simp] theorem State.setCluster_doms (s : State) (f : Nat) (x : UeSt) : (s.setCluster f x).doms = s.doms := rfl
@[simp] theorem State.setCluster_sy (s : State) (f : Nat) (x : UeSt) : (s.setCluster f x).sy = s.sy := rfl
@[simp] theorem State.setCluster_noted (s : State) (f : Nat) (x : UeSt) : (s.setCluster f x).noted = s.noted := rfl
@[simp] theorem State.setCluster_faults (s : State) (f : Nat) (x : UeSt) : (s.setCluster f x).faults = s.faults := rfl
@[simp] theorem State.setCluster_fab (s : State) (f : Nat) (x : UeSt) : (s.setCluster f x).fab = s.fab := rfl
@[simp] theorem State.setCluster_fw (s : State) (f : Nat) (x : UeSt) : (s.setCluster f x).fw = s.fw := rfl
@[simp] theorem State.setCluster_pwr (s : State) (f : Nat) (x : UeSt) : (s.setCluster f x).pwr = s.pwr := rfl
@[simp] theorem State.setCluster_svc (s : State) (f : Nat) (x : UeSt) : (s.setCluster f x).svc = s.svc := rfl
@[simp] theorem State.setCluster_time (s : State) (f : Nat) (x : UeSt) : (s.setCluster f x).time = s.time := rfl
@[simp] theorem State.setCluster_evt (s : State) (f : Nat) (x : UeSt) : (s.setCluster f x).evt = s.evt := rfl
@[simp] theorem State.setCluster_mboxes (s : State) (f : Nat) (x : UeSt) : (s.setCluster f x).mboxes = s.mboxes := rfl
@[simp] theorem State.setCluster_capVersion (s : State) (f : Nat) (x : UeSt) : (s.setCluster f x).capVersion = s.capVersion := rfl
@[simp] theorem State.setCluster_ftc (s : State) (f : Nat) (x : UeSt) : (s.setCluster f x).ftc = s.ftc := rfl
@[simp] theorem State.setCluster_powered (s : State) (f : Nat) (x : UeSt) : (s.setCluster f x).powered = s.powered := rfl
@[simp] theorem State.setCluster_running (s : State) (f : Nat) (x : UeSt) : (s.setCluster f x).running = s.running := rfl
@[simp] theorem State.setCluster_modState (s : State) (f : Nat) (x : UeSt) : (s.setCluster f x).modState = s.modState := rfl
@[simp] theorem State.setCluster_waits (s : State) (f : Nat) (x : UeSt) : (s.setCluster f x).waits = s.waits := rfl
@[simp] theorem State.setCluster_out (s : State) (f : Nat) (x : UeSt) : (s.setCluster f x).out = s.out := rfl
@[simp] theorem State.setCluster_freeCount (s : State) (f : Nat) (x : UeSt) : (s.setCluster f x).freeCount = s.freeCount := rfl
@[simp] theorem State.setCluster_pending (s : State) (f : Nat) (x : UeSt) : (s.setCluster f x).pending = s.pending := rfl

/-! ### bump -/

@[simp] theorem State.bump_mem (s : State) (a n : Nat) : (s.bump a n).mem = s.mem := by
  unfold State.bump; split <;> rfl
@[simp] theorem State.bump_poison (s : State) (a n : Nat) : (s.bump a n).poison = s.poison := by
  unfold State.bump; split <;> rfl
@[simp] theorem State.bump_sync (s : State) (a n : Nat) : (s.bump a n).sync = s.sync := by
  unfold State.bump; split <;> rfl
@[simp] theorem State.bump_tiles (s : State) (a n : Nat) : (s.bump a n).tiles = s.tiles := by
  unfold State.bump; split <;> rfl
@[simp] theorem State.bump_dies (s : State) (a n : Nat) : (s.bump a n).dies = s.dies := by
  unfold State.bump; split <;> rfl
@[simp] theorem State.bump_xl (s : State) (a n : Nat) : (s.bump a n).xl = s.xl := by
  unfold State.bump; split <;> rfl
@[simp] theorem State.bump_fences (s : State) (a n : Nat) : (s.bump a n).fences = s.fences := by
  unfold State.bump; split <;> rfl
@[simp] theorem State.bump_doms (s : State) (a n : Nat) : (s.bump a n).doms = s.doms := by
  unfold State.bump; split <;> rfl
@[simp] theorem State.bump_sy (s : State) (a n : Nat) : (s.bump a n).sy = s.sy := by
  unfold State.bump; split <;> rfl
@[simp] theorem State.bump_noted (s : State) (a n : Nat) : (s.bump a n).noted = s.noted := by
  unfold State.bump; split <;> rfl
@[simp] theorem State.bump_faults (s : State) (a n : Nat) : (s.bump a n).faults = s.faults := by
  unfold State.bump; split <;> rfl
@[simp] theorem State.bump_fab (s : State) (a n : Nat) : (s.bump a n).fab = s.fab := by
  unfold State.bump; split <;> rfl
@[simp] theorem State.bump_ue (s : State) (a n : Nat) : (s.bump a n).ue = s.ue := by
  unfold State.bump; split <;> rfl
@[simp] theorem State.bump_fw (s : State) (a n : Nat) : (s.bump a n).fw = s.fw := by
  unfold State.bump; split <;> rfl
@[simp] theorem State.bump_pwr (s : State) (a n : Nat) : (s.bump a n).pwr = s.pwr := by
  unfold State.bump; split <;> rfl
@[simp] theorem State.bump_svc (s : State) (a n : Nat) : (s.bump a n).svc = s.svc := by
  unfold State.bump; split <;> rfl
@[simp] theorem State.bump_time (s : State) (a n : Nat) : (s.bump a n).time = s.time := by
  unfold State.bump; split <;> rfl
@[simp] theorem State.bump_evt (s : State) (a n : Nat) : (s.bump a n).evt = s.evt := by
  unfold State.bump; split <;> rfl
@[simp] theorem State.bump_mboxes (s : State) (a n : Nat) : (s.bump a n).mboxes = s.mboxes := by
  unfold State.bump; split <;> rfl
@[simp] theorem State.bump_capVersion (s : State) (a n : Nat) : (s.bump a n).capVersion = s.capVersion := by
  unfold State.bump; split <;> rfl
@[simp] theorem State.bump_ftc (s : State) (a n : Nat) : (s.bump a n).ftc = s.ftc := by
  unfold State.bump; split <;> rfl
@[simp] theorem State.bump_powered (s : State) (a n : Nat) : (s.bump a n).powered = s.powered := by
  unfold State.bump; split <;> rfl
@[simp] theorem State.bump_running (s : State) (a n : Nat) : (s.bump a n).running = s.running := by
  unfold State.bump; split <;> rfl
@[simp] theorem State.bump_modState (s : State) (a n : Nat) : (s.bump a n).modState = s.modState := by
  unfold State.bump; split <;> rfl
@[simp] theorem State.bump_waits (s : State) (a n : Nat) : (s.bump a n).waits = s.waits := by
  unfold State.bump; split <;> rfl
@[simp] theorem State.bump_out (s : State) (a n : Nat) : (s.bump a n).out = s.out := by
  unfold State.bump; split <;> rfl
@[simp] theorem State.bump_freeCount (s : State) (a n : Nat) : (s.bump a n).freeCount = s.freeCount := by
  unfold State.bump; split <;> rfl
@[simp] theorem State.bump_pending (s : State) (a n : Nat) : (s.bump a n).pending = s.pending := by
  unfold State.bump; split <;> rfl

/-! ### What is written -/

@[simp] theorem State.setTile_tile_self (s : State) (t : TileId) (x : TileSt) : (s.setTile t x).tile t = x :=
  mapGet_mapSet_self _ _ _ _

theorem State.setTile_tile_ne (s : State) {t k : TileId} (x : TileSt) (h : k ≠ t) :
    (s.setTile t x).tile k = s.tile k :=
  mapGet_mapSet_ne _ _ _ _ fun e => h (Fin.ext e)

@[simp] theorem State.setReg_reg_self (s : State) (a : Nat) (v : Word) : (s.setReg a v).reg a = v :=
  mapGet_mapSet_self _ _ _ _

theorem State.setReg_reg_ne (s : State) {a b : Nat} (v : Word) (h : b ≠ a) : (s.setReg a v).reg b = s.reg b :=
  mapGet_mapSet_ne _ _ _ _ h

@[simp] theorem State.setDie_die_self (s : State) (d : Nat) (x : DieSt) : (s.setDie d x).die d = x :=
  mapGet_mapSet_self _ _ _ _

theorem State.setDie_die_ne (s : State) {d e : Nat} (x : DieSt) (h : e ≠ d) : (s.setDie d x).die e = s.die e :=
  mapGet_mapSet_ne _ _ _ _ h

@[simp] theorem State.setDom_dom_self (s : State) (d : Fin 2) (x : DomSt) : (s.setDom d x).dom d = x :=
  mapGet_mapSet_self _ _ _ _

theorem State.setDom_dom_ne (s : State) {d e : Fin 2} (x : DomSt) (h : e ≠ d) : (s.setDom d x).dom e = s.dom e :=
  mapGet_mapSet_ne _ _ _ _ fun k => h (Fin.ext k)

@[simp] theorem State.setSync_syncWord_self (s : State) (g : Nat) (w : Word) : (s.setSync g w).syncWord g = w :=
  mapGet_mapSet_self _ _ _ _

theorem State.setSync_syncWord_ne (s : State) {g h : Nat} (w : Word) (n : h ≠ g) :
    (s.setSync g w).syncWord h = s.syncWord h :=
  mapGet_mapSet_ne _ _ _ _ n

@[simp] theorem State.setHome_home_self (s : State) (d : Nat) (x : SyncHome) : (s.setHome d x).home d = x :=
  mapGet_mapSet_self _ _ _ _

@[simp] theorem State.setCluster_cluster_self (s : State) (f : Nat) (x : UeSt) : (s.setCluster f x).cluster f = x :=
  mapGet_mapSet_self _ _ _ _

theorem State.setField_reg_self (s : State) (a hi lo v : Nat) :
    (s.setField a hi lo v).reg a = putBits (s.reg a) hi lo v :=
  mapGet_mapSet_self _ _ _ _

theorem State.setField_reg_ne (s : State) {a b : Nat} (hi lo v : Nat) (h : b ≠ a) :
    (s.setField a hi lo v).reg b = s.reg b :=
  mapGet_mapSet_ne _ _ _ _ h

theorem State.bump_reg_self (s : State) (a n : Nat) : (s.bump a n).reg a = s.reg a + BitVec.ofNat 64 n := by
  unfold State.bump
  split
  · next h => subst h; simp
  · simp

theorem State.bump_reg_ne (s : State) {a b : Nat} (n : Nat) (h : b ≠ a) : (s.bump a n).reg b = s.reg b := by
  unfold State.bump
  split
  · rfl
  · exact State.setReg_reg_ne s _ h

/-! ### Accessors that an update leaves alone -/

@[simp] theorem State.setTile_die (s : State) (t : TileId) (x : TileSt) (k : Nat) : (s.setTile t x).die k = s.die k := rfl
@[simp] theorem State.setTile_dom (s : State) (t : TileId) (x : TileSt) (k : Fin 2) : (s.setTile t x).dom k = s.dom k := rfl
@[simp] theorem State.setTile_reg (s : State) (t : TileId) (x : TileSt) (k : Nat) : (s.setTile t x).reg k = s.reg k := rfl
@[simp] theorem State.setTile_syncWord (s : State) (t : TileId) (x : TileSt) (k : Nat) : (s.setTile t x).syncWord k = s.syncWord k := rfl
@[simp] theorem State.setTile_home (s : State) (t : TileId) (x : TileSt) (k : Nat) : (s.setTile t x).home k = s.home k := rfl
@[simp] theorem State.setTile_cluster (s : State) (t : TileId) (x : TileSt) (k : Nat) : (s.setTile t x).cluster k = s.cluster k := rfl
@[simp] theorem State.setDie_tile (s : State) (d : Nat) (x : DieSt) (k : TileId) : (s.setDie d x).tile k = s.tile k := rfl
@[simp] theorem State.setDie_dom (s : State) (d : Nat) (x : DieSt) (k : Fin 2) : (s.setDie d x).dom k = s.dom k := rfl
@[simp] theorem State.setDie_reg (s : State) (d : Nat) (x : DieSt) (k : Nat) : (s.setDie d x).reg k = s.reg k := rfl
@[simp] theorem State.setDie_syncWord (s : State) (d : Nat) (x : DieSt) (k : Nat) : (s.setDie d x).syncWord k = s.syncWord k := rfl
@[simp] theorem State.setDie_home (s : State) (d : Nat) (x : DieSt) (k : Nat) : (s.setDie d x).home k = s.home k := rfl
@[simp] theorem State.setDie_cluster (s : State) (d : Nat) (x : DieSt) (k : Nat) : (s.setDie d x).cluster k = s.cluster k := rfl
@[simp] theorem State.setDom_tile (s : State) (d : Fin 2) (x : DomSt) (k : TileId) : (s.setDom d x).tile k = s.tile k := rfl
@[simp] theorem State.setDom_die (s : State) (d : Fin 2) (x : DomSt) (k : Nat) : (s.setDom d x).die k = s.die k := rfl
@[simp] theorem State.setDom_reg (s : State) (d : Fin 2) (x : DomSt) (k : Nat) : (s.setDom d x).reg k = s.reg k := rfl
@[simp] theorem State.setDom_syncWord (s : State) (d : Fin 2) (x : DomSt) (k : Nat) : (s.setDom d x).syncWord k = s.syncWord k := rfl
@[simp] theorem State.setDom_home (s : State) (d : Fin 2) (x : DomSt) (k : Nat) : (s.setDom d x).home k = s.home k := rfl
@[simp] theorem State.setDom_cluster (s : State) (d : Fin 2) (x : DomSt) (k : Nat) : (s.setDom d x).cluster k = s.cluster k := rfl
@[simp] theorem State.setReg_tile (s : State) (a : Nat) (v : Word) (k : TileId) : (s.setReg a v).tile k = s.tile k := rfl
@[simp] theorem State.setReg_die (s : State) (a : Nat) (v : Word) (k : Nat) : (s.setReg a v).die k = s.die k := rfl
@[simp] theorem State.setReg_dom (s : State) (a : Nat) (v : Word) (k : Fin 2) : (s.setReg a v).dom k = s.dom k := rfl
@[simp] theorem State.setReg_syncWord (s : State) (a : Nat) (v : Word) (k : Nat) : (s.setReg a v).syncWord k = s.syncWord k := rfl
@[simp] theorem State.setReg_home (s : State) (a : Nat) (v : Word) (k : Nat) : (s.setReg a v).home k = s.home k := rfl
@[simp] theorem State.setReg_cluster (s : State) (a : Nat) (v : Word) (k : Nat) : (s.setReg a v).cluster k = s.cluster k := rfl
@[simp] theorem State.setField_tile (s : State) (a hi lo v : Nat) (k : TileId) : (s.setField a hi lo v).tile k = s.tile k := rfl
@[simp] theorem State.setField_die (s : State) (a hi lo v : Nat) (k : Nat) : (s.setField a hi lo v).die k = s.die k := rfl
@[simp] theorem State.setField_dom (s : State) (a hi lo v : Nat) (k : Fin 2) : (s.setField a hi lo v).dom k = s.dom k := rfl
@[simp] theorem State.setField_syncWord (s : State) (a hi lo v : Nat) (k : Nat) : (s.setField a hi lo v).syncWord k = s.syncWord k := rfl
@[simp] theorem State.setField_home (s : State) (a hi lo v : Nat) (k : Nat) : (s.setField a hi lo v).home k = s.home k := rfl
@[simp] theorem State.setField_cluster (s : State) (a hi lo v : Nat) (k : Nat) : (s.setField a hi lo v).cluster k = s.cluster k := rfl
@[simp] theorem State.wait_tile (s : State) (c : Instr) (k : TileId) : (s.wait c).tile k = s.tile k := rfl
@[simp] theorem State.wait_die (s : State) (c : Instr) (k : Nat) : (s.wait c).die k = s.die k := rfl
@[simp] theorem State.wait_dom (s : State) (c : Instr) (k : Fin 2) : (s.wait c).dom k = s.dom k := rfl
@[simp] theorem State.wait_reg (s : State) (c : Instr) (k : Nat) : (s.wait c).reg k = s.reg k := rfl
@[simp] theorem State.wait_syncWord (s : State) (c : Instr) (k : Nat) : (s.wait c).syncWord k = s.syncWord k := rfl
@[simp] theorem State.wait_home (s : State) (c : Instr) (k : Nat) : (s.wait c).home k = s.home k := rfl
@[simp] theorem State.wait_cluster (s : State) (c : Instr) (k : Nat) : (s.wait c).cluster k = s.cluster k := rfl
@[simp] theorem State.send_tile (s : State) (m : OutMsg) (k : TileId) : (s.send m).tile k = s.tile k := rfl
@[simp] theorem State.send_die (s : State) (m : OutMsg) (k : Nat) : (s.send m).die k = s.die k := rfl
@[simp] theorem State.send_dom (s : State) (m : OutMsg) (k : Fin 2) : (s.send m).dom k = s.dom k := rfl
@[simp] theorem State.send_reg (s : State) (m : OutMsg) (k : Nat) : (s.send m).reg k = s.reg k := rfl
@[simp] theorem State.send_syncWord (s : State) (m : OutMsg) (k : Nat) : (s.send m).syncWord k = s.syncWord k := rfl
@[simp] theorem State.send_home (s : State) (m : OutMsg) (k : Nat) : (s.send m).home k = s.home k := rfl
@[simp] theorem State.send_cluster (s : State) (m : OutMsg) (k : Nat) : (s.send m).cluster k = s.cluster k := rfl
@[simp] theorem State.capBump_tile (s : State) (k : TileId) : (s.capBump).tile k = s.tile k := rfl
@[simp] theorem State.capBump_die (s : State) (k : Nat) : (s.capBump).die k = s.die k := rfl
@[simp] theorem State.capBump_dom (s : State) (k : Fin 2) : (s.capBump).dom k = s.dom k := rfl
@[simp] theorem State.capBump_reg (s : State) (k : Nat) : (s.capBump).reg k = s.reg k := rfl
@[simp] theorem State.capBump_syncWord (s : State) (k : Nat) : (s.capBump).syncWord k = s.syncWord k := rfl
@[simp] theorem State.capBump_home (s : State) (k : Nat) : (s.capBump).home k = s.home k := rfl
@[simp] theorem State.capBump_cluster (s : State) (k : Nat) : (s.capBump).cluster k = s.cluster k := rfl
@[simp] theorem State.setSeq_die (s : State) (t : TileId) (q : SeqSt) (k : Nat) : (s.setSeq t q).die k = s.die k := rfl
@[simp] theorem State.setSeq_dom (s : State) (t : TileId) (q : SeqSt) (k : Fin 2) : (s.setSeq t q).dom k = s.dom k := rfl
@[simp] theorem State.setSeq_reg (s : State) (t : TileId) (q : SeqSt) (k : Nat) : (s.setSeq t q).reg k = s.reg k := rfl
@[simp] theorem State.setSeq_syncWord (s : State) (t : TileId) (q : SeqSt) (k : Nat) : (s.setSeq t q).syncWord k = s.syncWord k := rfl
@[simp] theorem State.setSeq_home (s : State) (t : TileId) (q : SeqSt) (k : Nat) : (s.setSeq t q).home k = s.home k := rfl
@[simp] theorem State.setSeq_cluster (s : State) (t : TileId) (q : SeqSt) (k : Nat) : (s.setSeq t q).cluster k = s.cluster k := rfl
@[simp] theorem State.setTge_die (s : State) (t : TileId) (x : TgeSt) (k : Nat) : (s.setTge t x).die k = s.die k := rfl
@[simp] theorem State.setTge_dom (s : State) (t : TileId) (x : TgeSt) (k : Fin 2) : (s.setTge t x).dom k = s.dom k := rfl
@[simp] theorem State.setTge_reg (s : State) (t : TileId) (x : TgeSt) (k : Nat) : (s.setTge t x).reg k = s.reg k := rfl
@[simp] theorem State.setTge_syncWord (s : State) (t : TileId) (x : TgeSt) (k : Nat) : (s.setTge t x).syncWord k = s.syncWord k := rfl
@[simp] theorem State.setTge_home (s : State) (t : TileId) (x : TgeSt) (k : Nat) : (s.setTge t x).home k = s.home k := rfl
@[simp] theorem State.setTge_cluster (s : State) (t : TileId) (x : TgeSt) (k : Nat) : (s.setTge t x).cluster k = s.cluster k := rfl
@[simp] theorem State.setMxa_die (s : State) (t : TileId) (x : MxaSt) (k : Nat) : (s.setMxa t x).die k = s.die k := rfl
@[simp] theorem State.setMxa_dom (s : State) (t : TileId) (x : MxaSt) (k : Fin 2) : (s.setMxa t x).dom k = s.dom k := rfl
@[simp] theorem State.setMxa_reg (s : State) (t : TileId) (x : MxaSt) (k : Nat) : (s.setMxa t x).reg k = s.reg k := rfl
@[simp] theorem State.setMxa_syncWord (s : State) (t : TileId) (x : MxaSt) (k : Nat) : (s.setMxa t x).syncWord k = s.syncWord k := rfl
@[simp] theorem State.setMxa_home (s : State) (t : TileId) (x : MxaSt) (k : Nat) : (s.setMxa t x).home k = s.home k := rfl
@[simp] theorem State.setMxa_cluster (s : State) (t : TileId) (x : MxaSt) (k : Nat) : (s.setMxa t x).cluster k = s.cluster k := rfl
@[simp] theorem State.setSync_tile (s : State) (g : Nat) (w : Word) (k : TileId) : (s.setSync g w).tile k = s.tile k := rfl
@[simp] theorem State.setSync_die (s : State) (g : Nat) (w : Word) (k : Nat) : (s.setSync g w).die k = s.die k := rfl
@[simp] theorem State.setSync_dom (s : State) (g : Nat) (w : Word) (k : Fin 2) : (s.setSync g w).dom k = s.dom k := rfl
@[simp] theorem State.setSync_reg (s : State) (g : Nat) (w : Word) (k : Nat) : (s.setSync g w).reg k = s.reg k := rfl
@[simp] theorem State.setSync_home (s : State) (g : Nat) (w : Word) (k : Nat) : (s.setSync g w).home k = s.home k := rfl
@[simp] theorem State.setSync_cluster (s : State) (g : Nat) (w : Word) (k : Nat) : (s.setSync g w).cluster k = s.cluster k := rfl
@[simp] theorem State.setHome_tile (s : State) (d : Nat) (h : SyncHome) (k : TileId) : (s.setHome d h).tile k = s.tile k := rfl
@[simp] theorem State.setHome_die (s : State) (d : Nat) (h : SyncHome) (k : Nat) : (s.setHome d h).die k = s.die k := rfl
@[simp] theorem State.setHome_dom (s : State) (d : Nat) (h : SyncHome) (k : Fin 2) : (s.setHome d h).dom k = s.dom k := rfl
@[simp] theorem State.setHome_reg (s : State) (d : Nat) (h : SyncHome) (k : Nat) : (s.setHome d h).reg k = s.reg k := rfl
@[simp] theorem State.setHome_syncWord (s : State) (d : Nat) (h : SyncHome) (k : Nat) : (s.setHome d h).syncWord k = s.syncWord k := rfl
@[simp] theorem State.setHome_cluster (s : State) (d : Nat) (h : SyncHome) (k : Nat) : (s.setHome d h).cluster k = s.cluster k := rfl
@[simp] theorem State.setCluster_tile (s : State) (f : Nat) (x : UeSt) (k : TileId) : (s.setCluster f x).tile k = s.tile k := rfl
@[simp] theorem State.setCluster_die (s : State) (f : Nat) (x : UeSt) (k : Nat) : (s.setCluster f x).die k = s.die k := rfl
@[simp] theorem State.setCluster_dom (s : State) (f : Nat) (x : UeSt) (k : Fin 2) : (s.setCluster f x).dom k = s.dom k := rfl
@[simp] theorem State.setCluster_reg (s : State) (f : Nat) (x : UeSt) (k : Nat) : (s.setCluster f x).reg k = s.reg k := rfl
@[simp] theorem State.setCluster_syncWord (s : State) (f : Nat) (x : UeSt) (k : Nat) : (s.setCluster f x).syncWord k = s.syncWord k := rfl
@[simp] theorem State.setCluster_home (s : State) (f : Nat) (x : UeSt) (k : Nat) : (s.setCluster f x).home k = s.home k := rfl
@[simp] theorem State.bump_tile (s : State) (a n : Nat) (k : TileId) : (s.bump a n).tile k = s.tile k := by
  unfold State.bump; split <;> rfl
@[simp] theorem State.bump_die (s : State) (a n : Nat) (k : Nat) : (s.bump a n).die k = s.die k := by
  unfold State.bump; split <;> rfl
@[simp] theorem State.bump_dom (s : State) (a n : Nat) (k : Fin 2) : (s.bump a n).dom k = s.dom k := by
  unfold State.bump; split <;> rfl
@[simp] theorem State.bump_syncWord (s : State) (a n : Nat) (k : Nat) : (s.bump a n).syncWord k = s.syncWord k := by
  unfold State.bump; split <;> rfl
@[simp] theorem State.bump_home (s : State) (a n : Nat) (k : Nat) : (s.bump a n).home k = s.home k := by
  unfold State.bump; split <;> rfl
@[simp] theorem State.bump_cluster (s : State) (a n : Nat) (k : Nat) : (s.bump a n).cluster k = s.cluster k := by
  unfold State.bump; split <;> rfl
@[simp] theorem State.setTile_on (s : State) (t : TileId) (x : TileSt) : (s.setTile t x).on = s.on := rfl
@[simp] theorem State.setTile_tileOn (s : State) (t : TileId) (x : TileSt) (k : TileId) : (s.setTile t x).tileOn k = s.tileOn k := rfl
@[simp] theorem State.setDom_on (s : State) (d : Fin 2) (x : DomSt) : (s.setDom d x).on = s.on := rfl
@[simp] theorem State.setDom_tileOn (s : State) (d : Fin 2) (x : DomSt) (k : TileId) : (s.setDom d x).tileOn k = s.tileOn k := rfl
@[simp] theorem State.setReg_on (s : State) (a : Nat) (v : Word) : (s.setReg a v).on = s.on := rfl
@[simp] theorem State.setReg_tileOn (s : State) (a : Nat) (v : Word) (k : TileId) : (s.setReg a v).tileOn k = s.tileOn k := rfl
@[simp] theorem State.setField_on (s : State) (a hi lo v : Nat) : (s.setField a hi lo v).on = s.on := rfl
@[simp] theorem State.setField_tileOn (s : State) (a hi lo v : Nat) (k : TileId) : (s.setField a hi lo v).tileOn k = s.tileOn k := rfl
@[simp] theorem State.wait_on (s : State) (c : Instr) : (s.wait c).on = s.on := rfl
@[simp] theorem State.wait_tileOn (s : State) (c : Instr) (k : TileId) : (s.wait c).tileOn k = s.tileOn k := rfl
@[simp] theorem State.send_on (s : State) (m : OutMsg) : (s.send m).on = s.on := rfl
@[simp] theorem State.send_tileOn (s : State) (m : OutMsg) (k : TileId) : (s.send m).tileOn k = s.tileOn k := rfl
@[simp] theorem State.setSeq_on (s : State) (t : TileId) (q : SeqSt) : (s.setSeq t q).on = s.on := rfl
@[simp] theorem State.setSeq_tileOn (s : State) (t : TileId) (q : SeqSt) (k : TileId) : (s.setSeq t q).tileOn k = s.tileOn k := rfl
@[simp] theorem State.setTge_on (s : State) (t : TileId) (x : TgeSt) : (s.setTge t x).on = s.on := rfl
@[simp] theorem State.setTge_tileOn (s : State) (t : TileId) (x : TgeSt) (k : TileId) : (s.setTge t x).tileOn k = s.tileOn k := rfl
@[simp] theorem State.setMxa_on (s : State) (t : TileId) (x : MxaSt) : (s.setMxa t x).on = s.on := rfl
@[simp] theorem State.setMxa_tileOn (s : State) (t : TileId) (x : MxaSt) (k : TileId) : (s.setMxa t x).tileOn k = s.tileOn k := rfl
@[simp] theorem State.setSync_on (s : State) (g : Nat) (w : Word) : (s.setSync g w).on = s.on := rfl
@[simp] theorem State.setSync_tileOn (s : State) (g : Nat) (w : Word) (k : TileId) : (s.setSync g w).tileOn k = s.tileOn k := rfl
@[simp] theorem State.setHome_on (s : State) (d : Nat) (h : SyncHome) : (s.setHome d h).on = s.on := rfl
@[simp] theorem State.setHome_tileOn (s : State) (d : Nat) (h : SyncHome) (k : TileId) : (s.setHome d h).tileOn k = s.tileOn k := rfl
@[simp] theorem State.setCluster_on (s : State) (f : Nat) (x : UeSt) : (s.setCluster f x).on = s.on := rfl
@[simp] theorem State.setCluster_tileOn (s : State) (f : Nat) (x : UeSt) (k : TileId) : (s.setCluster f x).tileOn k = s.tileOn k := rfl
@[simp] theorem State.bump_on (s : State) (a n : Nat) : (s.bump a n).on = s.on := by
  unfold State.bump; split <;> rfl
@[simp] theorem State.bump_tileOn (s : State) (a n : Nat) (k : TileId) : (s.bump a n).tileOn k = s.tileOn k := by
  unfold State.bump; split <;> rfl

@[simp] theorem State.setSeq_seq_self (s : State) (t : TileId) (q : SeqSt) : ((s.setSeq t q).tile t).seq = q := by
  simp [State.setSeq]

@[simp] theorem State.setTge_tge_self (s : State) (t : TileId) (x : TgeSt) : ((s.setTge t x).tile t).tge = x := by
  simp [State.setTge]

@[simp] theorem State.setMxa_mxa_self (s : State) (t : TileId) (x : MxaSt) : ((s.setMxa t x).tile t).mxa = x := by
  simp [State.setMxa]

/-- Another tile keeps its state when a sequencer's is replaced. -/
theorem State.setSeq_tile_ne (s : State) {t k : TileId} (q : SeqSt) (h : k ≠ t) : (s.setSeq t q).tile k = s.tile k :=
  State.setTile_tile_ne s _ h

theorem State.setTge_tile_ne (s : State) {t k : TileId} (x : TgeSt) (h : k ≠ t) : (s.setTge t x).tile k = s.tile k :=
  State.setTile_tile_ne s _ h

theorem State.setMxa_tile_ne (s : State) {t k : TileId} (x : MxaSt) (h : k ≠ t) : (s.setMxa t x).tile k = s.tile k :=
  State.setTile_tile_ne s _ h

end Sys2Proof.Machine
end

