-- ==== Sys2Proof/Laws/Memory.lean ====
section
/-!
SUPPORT. Laws of memory: what a byte reads after a store, that every operation on memory, poison and sync words keeps
their canonical form, and that raising an event touches none of them.
-/

namespace Sys2Proof.Machine

/-! ### Bytes stored -/

/-- A byte in front of a stored range is as before. -/
theorem mapGet_memPut_before (m : SMap Byte) {ga a : Nat} (bs : List Byte) (h : a < ga) :
    mapGet 0 (memPut m ga bs) a = mapGet 0 m a := by
  induction bs generalizing m ga with
  | nil => rfl
  | cons b rest ih =>
    rw [memPut, ih _ (Nat.lt_succ_of_lt h), mapGet_mapSet_ne _ _ _ _ (Nat.ne_of_lt h)]

/-- A byte behind a stored range is as before. -/
theorem mapGet_memPut_after (m : SMap Byte) {ga a : Nat} (bs : List Byte) (h : ga + bs.length ≤ a) :
    mapGet 0 (memPut m ga bs) a = mapGet 0 m a := by
  induction bs generalizing m ga with
  | nil => rfl
  | cons b rest ih =>
    simp only [List.length_cons] at h
    rw [memPut, ih _ (by omega), mapGet_mapSet_ne _ _ _ _ (by omega)]

/-- A byte of a stored range is the one stored there. -/
theorem mapGet_memPut_at (m : SMap Byte) (ga : Nat) (bs : List Byte) (i : Nat) (h : i < bs.length) :
    mapGet 0 (memPut m ga bs) (ga + i) = bs[i] := by
  induction bs generalizing m ga i with
  | nil => simp at h
  | cons b rest ih =>
    cases i with
    | zero => rw [memPut, mapGet_memPut_before _ _ (by omega)]; simp
    | succ i =>
      rw [memPut, show ga + (i + 1) = ga + 1 + i by omega, ih _ _ _ (by simpa using h)]
      rfl

theorem memPut_wf (m : SMap Byte) (ga : Nat) (bs : List Byte) (h : Memory.wf m = true) : Memory.wf (memPut m ga bs) = true := by
  induction bs generalizing m ga with
  | nil => exact h
  | cons b rest ih => exact ih _ _ (mapWf_mapSet 0 m ga b h)

/-- A store leaves every byte outside its range alone. -/
theorem State.putBytes_byte_out (s : State) {ga a : Nat} (bs : List Byte) (h : a < ga ∨ ga + bs.length ≤ a) :
    (s.putBytes ga bs).byte a = s.byte a :=
  h.elim (mapGet_memPut_before _ _) (mapGet_memPut_after _ _)

/-- A byte stored reads back. -/
theorem State.putBytes_byte_at (s : State) (ga : Nat) (bs : List Byte) (i : Nat) (h : i < bs.length) :
    (s.putBytes ga bs).byte (ga + i) = bs[i] :=
  mapGet_memPut_at _ _ _ _ h

/-- The bytes stored read back. -/
theorem State.putBytes_bytesAt (s : State) (ga : Nat) (bs : List Byte) : (s.putBytes ga bs).bytesAt ga bs.length = bs := by
  refine List.ext_getElem (by simp [State.bytesAt]) fun i h1 h2 => ?_
  simp only [State.bytesAt, List.getElem_map, List.getElem_range]
  exact State.putBytes_byte_at s ga bs i h2

/-! ### The canonical form -/

theorem tidy_iff (s : State) : tidy s = true ↔ Memory.wf s.mem = true ∧ mapWf false s.poison = true ∧ mapWf 0 s.sync = true := by
  simp [tidy, and_assoc]

/-- What leaves memory, poison and sync words alone keeps their form. -/
theorem tidy_of_memorySame {s t : State} (h : memorySame s t) (hs : tidy s = true) : tidy t = true := by
  obtain ⟨hm, hp, hy⟩ := h
  simpa only [tidy, hm, hp, hy] using hs

/-- A fold whose steps keep a canonical form keeps it. -/
theorem mapWf_foldl {α β : Type} [DecidableEq α] (d : α) (f : SMap α → β → SMap α)
    (hf : ∀ m b, mapWf d m = true → mapWf d (f m b) = true) (l : List β) (m : SMap α) (h : mapWf d m = true) :
    mapWf d (l.foldl f m) = true := by
  induction l generalizing m with
  | nil => exact h
  | cons b rest ih => exact ih _ (hf m b h)

theorem State.putBytes_tidy (s : State) (ga : Nat) (bs : List Byte) (h : tidy s = true) : tidy (s.putBytes ga bs) = true := by
  rw [tidy_iff] at h ⊢
  refine ⟨memPut_wf _ _ _ h.1, mapWf_foldl false _ (fun m g hm => ?_) _ _ h.2.1, h.2.2⟩
  split
  · exact mapWf_mapSet false m g false hm
  · exact hm

theorem State.clearCovered_tidy (s : State) (l : List (Nat × Nat)) (h : tidy s = true) : tidy (s.clearCovered l) = true := by
  rw [tidy_iff] at h ⊢
  refine ⟨h.1, mapWf_foldl false _ (fun m g hm => ?_) _ _ h.2.1, h.2.2⟩
  split
  · exact mapWf_mapSet false m g false hm
  · exact hm

theorem State.putLine_tidy (s : State) (die line : Nat) (v : BitVec 1024) (h : tidy s = true) :
    tidy (s.putLine die line v) = true := by
  rw [tidy_iff] at h ⊢
  exact ⟨memPut_wf _ _ _ h.1, h.2⟩

theorem State.putMany_tidy (s : State) (t : TileId) (ws : List (Nat × List Byte)) (h : tidy s = true) :
    tidy (s.putMany t ws) = true := by
  rw [tidy_iff] at h ⊢
  exact ⟨mapWf_foldl 0 _ (fun m w hm => memPut_wf m _ _ hm) _ _ h.1, mapWf_filter false _ _ h.2.1, h.2.2⟩

theorem State.setSync_tidy (s : State) (ga : Nat) (w : Word) (h : tidy s = true) : tidy (s.setSync ga w) = true := by
  rw [tidy_iff] at h ⊢
  exact ⟨h.1, h.2.1, mapWf_mapSet 0 _ _ _ h.2.2⟩

/-- Reset memory lists nothing. -/
theorem State.reset_tidy : tidy State.reset = true := rfl

/-- The zero map that speculation writes back keeps the form. -/
theorem State.speculate_tidy (s : State) (t : TileId) (bd : Opd) (wide : Bool) (k n p : Nat) (strm : Nat → Nat → Nat)
    (marked : Nat → Bool) (offs : Nat) (h : tidy s = true) : tidy (s.speculate t bd wide k n p strm marked offs) = true := by
  unfold State.speculate
  simp only [tidy, State.bump_mem, State.bump_poison, State.bump_sync]
  rw [tidy_iff] at h
  simp only [Bool.and_eq_true]
  refine ⟨⟨?_, h.2.1⟩, h.2.2⟩
  refine mapWf_foldl 0 _ (fun m g hm => mapWf_foldl 0 _ (fun m' j hm' => ?_) _ _ hm) _ _ h.1
  split
  · exact mapWf_mapSet 0 _ _ _ hm'
  · exact hm'

/-- A die that loses its storage keeps the form. -/
theorem State.storageLost_tidy (s : State) (d : Nat) (h : tidy s = true) : tidy (s.storageLost d) = true := by
  rw [tidy_iff] at h ⊢
  exact ⟨mapWf_filter 0 _ _ h.1, mapWf_filter false _ _ h.2.1, mapWf_filter 0 _ _ h.2.2⟩

/-- What a reset or a loss of power leaves lists nothing. -/
theorem State.cleared_tidy (s : State) : tidy s.cleared = true := rfl

/-! ### Events and memory -/

theorem memorySame_refl (s : State) : memorySame s s := ⟨rfl, rfl, rfl⟩

theorem memorySame_trans {s t u : State} (h : memorySame s t) (k : memorySame t u) : memorySame s u :=
  ⟨k.1.trans h.1, k.2.1.trans h.2.1, k.2.2.trans h.2.2⟩

/-- A fold whose steps leave memory alone leaves it alone. -/
theorem memorySame_foldl {β : Type} (f : State → β → State) (hf : ∀ s b, memorySame s (f s b)) (l : List β) (s : State) :
    memorySame s (l.foldl f s) := by
  induction l generalizing s with
  | nil => exact memorySame_refl s
  | cons b rest ih => exact memorySame_trans (hf s b) (ih _)

theorem State.bump_memory (s : State) (a n : Nat) : memorySame s (s.bump a n) := ⟨by simp, by simp, by simp⟩

/-- What leaves memory alone and then advances a counter leaves it alone. -/
theorem State.bump_memory_of {s t : State} (h : memorySame s t) (a n : Nat) : memorySame s (t.bump a n) :=
  memorySame_trans h (t.bump_memory a n)

theorem State.toState_memory (s : State) (v : Nat) : memorySame s (s.toState v) := by
  unfold State.toState
  split
  · exact memorySame_refl s
  · dsimp only; split <;> exact ⟨rfl, rfl, rfl⟩

theorem State.cclBump_memory (s : State) (off n : Nat) : memorySame s (s.cclBump off n) :=
  memorySame_trans (s.bump_memory _ n) (State.bump_memory _ _ n)

theorem State.ringInterrupt_memory (s : State) (m : Nat) (g : EvtRing) : memorySame s (s.ringInterrupt m g) :=
  memorySame_trans (State.cclBump_memory (s.send _) _ _) ⟨rfl, rfl, rfl⟩

theorem State.ringAnnounce_memory (s : State) (m : Nat) : memorySame s (s.ringAnnounce m) := by
  unfold State.ringAnnounce
  split
  · exact memorySame_refl s
  · next g _ =>
    split
    · exact s.ringInterrupt_memory m g
    · exact memorySame_refl s

theorem State.ringAsk_memory (s : State) (m : Nat) (g : EvtRing) : memorySame s (s.ringAsk m g) := by
  unfold State.ringAsk
  split
  · exact memorySame_refl s
  · exact ⟨rfl, rfl, rfl⟩

theorem State.ringOffer_memory (s : State) (r : EvtRec) (m : Nat) : memorySame s (s.ringOffer r m) := by
  unfold State.ringOffer
  split
  · exact memorySame_refl s
  · next g _ =>
    split; · exact memorySame_refl s
    split; · exact memorySame_refl s
    split; · exact State.ringAnnounce_memory (s.ringWrite m g r) m
    split; · exact memorySame_trans (t := { s with evt := _ }) ⟨rfl, rfl, rfl⟩ (State.ringAsk_memory _ m g)
    apply State.bump_memory_of
    exact s.ringAsk_memory m g

theorem State.logRec_memory (s : State) (r : EvtRec) : memorySame s (s.logRec r) := by
  unfold State.logRec
  dsimp only
  have h := State.bump_memory_of (s := s) (t := { s with evt := { s.evt with
    seqs := mapSet 0 s.evt.seqs r.source.toNat (mapGet 0 s.evt.seqs r.source.toNat + 1),
    log := (r :: s.evt.log).take logDepth, logged := s.evt.logged + 1 } }) ⟨rfl, rfl, rfl⟩
    (regGa ((r.source.toNat / 2 ^ 14) % 64) 0x150100) 1
  split
  · exact h
  · exact memorySame_trans h (memorySame_foldl _ (fun s m => s.ringOffer_memory r m) _ _)

theorem State.logRec_memory_of {s t : State} (h : memorySame s t) (r : EvtRec) : memorySame s (t.logRec r) :=
  memorySame_trans h (t.logRec_memory r)

theorem State.sendSummary_memory (s : State) (q : EvtReq) : memorySame s (s.sendSummary q) := by
  unfold State.sendSummary
  dsimp only
  split
  · exact memorySame_refl s
  · exact s.logRec_memory _

theorem memorySame_rated {s t : State} (h : memorySame s t) (c : Prop) [Decidable c] (d e : EvtSt) (r : EvtRec) (a : Nat) :
    memorySame s (if c then ({ t with evt := d } : State).logRec r else ({ t with evt := e } : State).bump a 1) := by
  split
  · exact State.logRec_memory_of (t := { t with evt := d }) h r
  · exact State.bump_memory_of (t := { t with evt := e }) h a 1

/-- Raising an event leaves memory, poison and sync words alone. -/
theorem State.raise_memory (s : State) (q : EvtReq) : memorySame s (s.raise q) := by
  unfold State.raise
  dsimp only
  split
  · split
    · exact memorySame_rated (memorySame_refl s) _ _ _ _ _
    · exact memorySame_rated (s.sendSummary_memory q) _ _ _ _ _
  · exact s.logRec_memory _
  · exact memorySame_trans (s.logRec_memory _) (State.toState_memory _ 9)
  · split
    · exact s.logRec_memory _
    · split
      · exact s.logRec_memory _
      · exact s.logRec_memory _

/-- Creating poison keeps the form. -/
theorem State.makePoison_tidy (s : State) (ga : Nat) (h : tidy s = true) : tidy (s.makePoison ga) = true := by
  unfold State.makePoison
  dsimp only
  split
  · exact h
  · rw [tidy_iff] at h
    have hp : tidy { s with poison := setPut s.poison (granule ga).1 true } = true :=
      (tidy_iff _).2 ⟨h.1, mapWf_mapSet false s.poison _ true h.2.1, h.2.2⟩
    exact tidy_of_memorySame (memorySame_trans (State.bump_memory _ _ 1) (State.raise_memory _ _)) hp

end Sys2Proof.Machine
end

