-- ==== Sys2Proof/Laws/Issue.lean ====
section
/-!
SUPPORT. What the shared operations do by which engines issue and mailbox commands run: once a unit can issue, its
instruction's own effect on the state in which it issued; where it cannot, nothing.
-/

namespace Sys2Proof.Machine

/-! ### What issuing leaves alone -/

/-- A lookup of the translation cache touches no memory, poison or sync word (R202). -/
theorem State.xlLookup_memory (s : State) (t : TileId) (ctx : CtxId) (va : Nat) : memorySame s (s.xlLookup t ctx va) := by
  unfold State.xlLookup
  dsimp only
  split; · exact memorySame_refl s
  split; · exact memorySame_refl s
  split
  · split
    · exact ⟨rfl, rfl, rfl⟩
    · exact State.bump_memory_of (State.bump_memory_of ⟨rfl, rfl, rfl⟩ _ _) _ _
  · exact State.bump_memory_of (State.bump_memory_of (memorySame_refl s) _ _) _ _

theorem State.setSeq_memory (s : State) (t : TileId) (q : SeqSt) : memorySame s (s.setSeq t q) := ⟨rfl, rfl, rfl⟩

theorem State.seqIssued_memory (s : State) (t : TileId) : memorySame s (s.seqIssued t) := by
  unfold State.seqIssued
  dsimp only
  exact memorySame_trans (memorySame_trans (s.xlLookup_memory t _ _) (State.bump_memory _ _ _)) (State.setSeq_memory _ t _)

theorem State.tgIssued_memory (s : State) (t : TileId) (u : TgIssue) : memorySame s (s.tgIssued t u) :=
  State.bump_memory_of (s.xlLookup_memory t _ _) _ 1

theorem State.vuIssued_memory (s : State) (u : VUnit) : memorySame s (s.vuIssued u) := by
  cases u with
  | tile t => exact State.bump_memory_of (State.bump_memory_of (s.xlLookup_memory t _ _) _ 1) _ 1
  | core fd c => exact memorySame_refl s

/-- What memory holds is read alike where memory, poison and sync words are the same. -/
theorem memorySame_poisonedAt {s t : State} (h : memorySame s t) (ga n : Nat) : t.poisonedAt ga n = s.poisonedAt ga n := by
  simp only [State.poisonedAt, h.2.1]

theorem memorySame_byte {s t : State} (h : memorySame s t) (ga : Nat) : t.byte ga = s.byte ga := by
  simp only [State.byte, h.1]

theorem memorySame_syncWord {s t : State} (h : memorySame s t) (ga : Nat) : t.syncWord ga = s.syncWord ga := by
  simp only [State.syncWord, h.2.2]

/-! ### Sequencers -/

/-- A sequencer that can issue performs its word's effect on the state with the PC advanced (R321). -/
theorem State.seqWord_of_goes {s : State} {t : TileId} (h : seqGoes s t) (act : BitVec 48 → State → State) :
    s.seqWord t act = act (s.tile t).seq.pc (s.seqIssued t) := by
  obtain ⟨hr, x, hx⟩ := h
  simp only [State.seqWord, hr, Bool.not_true, hx, Bool.false_eq_true, if_false]

/-- A sequencer that cannot issue leaves the state as it is (log entry 9). -/
theorem State.seqWord_of_not {s : State} {t : TileId} (h : s.seqReady t = false) (act : BitVec 48 → State → State) :
    s.seqWord t act = s := by
  simp only [State.seqWord, h, Bool.not_false, if_true]

/-- A word whose fetch does not translate stops the sequencer and raises the fault (R197, R203). -/
theorem State.seqWord_of_fault {s : State} {t : TileId} {c : Nat} (hr : s.seqReady t = true)
    (hx : s.xlAns (tileDie t) (s.tile t).seq.ctx (s.tile t).seq.pc.toNat .fetch .plain = .error c)
    (act : BitVec 48 → State → State) :
    s.seqWord t act = ((s.setSeq t { (s.tile t).seq with wait := .none }).seqStop t 4).xlFault t (s.tile t).seq.ctx 4 c
      (s.tile t).seq.pc.toNat (s.tile t).seq.pc.toNat .fetch := by
  simp only [State.seqWord, hr, Bool.not_true, hx, Bool.false_eq_true, if_false]

/-! ### Thread groups -/

/-- A group that can issue on a path performs its instruction's effect on the state in which it issued (R118). -/
theorem State.tgInstr_of_goes {s : State} {t : TileId} {g : Nat} {u : TgIssue} (h : tgGoes s t g u)
    (act : TgIssue → State → State) : s.tgInstr t g act = act u (s.tgIssued t u) := by
  obtain ⟨hr, hp, x, hx⟩ := h
  simp only [State.tgInstr, hr, hp, if_true, hx]

/-- A group that cannot issue leaves the state as it is (log entry 9). -/
theorem State.tgInstr_of_not {s : State} {t : TileId} {g : Nat} (h : s.tgReady t g = none)
    (act : TgIssue → State → State) : s.tgInstr t g act = s := by
  simp only [State.tgInstr, h]

/-! ### Vector engines and update cores -/

/-- A tile's vector engine that can issue performs its instruction's effect on the state in which it issued (R154). -/
theorem State.vuInstr_tile_of_goes {s : State} {t : TileId} (h : vuGoes s (.tile t)) (act : VxSt → State → State) :
    s.vuInstr (.tile t) act = act (s.tile t).vx (s.vuIssued (.tile t)) := by
  obtain ⟨hr, ho, x, hx, hq⟩ := h
  have hr' : (s.tile t).vx.running = true := hr
  have hx' : s.xlAns (tileDie t) (s.tile t).vx.ctx (s.tile t).vx.pc.toNat .fetch .plain = .ok x := hx
  simp only [State.vuInstr, ho, hr', Bool.not_true, Bool.or_self, hx',
    memorySame_poisonedAt (s.vuIssued_memory (.tile t)), hq]
  rfl

/-- An update core that can issue performs its instruction's effect (R389). -/
theorem State.vuInstr_core_of_goes {s : State} {fd : FdId} {c : Fin 16} (h : vuGoes s (.core fd c))
    (act : VxSt → State → State) : s.vuInstr (.core fd c) act = act (s.core fd.val c.val) s := by
  obtain ⟨hr, ho, hf⟩ := h
  have hr' : (s.core fd.val c.val).running = true := hr
  simp only [State.vuInstr, ho, hr', hf, Bool.not_true, Bool.or_self]
  rfl

/-! ### Mailbox commands -/

/-- Where `mbxGoes` holds, a command with a good payload runs its own part on the state in which it is consumed, and
its answer says how it completes (R492). -/
theorem State.mbxRun_of_goes {s : State} {r : MbxRow} {c : MbxCmd} {job : State → Option (Fin 2)}
    (h : mbxGoes s r c (job s)) (cmd : Instr) {bad : State → Bool} (hb : bad s = false) (act : State → MbxAns × State) :
    s.mbxRun r c cmd job bad act =
      match (act (s.mbxTaken r c)).1 with
      | .done st res resp => (act (s.mbxTaken r c)).2.complete c r.code st res resp
      | .later k => { (act (s.mbxTaken r c)).2 with
          fw := { (act (s.mbxTaken r c)).2.fw with later := (act (s.mbxTaken r c)).2.fw.later ++ [(c, k)] } }
      | .wait => ({ (act (s.mbxTaken r c)).2 with
          fw := { (act (s.mbxTaken r c)).2.fw with sessions := s.fw.sessions, mCounter := s.fw.mCounter },
          mboxes := s.mboxes } : State).mbxWait cmd
      | .said => (act (s.mbxTaken r c)).2 := by
  obtain ⟨hf, hp, hring, hlast, hv, hbeh, he, hs, hl⟩ := h
  have h1 : ¬(s.pwr.ps = 5 ∧ c.mb = 8 ∧ s.fwOn = true) := fun k => hp k.1 k.2.1
  have h2 : ¬(c.mb.val < 8 ∧ (!s.ringsOn c.mb.val) = true) := fun k => by simp [hring k.1] at k
  have h3 : (mbxSigned r c && !(c.hdr.flags.getLsbD 1 && s.sigOk r c)) = false := by
    cases hc : mbxSigned r c with
    | false => rfl
    | true => obtain ⟨a, b⟩ := hs hc; simp [a, b]
  unfold State.mbxRun
  dsimp only
  rw [if_neg h1]
  simp only [if_false, hf, Bool.not_true, h2, decide_false, Bool.false_eq_true, hlast, hv, hbeh,
    Bool.or_self, he, h3, hb, hl]
  all_goals
    generalize act (s.mbxTaken r c) = z
    obtain ⟨a, y⟩ := z
    cases a <;> rfl

/-- A bad payload completes with BAD_ARG, before the module's state is looked at (R492). -/
theorem State.mbxRun_of_bad {s : State} {r : MbxRow} {c : MbxCmd} {job : State → Option (Fin 2)}
    (h : mbxGoes s r c (job s)) (cmd : Instr) {bad : State → Bool} (hb : bad s = true) (act : State → MbxAns × State) :
    s.mbxRun r c cmd job bad act = (s.mbxTaken r c).complete c r.code 4 [] [] := by
  obtain ⟨hf, hp, hring, hlast, hv, hbeh, he, hs, hl⟩ := h
  have h1 : ¬(s.pwr.ps = 5 ∧ c.mb = 8 ∧ s.fwOn = true) := fun k => hp k.1 k.2.1
  have h2 : ¬(c.mb.val < 8 ∧ (!s.ringsOn c.mb.val) = true) := fun k => by simp [hring k.1] at k
  have h3 : (mbxSigned r c && !(c.hdr.flags.getLsbD 1 && s.sigOk r c)) = false := by
    cases hc : mbxSigned r c with
    | false => rfl
    | true => obtain ⟨a, b⟩ := hs hc; simp [a, b]
  unfold State.mbxRun
  dsimp only
  rw [if_neg h1]
  simp only [if_false, hf, Bool.not_true, h2, decide_false, Bool.false_eq_true, hlast, hv, hbeh,
    Bool.or_self, he, h3, hb, if_true]

end Sys2Proof.Machine
end

