-- ==== Sys2Proof/WellFormed.lean ====
section
/-!
DEFINITION. Which commands are well formed: operands whose Lean type is wider than what the spec lets the
row carry.
-/

namespace Sys2Proof

/-- Lengths of mailbox payloads and trailers (R485, R490), of packets (R368), of link messages (Table
12.6), of recovery writes (Table 17.6) and of management records (Table 17.7); a count of nanoseconds is
any. -/
def cmdOk (c : MbxCmd) : Bool :=
  decide (c.payload.length ≤ 4096) && decide (c.trailer.length = 0 ∨ c.trailer.length = 132)

/-- Whether a command is well formed. -/
def Instr.wf (i : Instr) : Bool :=
  match i with
  | .remoteRequest _ _ data => decide (data.length ≤ 4096)
  | .remoteResponse _ _ data => decide (data.length ≤ 4096)
  | .wrU _ _ data => decide (data.length ≤ 4096)
  | .wb _ _ data => decide (data.length = 128)
  | .red _ _ data => decide (data.length = 144)
  | .signal _ _ data => decide (data.length ≤ 4096)
  | .doorbell _ _ data => decide (data.length = 16)
  | .ringSetup _ _ data => decide (data.length = 32)
  | .snpAck _ _ data => decide (data.length = 0 ∨ data.length = 128)
  | .rspD _ _ data => decide (data.length ≤ 4096)
  | .mgtAddrWrite _ bytes => decide (bytes.length = 64)
  | .collectorWrite bytes => decide (bytes.length = 18)
  | .recoveryData off bytes => decide (off.toNat + bytes.length ≤ 0x400000)
  | .hello c => cmdOk c
  | .getInfo c => cmdOk c
  | .getState c => cmdOk c
  | .capmapRead c => cmdOk c
  | .ringRelease c => cmdOk c
  | .ctxCreate c => cmdOk c
  | .ctxDestroy c => cmdOk c
  | .map c => cmdOk c
  | .unmap c => cmdOk c
  | .registerBacking c => cmdOk c
  | .jobLoad c => cmdOk c
  | .jobStart c => cmdOk c
  | .jobHold c => cmdOk c
  | .jobResume c => cmdOk c
  | .jobDrain c => cmdOk c
  | .replicaSet c => cmdOk c
  | .digestPolicy c => cmdOk c
  | .setLatTol c => cmdOk c
  | .setPowerCap c => cmdOk c
  | .fence c => cmdOk c
  | .unfenceRequest c _ => cmdOk c
  | .testRun c _ _ => cmdOk c
  | .testPackageBegin c => cmdOk c
  | .testPackageData c => cmdOk c
  | .testPackageCommit c => cmdOk c
  | .testPackageDelete c => cmdOk c
  | .fwStageBegin c => cmdOk c
  | .fwStageData c => cmdOk c
  | .fwStageCommit c => cmdOk c
  | .fwStageAbort c => cmdOk c
  | .fwShed c => cmdOk c
  | .attest c => cmdOk c
  | .getCerts c => cmdOk c
  | .evtSubscribe c => cmdOk c
  | .evtUnsubscribe c => cmdOk c
  | .evtReplay c => cmdOk c
  | .countersRead c => cmdOk c
  | .masterSet c => cmdOk c
  | .timeStatus c => cmdOk c
  | _ => true

end Sys2Proof
end

