-- ==== Sys2Proof/Tests/Slice0.lean ====
section
/-!
SUPPORT. Tests: ill-formed commands are refused; for the statements, small states and operands that meet the
hypotheses of their clauses, with what one step then leaves; and steps on values worked out by hand from the spec's
rules. Each test names its rule or its statement.
-/

namespace Sys2Proof.Tests

open Sys2Proof Sys2Proof.Machine

set_option Elab.async false
set_option maxRecDepth 200000

/-! ### Helpers -/

/-- The state that a step answers. -/
def nx (o : Host.Outcome State Fault Refusal) : State :=
  match o with
  | .next s => s
  | _ => State.reset

/-- One command on a state. -/
def run (i : Instr) (s : State) : State := nx (exec i s)

/-- Memory, poison and sync words as before. -/
def memSame (s t : State) : Bool := decide (t.mem = s.mem ∧ t.poison = s.poison ∧ t.sync = s.sync)

/-- A virtual address of context 0 that stands for a global address (R200). -/
def va0 (ga : Nat) : BitVec 48 := BitVec.ofNat 48 (0xFF * 2 ^ 40 + ga)

/-- A module that runs, ACTIVE, with context 0. -/
def on : State :=
  { State.reset with powered := true, running := true, modState := 5, xl := ⟨[(0, some ⟨false, 0⟩)], [], [], []⟩ }

/-- Tile 0 with a stream that runs in context 0 from 0x1000 of its memory, in domain 0, which has started. -/
def sSeq : State :=
  (on.setTile 0 { TileSt.reset with seq := { SeqSt.reset with running := true, pc := va0 0x1000 } }).setDom 0
    { DomSt.reset with loaded := true, started := true }

/-- `seqGoes`, evaluated. -/
def seqCan (s : State) (t : TileId) : Bool :=
  s.seqReady t && (match s.xlAns (tileDie t) (s.tile t).seq.ctx (s.tile t).seq.pc.toNat .fetch .plain with
    | .ok _ => true
    | .error _ => false)

theorem seqGoes_of_seqCan (s : State) (t : TileId) (h : seqCan s t = true) : seqGoes s t := by
  unfold seqCan at h
  simp only [Bool.and_eq_true] at h
  refine ⟨h.1, ?_⟩
  have h2 := h.2
  split at h2
  · next x hx => exact ⟨x, hx⟩
  · cases h2

/-- A word with 1 bits nowhere but in a field. -/
def at_ (v sh : Nat) : BitVec 120 := BitVec.ofNat 120 (v * 2 ^ sh)

/-! ### Sequencer words -/

/-- The same in a domain that runs dynamically. -/
def sDyn : State := sSeq.setDom 0 { sSeq.dom 0 with dyn := .fallback }

/-- TsqHoldsJoinsUnitsMarks: TSQ.HOLD in the past, at its tick, before it, in a hold, in dynamic mode. -/
theorem test_TsqHoldsJoinsUnitsMarks_hold :
    seqCan sSeq 0 = true ∧ (sSeq.seqIssued 0).tileDynamic 0 = false ∧
    (run (.tsqHold 0 (at_ 0 0)) sSeq).tile 0 = (sSeq.seqIssued 0).tile 0 ∧
    ((run (.tsqHold 0 (at_ 5 0)) sSeq).tile 0).seq.wait = .hold 5 ∧
    run (.tsqHold 0 (at_ 2 0)) { sSeq with ftc := 9 } = (({ sSeq with ftc := 9 } : State).seqIssued 0).noteLate 0 7 ∧
    (let h := sSeq.setDom 0 { sSeq.dom 0 with hold := ⟨true, 0, []⟩ }
     seqCan h 0 = true ∧ ((run (.tsqHold 0 (at_ 0 0)) h).tile 0).seq.wait = .hold 0) ∧
    seqCan sDyn 0 = true ∧ (sDyn.seqIssued 0).tileDynamic 0 = true ∧
    run (.tsqHold 0 (at_ 5 0)) sDyn = sDyn.seqIssued 0 := by
  decide +kernel

/-- TsqHoldsJoinsUnitsMarks: TSQ_HOLD_TARGET at the tick awaited. -/
theorem test_TsqHoldsJoinsUnitsMarks_target :
    let w : State := { run (.tsqHold 0 (at_ 5 0)) sSeq with ftc := 5 }
    (w.tile 0).seq.wait = .hold 5 ∧ w.tileOn 0 = true ∧ (w.tile 0).seq.running = true ∧ w.domLets 0 = true ∧
    w.holdPasses 0 5 = true ∧ ((run (.tsqHoldTarget 0) w).tile 0).seq = { (w.tile 0).seq with wait := .none } := by
  decide +kernel

/-- TsqHoldsJoinsUnitsMarks: TSQ.JOIN of engines at rest and of a busy one, TSQ.UNIT, TSQ.MARK. -/
theorem test_TsqHoldsJoinsUnitsMarks_join :
    (sSeq.seqIssued 0).joined 0 15 = true ∧ run (.tsqJoin 0 15) sSeq = sSeq.seqIssued 0 ∧
    (let b := sSeq.setSeq 0 { (sSeq.tile 0).seq with tgBusy := true }
     seqCan b 0 = true ∧ (b.seqIssued 0).joined 0 2 = false ∧ ((run (.tsqJoin 0 2) b).tile 0).seq.wait = .join 2) ∧
    (let u := (run (.tsqUnit 0 0xFFFF) sSeq).tile 0
     u.seq.unit = some 0xFFFF ∧ u.seq.marks = [⟨0xFFFF, va0 0x1010, 0, 0⟩]) ∧
    ((run (.tsqMark 0 1) sSeq).dom 0).window = true ∧ ((run (.tsqMark 0 2) sSeq).dom 0).window = false ∧
    ((run (.tsqMark 0 0) sSeq).tile 0).seq.mark = 0 := by
  decide +kernel

/-- TsqHoldsJoinsUnitsMarks: TSQ.LAYER takes the widenings of its layer. -/
theorem test_TsqHoldsJoinsUnitsMarks_layer :
    let w := sSeq.setDom 0 { sSeq.dom 0 with widens := [⟨7, 2, true, false⟩] }
    seqCan w 0 = true ∧ ((w.seqIssued 0).tile 0).seq.odigElems = 0 ∧
    ((w.seqIssued 0).dom 0).widens.find? (·.layer = 7) = some ⟨7, 2, true, false⟩ ∧
    (let q := ((run (.tsqLayer 0 7) w).tile 0).seq
     q.layer = 7 ∧ q.arrayIdx = 0 ∧ q.wideA = 2 ∧ q.wideR = true ∧ q.wideE = false) := by
  decide +kernel

/-- TsqStepsAndReports: TSQ.NEXT, in static mode and in a fallback. -/
theorem test_TsqStepsAndReports_next :
    (let q := ((run (.tsqNext 0 0x1234) sSeq).tile 0).seq
     q.step = 1 ∧ q.pc = 0x1234 ∧ q.wait = .none) ∧
    seqCan sDyn 0 = true ∧ ((run (.tsqNext 0 0x1234) sDyn).tile 0).seq.wait = .stepEnd := by
  decide +kernel

/-- TsqStepsAndReports: TSQ.REQ of a zero word, and of one that is not; TSQ.END of the only stream. -/
theorem test_TsqStepsAndReports_req :
    (sSeq.seqIssued 0).bytesAt (tmGa 0 8) 8 = leBytes 8 0 ∧ run (.tsqReq 0 8) sSeq = sSeq.seqIssued 0 ∧
    (let r := sSeq.putBytes (tmGa 0 0x3FFFF8) [1]
     seqCan r 0 = true ∧ (r.seqIssued 0).bytesAt (tmGa 0 0x3FFFF8) 8 ≠ leBytes 8 0 ∧
     ((r.seqIssued 0).dom 0).dyn ≠ .fallback ∧
     run (.tsqReq 0 0x3FFFF8) r = (r.seqIssued 0).requestHold 0 .fallback 0 false) ∧
    (((sSeq.seqIssued 0).setSeq 0 { ((sSeq.seqIssued 0).tile 0).seq with running := false, unit := none }).streamsEnded 0
      = true) ∧
    ((run (.tsqEnd 0 0) sSeq).dom 0).started = false := by
  decide +kernel

/-- TsqStepsAndReports: TSQ.END of one stream of two; TSQ.UEND reports at the named counter. -/
theorem test_TsqStepsAndReports_end :
    let two := (sSeq.setTile 1 (sSeq.tile 0)).setDom 0 { sSeq.dom 0 with firsts := [(0, some 0), (1, some 0)] }
    seqCan two 0 = true ∧
    ((two.seqIssued 0).setSeq 0 { ((two.seqIssued 0).tile 0).seq with running := false, unit := none }).streamsEnded 0 = false ∧
    ((run (.tsqEnd 0 0) two).tile 0).seq.running = false ∧ ((run (.tsqEnd 0 0) two).tile 1).seq.running = true ∧
    ((run (.tsqUend 0 (at_ 3 16)) two).tile 0).seq.unit = none := by
  decide +kernel

/-! ### The matrix array -/

/-- A matrix descriptor: rows, columns, base and row stride, for descriptor n of tile 0 (Table 3.7). -/
def desc (s : State) (n rows cols base stride : Nat) : State :=
  (s.setReg (tileReg 0 (0x1200 + 32 * n)) (BitVec.ofNat 64 (rows * 2 ^ 48 + cols * 2 ^ 32 + base))).setReg
    (tileReg 0 (0x1218 + 32 * n)) (BitVec.ofNat 64 stride)

/-- Two-byte elements at an offset of tile 0's memory. -/
def half (s : State) (off : Nat) (xs : List Nat) : State := s.putBytes (tmGa 0 off) (xs.flatMap (leBytes 2))

/-- A stored operand [[1, 2], [3, 4]], a streamed one [[1, 1], [0, 1]] and a place for the output. -/
def sArr : State :=
  half (half (half (half (desc (desc (desc sSeq 0 2 2 0x2000 64) 1 2 2 0x3000 64) 2 2 2 0x4000 64)
    0x2000 [0x3C00, 0x4000]) 0x2040 [0x4200, 0x4400]) 0x3000 [0x3C00, 0x3C00]) 0x3040 [0, 0x3C00]

/-- An array word: CLR, RD, HEADROOM 8, ANCHOR 0, descriptors 0, 1 and 2. -/
def arr (clr rd : Nat) : BitVec 120 := at_ 8 99 ||| at_ clr 95 ||| at_ rd 94 ||| at_ 1 68 ||| at_ 2 64

/-- MxaMultiplyLoadRead: a run that stays open counts K × P products; RD = 1 writes [[1, 3], [3, 7]] and closes. -/
theorem test_MxaMultiplyLoadRead_mm :
    let i := (sArr.seqIssued 0).arrayStart 0
    seqCan sArr 0 = true ∧ i.mmFault 0 (arrWord 2 (arr 1 0)) = none ∧ i.mmFault 0 (arrWord 2 (arr 1 1)) = none ∧
    (i.die 0).errs = [] ∧ i.poison = [] ∧
    ((run (.mxaMm 0 (arr 1 0)) sArr).tile 0).mxa.run = some ⟨false, 0, 0, 8, 2, 2, 2⟩ ∧
    (let n := run (.mxaMm 0 (arr 1 1)) sArr
     (n.tile 0).mxa.run = none ∧ n.bytesAt (tmGa 0 0x4000) 4 = [0x00, 0x3C, 0x00, 0x42] ∧
     n.bytesAt (tmGa 0 0x4040) 4 = [0x00, 0x42, 0x00, 0x47]) := by
  decide +kernel

/-- MxaMultiplyLoadRead: MXA.MMT; then the run goes on, is read out, or cleared. -/
theorem test_MxaMultiplyLoadRead_rd :
    let i := (sArr.seqIssued 0).arrayStart 0
    let o := run (.mxaMm 0 (arr 1 0)) sArr
    let j := (o.seqIssued 0).arrayStart 0
    i.mmFault 0 (arrWord 3 (arr 1 0)) = none ∧
    ((run (.mxaMmt 0 (arr 1 0)) sArr).tile 0).mxa.run.map (·.mmt) = some true ∧
    seqCan o 0 = true ∧ j.mmFault 0 (arrWord 2 (arr 0 0)) = none ∧
    ((run (.mxaMm 0 (arr 0 0)) o).tile 0).mxa.run.map (·.count) = some 4 ∧
    j.rdFault 0 (arrWord 4 (at_ 2 64)) = none ∧ ((run (.mxaRd 0 (at_ 2 64)) o).tile 0).mxa.run = none ∧
    (run (.mxaRd 0 (at_ 2 64)) o).bytesAt (tmGa 0 0x4040) 4 = [0x00, 0x42, 0x00, 0x47] ∧
    (arrWord 5 0).illegal = false ∧ j.width 0 = 128 ∧ ((run (.mxaClr 0 0) o).tile 0).mxa.cells = [] := by
  decide +kernel

/-- MxaMultiplyLoadRead: MXA.LDS fills the shadow buffer. -/
theorem test_MxaMultiplyLoadRead_lds :
    ((sArr.seqIssued 0).arrayStart 0).ldsFault 0 (arrWord 1 0) = none ∧
    ((run (.mxaLds 0 0) sArr).tile 0).mxa.shadowNew = true ∧
    ((run (.mxaLds 0 0) sArr).tile 0).mxa.shadow.map (·.tag.rows) = some 2 := by
  decide +kernel

/-- R77: a reserved bit makes a word illegal; R109: the fault is raised and nothing is written. -/
theorem test_mxa_illegal :
    ((sArr.seqIssued 0).arrayStart 0).mmFault 0 (arrWord 2 (arr 1 1 ||| at_ 1 76)) = some 1 ∧
    (run (.mxaMm 0 (arr 1 1 ||| at_ 1 76)) sArr).mem = sArr.mem := by
  decide +kernel

/-- The same, with attention parameters at 0x5000 (Table 3.11): scale 1.0, INIT, every block unmasked, and
descriptor 4 for the 4-byte outputs at 0x6000. -/
def sAtt : State :=
  (desc (desc sArr 3 1 1 0x5000 64) 4 2 2 0x6000 64).putBytes (tmGa 0 0x5000)
    ([0, 0, 0x80, 0x3F] ++ List.replicate 8 0 ++ [2, 0, 0, 0] ++ List.replicate 8 0xFF ++ [0, 0x70] ++ List.replicate 6 0)

/-- An attention word: HEADROOM 8, SD, BD, OD and AD 3. -/
def attn (sd bd od : Nat) : BitVec 120 := at_ 8 99 ||| at_ sd 72 ||| at_ bd 68 ||| at_ od 64 ||| at_ 3 46

/-- AttentionSequence: ATS, ATV and ATF in turn, without a fault. -/
theorem test_AttentionSequence :
    let a := run (.mxaAts 0 (attn 0 1 2)) sAtt
    let b := run (.mxaAtv 0 (attn 0 1 4)) a
    let j (s : State) : State := (s.seqIssued 0).arrayStart 0
    seqCan sAtt 0 = true ∧ (j sAtt).attFault 0 (arrWord 8 (attn 0 1 2)) = none ∧ ((j sAtt).attParam 0 3).recomp = false ∧
    (a.tile 0).mxa.att = some ⟨true, true, 0⟩ ∧
    seqCan a 0 = true ∧ (j a).attFault 0 (arrWord 9 (attn 0 1 4)) = none ∧ (b.tile 0).mxa.att = some ⟨false, false, 0⟩ ∧
    seqCan b 0 = true ∧ (j b).attFault 0 (arrWord 10 (attn 4 0 2)) = none ∧
    ((run (.mxaAtf 0 (attn 4 0 2)) b).tile 0).mxa.att = none := by
  decide +kernel

/-- AttentionSequence: ATS that recomputes leaves the sequence as it is. -/
theorem test_AttentionSequence_recomp :
    let s := sAtt.putBytes (tmGa 0 0x500C) [4]
    ((s.seqIssued 0).arrayStart 0).attFault 0 (arrWord 8 (attn 0 1 2)) = none ∧
    (((s.seqIssued 0).arrayStart 0).attParam 0 3).recomp = true ∧
    ((run (.mxaAts 0 (attn 0 1 2)) s).tile 0).mxa.att = none := by
  decide +kernel

/-- R92: an ATV that no ATS made due is a fault of the sequence. -/
theorem test_atv_out_of_turn : ((sAtt.seqIssued 0).arrayStart 0).attFault 0 (arrWord 9 (attn 0 1 4)) = some 8 := by
  decide +kernel

/-! ### Thread groups -/

/-- A kernel: one block of 64 threads, 32 registers, 4 KiB shared, parameters at 0x1234. -/
def kern : KernelDesc := ⟨va0 0x1000, 2, 64, 32, 4096, 0x1234⟩

/-- Lanes 0 and 1: t4 and t5 address 8 × lane from 0x2000 of the tile's memory, t6 is 8 × lane, t8 and t9 hold
lane + 5, t10 and t11 their lock. -/
def laneRegs (l : Nat) : List (Nat × BitVec 32) :=
  [(l * 256 + 4, BitVec.ofNat 32 (0x2000 + 8 * l)), (l * 256 + 5, 0xFF00), (l * 256 + 6, BitVec.ofNat 32 (8 * l)),
   (l * 256 + 8, BitVec.ofNat 32 (l + 5)), (l * 256 + 9, BitVec.ofNat 32 (l + 6))]

/-- A group with two lanes of the mask at the kernel's entry. -/
def grp : TgGroup :=
  ⟨0, 0, 0, true, [⟨va0 0x1000, 3, none, .path⟩], 0, (laneRegs 0 ++ laneRegs 1).filter fun e => decide (e.2 ≠ 0), [], [],
    [], [], none⟩

/-- Tile 0 with the kernel, its first block in slot 0 and the group in slot 0. -/
def sTg : State :=
  (sSeq.setTge 0 { TgeSt.reset with launch := some ⟨kern, 0, 1⟩, groups := [(0, some grp)], blocks := [(0, some ⟨0, 0⟩)] }).setReg
    (tgeReg 0 8) 1

/-- What group 0 of tile 0 issues its next instruction with. -/
def issue (s : State) : TgIssue := (s.tgReady 0 0).getD ⟨0, grp, 0, ⟨0, 0, none, .path⟩, kern, 0, 0⟩

/-- `tgGoes` of that group, evaluated. -/
def tgCan (s : State) : Bool :=
  decide (s.tgReady 0 0 = some (issue s) ∧ (issue s).ent.st = .path) &&
  (match s.xlAns (tileDie 0) (issue s).ctx (issue s).ent.pc.toNat .fetch .plain with
    | .ok _ => true
    | .error _ => false)

theorem tgGoes_of_tgCan (s : State) (h : tgCan s = true) : tgGoes s 0 0 (issue s) := by
  unfold tgCan at h
  simp only [Bool.and_eq_true, decide_eq_true_eq] at h
  refine ⟨h.1.1, h.1.2, ?_⟩
  have h2 := h.2
  split at h2
  · next x hx => exact ⟨x, hx⟩
  · cases h2

/-- `lanesOwn` of lanes 0 and 1 at `ga`, evaluated. -/
def ownCan (s : State) (k : XKind) (sz : Nat) (va ga : Nat → Nat) : Bool :=
  (lanes (issue s).ent.mask).all fun l => ownMem 0 (ga l) &&
    (match (s.tgIssued 0 (issue s)).checkLane 0 (issue s).ctx k sz l (va l) with
      | .ok x => decide (x.ga = ga l)
      | .error _ => false)

/-- The addresses of the lanes' registers t4 and t5. -/
def gaOf (l : Nat) : Nat := tmGa 0 (0x2000 + 8 * l)

/-- TgLaunchesPlacesAnswers: TG.LAUNCH takes a kernel, and waits for a busy engine. -/
theorem test_TgLaunchesPlacesAnswers_launch :
    let d := leBytes 8 (va0 0x1000).toNat ++ leBytes 4 2 ++ leBytes 2 64 ++ [32, 0] ++ leBytes 4 4096 ++ leBytes 4 0 ++
      leBytes 8 0x1234 ++ leBytes 32 0
    let s := (sSeq.setReg (tgeReg 0 8) 1).putBytes (tmGa 0 0x8000) d
    let w : BitVec 120 := BitVec.ofNat 120 (va0 0x8000).toNat
    seqCan s 0 = true ∧ (s.seqIssued 0).poisonedAt (tmGa 0 0x8000) 64 = false ∧
    (s.seqIssued 0).xlAns 0 0 (wbits w 47 0) .load .plain = .ok ⟨tmGa 0 0x8000, false, false, false⟩ ∧
    kernelDesc ((s.seqIssued 0).bytesAt (tmGa 0 0x8000) 64) = some kern ∧ kern.fits ((s.seqIssued 0).bsmPool 0) = true ∧
    ((run (.tgLaunch 0 w) s).tile 0).tge.launch = some ⟨kern, 0, 0⟩ ∧ ((run (.tgLaunch 0 w) s).tile 0).seq.tgBusy = true ∧
    (let b := run (.tgLaunch 0 w) s
     b.seqReady 0 = true ∧ run (.tgLaunch 0 w) b = b.wait (.tgLaunch 0 w)) := by
  decide +kernel

/-- TgLaunchesPlacesAnswers: BLOCK_PLACE places the groups of the next block. -/
theorem test_TgLaunchesPlacesAnswers_place :
    let s := (sSeq.setTge 0 { TgeSt.reset with launch := some ⟨kern, 0, 0⟩ }).setReg (tgeReg 0 8) 1
    s.tileOn 0 = true ∧ kern.fits (s.bsmPool 0) = true ∧
    (let x := ((run (.blockPlace 0) s).tile 0).tge
     x.launch = some ⟨kern, 0, 1⟩ ∧ (x.group 1).map (·.stack) = some [⟨va0 0x1000, 0xFFFFFFFF, none, .path⟩] ∧
     x.group 2 = none) := by
  decide +kernel

/-- TgLaunchesPlacesAnswers: an answer's values go into the registers; the first waiting request leaves. -/
theorem test_TgLaunchesPlacesAnswers_answer :
    let g : TgGroup := { grp with back := [(12, 7)], banks := [3], active := false }
    let s := sTg.setTge 0 { (sTg.tile 0).tge with groups := [(0, some g)] }
    let r : TileReq := ⟨0, 0, false, false, 9, 0, 2, [⟨0, 0, 2 ^ 34 + 1152, 4, .load 12 false⟩]⟩
    let q := sTg.setTge 0 { (sTg.tile 0).tge with queue := [r], groups := [(0, some { grp with active := false })] }
    (s.tile 0).tge.queue = [] ∧ (((run (.groupDataReturn 0 0) s).tile 0).tge.group 0).map (·.banks) = some [] ∧
    (((run (.groupDataReturn 0 0) s).tile 0).tge.group 0).map (·.reg 0 12) = some 7 ∧
    grantable (q.tile 0) [] (q.tile 0).tge.queue = some (r, []) ∧ (q.mustWait [(2 ^ 34 + 1152, false)]).1 = false ∧
    ((run (.requestSlotGrant 0) q).tile 0).tge.queue = [] := by
  decide +kernel

/-- TgMemoryAccess: loads and stores of two lanes in the tile's own memory. -/
theorem test_TgMemoryAccess_own :
    let m : TgMem := ⟨8, 4, 2, 0, 0, false⟩
    let s := sTg.putBytes (tmGa 0 0x2000) [1, 2, 3, 4, 0, 0, 0, 0, 0xFF]
    tgCan s = true ∧ (issue s).pairOk 4 = true ∧ (issue s).valOk 8 2 = true ∧ (s.die 0).errs = [] ∧ s.poison = [] ∧
    ownCan s .load 4 (fun l => laneVa (issue s).g l 4 0) gaOf = true ∧
    ownCan s .store 4 (fun l => laneVa (issue s).g l 4 0) gaOf = true ∧
    (((run (.tgLd 0 0 m) s).tile 0).tge.group 0).map (·.reg 0 8) = some 0x04030201 ∧
    (((run (.tgLd 0 0 { m with size := 0, sx := true }) s).tile 0).tge.group 0).map (·.reg 1 8) = some 0xFFFFFFFF ∧
    (run (.tgSt 0 0 m) s).bytesAt (gaOf 1) 4 = [6, 0, 0, 0] ∧ (run (.tgSt 0 0 m) s).bytesAt (gaOf 0 + 4) 4 = [0, 0, 0, 0] := by
  decide +kernel

/-- TgMemoryAccess: atomics of two lanes, and accesses to the block's shared memory at its last bytes. -/
theorem test_TgMemoryAccess_atomic :
    let m : TgAtomic := ⟨.add, false, true, 12, 4, 8, 9, 0⟩
    let s := sTg.putBytes (gaOf 1) [1, 1]
    tgCan s = true ∧ (issue s).atomicOk m true = true ∧ s.tgRefused (issue s) m.op = false ∧
    ownCan s .atomic 4 (fun l => laneVa (issue s).g l 4 0) gaOf = true ∧ gaOf 0 + 4 ≤ gaOf 1 ∧
    (run (.tgAtom 0 0 m) s).bytesAt (gaOf 1) 4 = [7, 1, 0, 0] ∧
    (((run (.tgAtom 0 0 m) s).tile 0).tge.group 0).map (·.reg 1 12) = some 0x0101 ∧
    (run (.tgAtom 0 0 { m with op := .maxS }) s).bytesAt (gaOf 0) 4 = [5, 0, 0, 0] := by
  decide +kernel

/-- TgMemoryAccess: TG.LDB, TG.STB and TG.ATOMB at the block's last aligned bytes. -/
theorem test_TgMemoryAccess_shared :
    let m : TgMem := ⟨8, 6, 3, 0xFF0, 0, false⟩
    let a : TgAtomic := ⟨.add, true, false, 12, 6, 8, 8, 0⟩
    let u := issue sTg
    let off (l : Nat) : Nat := 0xFF0 + 8 * l
    tgCan sTg = true ∧ u.regOk 6 = true ∧ u.valOk 8 3 = true ∧ u.atomicOk a false = true ∧
    ownMem 0 ((sTg.tgIssued 0 u).sharedGa 0 u 0) = true ∧
    (∀ l ∈ lanes u.ent.mask, sharedOff u.g l 6 0xFF0 = (off l : Int) ∧ off l % 8 = 0 ∧ off l + 8 ≤ u.desc.shared ∧
      ownMem 0 ((sTg.tgIssued 0 u).sharedGa 0 u (off l)) = true) ∧
    (run (.tgStb 0 0 m) sTg).bytesAt (tmGa 0 (2 ^ 22 - 2 ^ 16 + 0xFF8)) 8 = [6, 0, 0, 0, 7, 0, 0, 0] ∧
    (((run (.tgLdb 0 0 m) (sTg.putBytes (tmGa 0 (2 ^ 22 - 2 ^ 16 + 0xFF0)) [9])).tile 0).tge.group 0).map (·.pair 0 8) =
      some 9 ∧
    (run (.tgAtomb 0 0 a) (sTg.putBytes (tmGa 0 (2 ^ 22 - 2 ^ 16)) [1])).bytesAt (tmGa 0 (2 ^ 22 - 2 ^ 16)) 8 =
      [6, 0, 0, 0, 6, 0, 0, 0] := by
  decide +kernel

/-- R121: an access that is not aligned is a fault, of which the launch ends. -/
theorem test_tg_misaligned :
    let m : TgMem := ⟨8, 4, 2, 2, 0, false⟩
    (run (.tgLd 0 0 m) sTg).regField (tgeReg 0 0x20) 63 56 = 3 ∧ ((run (.tgLd 0 0 m) sTg).tile 0).tge.launch = none := by
  decide +kernel

/-- What one TG command leaves of group 0. -/
def grpAfter (i : Instr) (s : State) : TgGroup := (((run i s).tile 0).tge.group 0).getD { grp with num := 99 }

/-- TgPathsAndBarriers: TG.SREG, TG.BR taken by no, every and one lane, TG.FENCE. -/
theorem test_TgPathsAndBarriers_paths :
    let u := issue sTg
    tgCan sTg = true ∧ u.pairOk 8 = true ∧ u.regOk 8 = true ∧ u.ent.mask = 3 ∧ u.g.stack.length ≤ 30 ∧
    (grpAfter (.tgSreg 0 0 8 .param) sTg).pair 1 8 = 0x1234 ∧
    (run (.tgSreg 0 0 8 (.other 7)) sTg).freeCount = 2 ∧
    (grpAfter (.tgBr 0 0 0 0x40 0x80) sTg).stack.map (·.pc) = [va0 0x1008] ∧
    (grpAfter (.tgBr 0 0 7 0x40 0x80) sTg).stack.map (·.pc) = [0x40] ∧
    (grpAfter (.tgBr 0 0 1 0x40 0x80) sTg).stack =
      [⟨0x40, 1, some 0x80, .path⟩, ⟨va0 0x1008, 2, some 0x80, .path⟩, ⟨0x80, 3, none, .path⟩] ∧
    (grpAfter (.tgFence 0 0) sTg).stack.map (·.pc) = [va0 0x1008] := by
  decide +kernel

/-- TgPathsAndBarriers: TG.BAR waits for the block's other group; TG.EXIT of lanes without a lock. -/
theorem test_TgPathsAndBarriers_bar :
    let s := sTg.setTge 0 { (sTg.tile 0).tge with groups := [(0, some grp), (1, some { grp with num := 1, age := 1 })] }
    tgCan s = true ∧ (grpAfter (.tgBar 0 0 15) s).stack.map (·.st) = [.waiting 15 (va0 0x1000)] ∧
    (∀ l ∈ lanes (issue s).ent.mask, mapGet 0 (issue s).g.locks l = 0) ∧
    ((run (.tgExit 0 0) s).tile 0).tge.group 0 = none ∧ (((run (.tgExit 0 0) s).tile 0).tge.group 1).isSome = true := by
  decide +kernel

/-- TgLocksAndTimeouts: TG.ACQ of two words that read 0, then TG.REL of them. -/
theorem test_TgLocksAndTimeouts_acq :
    let a := run (.tgAcq 0 0 3 4 0x80) sTg
    tgCan sTg = true ∧ ownCan sTg .atomic 8 (fun l => laneVa (issue sTg).g l 4 0) gaOf = true ∧
    ((sTg.tile 0).held.length ≤ 256) ∧ (issue sTg).g.stack.length ≤ 32 ∧
    (∀ l ∈ lanes 3, (sTg.tgIssued 0 (issue sTg)).word64 (gaOf l) = 0 ∧ mapGet 0 (issue sTg).g.locks l < 15) ∧
    a.word64 (gaOf 1) = holderCode 0 0 0 1 ∧ mapGet 0 (grpAfter (.tgAcq 0 0 3 4 0x80) sTg).locks 1 = 1 ∧
    tgCan a = true ∧ (∀ l ∈ lanes 3, (a.tgIssued 0 (issue a)).word64 (gaOf l) = holderCode (issue a).ctx 0 0 l) ∧
    (run (.tgRel 0 0 4) a).word64 (gaOf 1) = 0 ∧ (grpAfter (.tgRel 0 0 4) a).locks = [] := by
  decide +kernel

/-- TgLocksAndTimeouts: a parked lane past LOCK_LIMIT, and an open spin window past SPIN_LIMIT. -/
theorem test_TgLocksAndTimeouts_limits :
    let parked : TgGroup := { grp with stack := [⟨va0 0x1000, 3, none, .parked [(0, 0, gaOf 0)] 0⟩] }
    let spin : TgGroup := { grp with win := some ⟨va0 0x1000, va0 0x1010, 0, none⟩ }
    let lim := sTg.setReg (tgeReg 0 0x10) (BitVec.ofNat 64 (2 ^ 32 + 1))
    let s := lim.setTge 0 { (lim.tile 0).tge with groups := [(0, some parked)] }
    let v := lim.setTge 0 { (lim.tile 0).tge with groups := [(0, some spin)] }
    s.tileOn 0 = true ∧ s.regField (tgeReg 0 0x10) 47 32 ≠ 0 ∧ s.regField (tgeReg 0 0x10) 15 0 ≠ 0 ∧
    parked.parkedLane ≠ none ∧ s.regField (tgeReg 0 0x20) 34 34 = 0 ∧
    (run (.lockTimeout 0 0) s).regField (tgeReg 0 0x20) 63 56 = 12 ∧ ((run (.lockTimeout 0 0) s).tile 0).tge.groups = [] ∧
    (run (.groupLivelock 0 0) v).regField (tgeReg 0 0x20) 63 56 = 14 ∧
    ((run (.groupLivelock 0 0) v).tile 0).seq.running = false := by
  decide +kernel

/-! ### The vector engine -/

/-- A vector word (Table 5.2): TYPE, TYPE2, VD, VS1, VS2, VS3, PM, MZ and IMM. -/
def vw (ty ty2 vd a b c pm mz imm : Nat) : BitVec 56 :=
  BitVec.ofNat 56 (ty * 2 ^ 52 + ty2 * 2 ^ 48 + vd * 2 ^ 43 + a * 2 ^ 38 + b * 2 ^ 33 + c * 2 ^ 28 + pm * 2 ^ 25 +
    mz * 2 ^ 24 + imm)

/-- Elements of a width from the lowest on. -/
def vec (w : Nat) (xs : List Nat) : BitVec 4096 :=
  BitVec.ofNat 4096 ((xs.zipIdx.map fun e => e.1 * 2 ^ (w * e.2)).sum)

/-- Tile 0's engine in a program at 0x1000, VL 3: v1 and v2 of 32-bit integers, v3 and v4 of binary32, v5 and v6 of
64-bit ESF values, v7 of bytes, p1 with element 1 masked off, s2 = 5, s3 = 2^63 − 1. -/
def sVx : State :=
  let x : VxSt := { VxSt.reset with
    running := true, pc := va0 0x1000, vl := 3, vlew := 2,
    v := [(1, vec 32 [5, 0xFFFFFFFF, 7]), (2, vec 32 [3, 1, 33]), (3, vec 32 [0x3F800000, 0x40000000, 0x40400000]),
          (4, vec 32 [0x40000000, 0x40000000, 0xBF800000]), (5, vec 64 [1, 2, 3]), (6, vec 64 [10, 20, 30]),
          (7, vec 8 [1, 2, 0x80])],
    p := [(1, 5)], sreg := [(2, 5), (3, 0x7FFFFFFFFFFFFFFF)] }
  sSeq.setTile 0 { sSeq.tile 0 with vx := x }

/-- `vuGoes` of tile 0's engine, evaluated. -/
def vuCan (s : State) : Bool :=
  (s.vu (.tile 0)).running && s.tileOn 0 &&
  (match s.xlAns (tileDie 0) (s.vu (.tile 0)).ctx (s.vu (.tile 0)).pc.toNat .fetch .plain with
    | .ok x => !(s.poisonedAt x.ga 8)
    | .error _ => false)

theorem vuGoes_of_vuCan (s : State) (h : vuCan s = true) : vuGoes s (.tile 0) := by
  unfold vuCan at h
  simp only [Bool.and_eq_true] at h
  refine ⟨h.1.1, h.1.2, ?_⟩
  have h2 := h.2
  split at h2
  · next x hx => exact ⟨x, hx, by simpa using h2⟩
  · cases h2

/-- Elements of VD after a command, up to VL. -/
def els (i : Instr) (s : State) (vd w : Nat) : List Nat :=
  let x := ((run i s).tile 0).vx
  (List.range x.vl).map fun k => x.el vd w k

/-- A scalar register after a command. -/
def sAfter (i : Instr) (s : State) (r : Nat) : BitVec 64 := ((run i s).tile 0).vx.s r

/-- VxArithmeticAndLogic: integers wrap, masked-off elements are zero under MZ and kept without, floats round. -/
theorem test_VxArithmeticAndLogic_arith :
    let t : VUnit := .tile 0
    vuCan sVx = true ∧ vxWordOk (vw 6 0 8 1 2 0 0 0 0) = true ∧ 3 ≤ vlMax (sVx.vuEnv t).rbits 32 ∧
    els (.vxAdd t (vw 6 0 8 1 2 0 0 0 0)) sVx 8 32 = [8, 0, 40] ∧
    els (.vxAdd t (vw 6 0 1 1 2 0 1 0 0)) sVx 1 32 = [8, 0xFFFFFFFF, 40] ∧
    els (.vxAdd t (vw 6 0 1 1 2 0 1 1 0)) sVx 1 32 = [8, 0, 40] ∧
    els (.vxSub t (vw 6 0 8 2 1 0 0 0 0)) sVx 8 32 = [0xFFFFFFFE, 2, 26] ∧
    els (.vxMul t (vw 6 0 8 1 2 0 0 0 0)) sVx 8 32 = [15, 0xFFFFFFFF, 231] ∧
    els (.vxMulh t (vw 2 0 8 1 2 0 0 0 0)) sVx 8 32 = [0, 0xFFFFFFFF, 0] ∧
    els (.vxMulh t (vw 6 0 8 1 1 0 0 0 0)) sVx 8 32 = [0, 0xFFFFFFFE, 0] ∧
    els (.vxFma t (vw 6 0 8 1 2 1 0 0 0)) sVx 8 32 = [20, 0xFFFFFFFE, 238] ∧
    els (.vxAdd t (vw 9 0 8 3 4 0 0 0 0)) sVx 8 32 = [0x40400000, 0x40800000, 0x40000000] ∧
    els (.vxFma t (vw 9 0 8 3 4 3 0 0 0)) sVx 8 32 = [0x40400000, 0x40C00000, 0] := by
  decide +kernel

/-- VxArithmeticAndLogic: extremes, signs, logic and shifts. -/
theorem test_VxArithmeticAndLogic_logic :
    let t : VUnit := .tile 0
    els (.vxMin t (vw 2 0 8 1 2 0 0 0 0)) sVx 8 32 = [3, 0xFFFFFFFF, 7] ∧
    els (.vxMax t (vw 6 0 8 1 2 0 0 0 0)) sVx 8 32 = [5, 0xFFFFFFFF, 33] ∧
    els (.vxAbs t (vw 2 0 8 1 0 0 0 0 0)) sVx 8 32 = [5, 1, 7] ∧
    els (.vxAbs t (vw 0 0 8 7 0 0 0 0 0)) sVx 8 8 = [1, 2, 0x80] ∧
    els (.vxNeg t (vw 9 0 8 3 0 0 0 0 0)) sVx 8 32 = [0xBF800000, 0xC0000000, 0xC0400000] ∧
    els (.vxAnd t (vw 6 0 8 1 2 0 0 0 0)) sVx 8 32 = [1, 1, 1] ∧
    els (.vxOr t (vw 6 0 8 1 2 0 0 0 0)) sVx 8 32 = [7, 0xFFFFFFFF, 39] ∧
    els (.vxXor t (vw 6 0 8 1 2 0 0 0 0)) sVx 8 32 = [6, 0xFFFFFFFE, 38] ∧
    els (.vxShl t (vw 6 0 8 1 2 0 0 0 0)) sVx 8 32 = [40, 0xFFFFFFFE, 14] ∧
    els (.vxShr t (vw 2 0 8 1 2 0 0 0 0)) sVx 8 32 = [0, 0xFFFFFFFF, 3] ∧
    els (.vxShr t (vw 6 0 8 1 2 0 0 0 0)) sVx 8 32 = [0, 0x7FFFFFFF, 3] := by
  decide +kernel

/-- VxFunctionsAndConversion: exact cases of division and square root, ESF sums, conversion, generated bits. -/
theorem test_VxFunctionsAndConversion :
    let t : VUnit := .tile 0
    els (.vxDiv t (vw 9 0 8 3 4 0 0 0 0)) sVx 8 32 = [0x3F000000, 0x3F800000, 0xC0400000] ∧
    els (.vxSqrt t (vw 9 0 8 3 0 0 0 0 0)) sVx 8 32 = [0x3F800000, 0x3FB504F3, 0x3FDDB3D7] ∧
    els (.vxFn t (vw 9 0 8 4 0 0 0 0 3)) sVx 8 32 = [0x3F000000, 0x3F000000, 0xBF800000] ∧
    els (.vxEadd t (vw 11 0 8 5 6 0 0 0 0)) sVx 8 64 = [11, 22, 33] ∧
    els (.vxCvt t (vw 6 9 8 3 0 0 0 0 0)) sVx 8 32 = [1, 2, 3] ∧
    (sVx.vuEnv t).key = sVx.jobSeed 0 ∧ cbgPurposeReserved 1 = false ∧
    (run (.vxCbg t (vw 5 0 8 0 0 2 0 0 0)) (sVx.setVu t { sVx.vu t with sreg := [(2, 1)] })).tile 0 ≠ sVx.tile 0 := by
  decide +kernel

/-- VxSelectPermutePack: selection, permutation, shuffles, widening, packing and compressing. -/
theorem test_VxSelectPermutePack :
    let t : VUnit := .tile 0
    els (.vxSel t (vw 6 0 8 1 2 1 0 0 0)) sVx 8 32 = [5, 1, 7] ∧
    els (.vxBcast t (vw 6 0 8 2 0 0 0 0 0)) sVx 8 32 = [5, 5, 5] ∧
    vxIndexOk (sVx.vuEnv t) (sVx.vu t) 32 2 = true ∧
    els (.vxPerm t (vw 6 0 8 1 2 0 0 0 0)) sVx 8 32 = [0, 5, 0xFFFFFFFF] ∧
    els (.vxPerm2 t (vw 6 0 8 1 2 2 0 0 0)) sVx 8 32 = [3, 5, 0xFFFFFFFF] ∧
    els (.vxShuf t (vw 6 0 8 1 0 0 0 0 1)) sVx 8 32 = [0xFFFFFFFF, 7, 5] ∧
    els (.vxShuf t (vw 6 1 8 1 0 0 0 0 2)) sVx 8 32 = [7, 7, 7] ∧
    els (.vxShuf t (vw 6 2 8 1 0 0 0 0 0)) sVx 8 32 = [7, 0xFFFFFFFF, 5] ∧
    els (.vxShuf t (vw 6 3 8 1 0 0 0 0 1)) sVx 8 32 = [0xFFFFFFFF, 5, 0] ∧
    els (.vxShuf t (vw 6 4 8 1 2 0 0 0 0)) sVx 8 32 = [5, 3, 0xFFFFFFFF] ∧
    els (.vxShuf t (vw 6 5 8 1 2 0 0 0 0)) sVx 8 32 = [5, 7, 1] ∧
    els (.vxUnpack t (vw 1 0 8 7 0 0 0 0 0)) sVx 8 16 = [1, 2, 0xFF80] ∧
    (let x := ((run (.vxPack t (vw 5 6 8 1 2 0 0 0 1)) sVx).tile 0).vx
     (List.range 6).map (x.el 8 16) = [5, 0xFFFF, 7, 3, 1, 33]) ∧
    els (.vxCompress t (vw 6 0 8 1 0 4 1 0 0)) sVx 8 32 = [5, 7, 0] ∧ sAfter (.vxCompress t (vw 6 0 8 1 0 4 1 0 0)) sVx 4 = 2 := by
  decide +kernel

/-- VxScalarsAndReductions: scalars and SETVL; s0 stays 0. -/
theorem test_VxScalarsAndReductions_scalars :
    let t : VUnit := .tile 0
    sAfter (.vxSetvl t (vw 2 0 4 3 0 0 0 0 0)) sVx 4 = 128 ∧ sAfter (.vxSetvl t (vw 2 0 0 3 0 0 0 0 0)) sVx 0 = 0 ∧
    sAfter (.vxSadd t (vw 0 0 4 2 3 0 0 0 0)) sVx 4 = 0x8000000000000004 ∧
    sAfter (.vxSaddi t (vw 0 0 4 2 0 0 0 0 0x3FF)) sVx 4 = 4 ∧ sAfter (.vxSmul t (vw 0 0 4 2 2 0 0 0 0)) sVx 4 = 25 ∧
    sAfter (.vxExt t (vw 6 0 4 1 0 0 0 0 0)) sVx 4 = 5 ∧ sAfter (.vxPcnt t (vw 0 0 4 1 0 0 0 0 0)) sVx 4 = 2 ∧
    sAfter (.vxPcnt t (vw 0 0 4 0 0 0 0 0 0)) sVx 4 = 3 := by
  decide +kernel

/-- VxScalarsAndReductions: sums, extremes, the lowest index of the maximum, no active element, exact sums. -/
theorem test_VxScalarsAndReductions_reductions :
    let t : VUnit := .tile 0
    let none_ := sVx.setVu t { sVx.vu t with p := [] }
    sAfter (.vxRadd t (vw 2 0 4 1 0 0 0 0 0)) sVx 4 = 11 ∧ sAfter (.vxRadd t (vw 6 0 4 1 0 0 1 0 0)) sVx 4 = 12 ∧
    sAfter (.vxRadds t (vw 4 0 4 7 0 0 0 0 0)) sVx 4 = 131 ∧ sAfter (.vxRmin t (vw 2 0 4 1 0 0 0 0 0)) sVx 4 = 0xFFFFFFFF ∧
    sAfter (.vxRmax t (vw 6 0 4 2 0 0 0 0 0)) sVx 4 = 33 ∧ sAfter (.vxRargmax t (vw 6 0 4 1 0 0 0 0 0)) sVx 4 = 1 ∧
    vuCan none_ = true ∧ sAfter (.vxRargmax t (vw 6 0 4 1 0 0 1 0 0)) none_ 4 = 0xFFFFFFFFFFFFFFFF ∧
    sAfter (.vxFsumx t (vw 9 0 2 3 0 0 0 0 0)) sVx 2 = 11 ∧ sAfter (.vxFssqx t (vw 9 0 2 3 0 0 0 0 0)) sVx 2 = 19 ∧
    sAfter (.vxEsum t (vw 11 0 3 5 0 0 0 0 0)) sVx 3 = 0x7FFFFFFFFFFFFFFF := by
  decide +kernel

/-- VxMaskResults: comparison and logic of masks; p0 stays all ones. -/
theorem test_VxMaskResults :
    let t : VUnit := .tile 0
    ((run (.vxCmp t (vw 6 0 2 1 2 0 0 0 2)) sVx).tile 0).vx.pr 2 = 4 ∧
    ((run (.vxCmp t (vw 6 0 0 1 2 0 0 0 2)) sVx).tile 0).vx.pr 0 = BitVec.allOnes 512 ∧
    ((run (.vxPlog t (vw 0 0 2 1 0 0 0 0 0)) sVx).tile 0).vx.pr 2 = 5 ∧
    vxWordOk (vw 5 0 2 0 0 2 0 0 0) = true ∧ ((run (.vxCbgm t (vw 5 0 2 0 0 0 0 0 0)) sVx).tile 0).vx.pc = va0 0x1008 := by
  decide +kernel

/-- VxProgramsRun: launch, branches both ways, fence and end. -/
theorem test_VxProgramsRun_flow :
    let t : VUnit := .tile 0
    let w : BitVec 120 := BitVec.ofNat 120 ((va0 0x2000).toNat + 0x77 * 2 ^ 48)
    seqCan sSeq 0 = true ∧ (sSeq.tile 0).vx.running = false ∧ ((run (.vxLaunch 0 w) sSeq).tile 0).vx.running = true ∧
    ((run (.vxLaunch 0 w) sSeq).tile 0).vx.s 1 = 0x77 ∧ ((run (.vxLaunch 0 w) sSeq).tile 0).vx.pc = va0 0x2000 ∧
    (sVx.seqReady 0 = true ∧ run (.vxLaunch 0 w) sVx = sVx.wait (.vxLaunch 0 w)) ∧
    ((run (.vxSbne t (vw 0 0 0 2 3 0 0 0 0x3FE)) sVx).tile 0).vx.pc = va0 0xFF0 ∧
    ((run (.vxSbne t (vw 0 0 0 2 2 0 0 0 0x3FE)) sVx).tile 0).vx.pc = va0 0x1008 ∧
    ((run (.vxSblt t (vw 0 0 0 2 3 0 0 0 2)) sVx).tile 0).vx.pc = va0 0x1010 ∧
    ((run (.vxFence t 0) sVx).tile 0).vx.pc = va0 0x1008 ∧ ((run (.vxEnd t 0) sVx).tile 0).vx.running = false := by
  decide +kernel

/-- VxMemoryOwn: loads and stores of the tile's own memory by unit stride, stride and index, and of one scalar. -/
theorem test_VxMemoryOwn :
    let t : VUnit := .tile 0
    let b := (va0 0x2000).toNat
    let s := (sVx.setVu t { sVx.vu t with sreg := [(2, BitVec.ofNat 64 b), (3, 8)] }).putBytes (tmGa 0 0x2000)
      [1, 0, 0, 0, 2, 0, 0, 0, 3]
    let ga (i : Nat) : Nat := tmGa 0 (0x2000 + 4 * i)
    vuCan s = true ∧ (s.die 0).errs = [] ∧ s.poison = [] ∧
    ((s.tile 0).vx.actives (vw 6 0 8 2 0 0 0 0 0) 3).all (fun i => ownMem 0 (ga i)) = true ∧
    ((s.tile 0).vx.actives (vw 6 0 8 2 0 0 0 0 0) 3).all (fun i =>
      match (s.vuIssued t).vuCheck t false 4 (i, vxUnit (vw 6 0 8 2 0 0 0 0 0) 2 (s.tile 0).vx i % 2 ^ 48) with
      | .ok a => decide (a.x.ga = ga i)
      | .error _ => false) = true ∧
    els (.vxLd t (vw 6 0 8 2 0 0 0 0 0)) s 8 32 = [1, 2, 3] ∧
    els (.vxLds t (vw 6 0 8 2 3 0 0 0 0)) s 8 32 = [1, 3, 0] ∧
    (run (.vxSt t (vw 6 0 0 1 2 0 0 0 0)) s).bytesAt (ga 1) 8 = [0xFF, 0xFF, 0xFF, 0xFF, 7, 0, 0, 0] ∧
    (run (.vxSts t (vw 6 0 0 1 2 3 1 0 0)) s).bytesAt (ga 0) 9 = [5, 0, 0, 0, 2, 0, 0, 0, 3] ∧
    (run (.vxSst t (vw 0 0 0 2 3 0 0 0 0)) s).bytesAt (ga 0) 4 = [8, 0, 0, 0] ∧
    sAfter (.vxSld t (vw 0 0 4 2 0 0 0 0 0)) s 4 = 0x0000000200000001 := by
  decide +kernel

/-- VxProgramsRun: an element program that doubles 32-bit integers is loaded, and run on v1 (R177 to R179). -/
theorem test_VxProgramsRun_element :
    let t : VUnit := .tile 0
    let p := leBytes 4 (2 * 2 ^ 22 + 2 * 2 ^ 20) ++ leBytes 4 (2 ^ 26 + 6 * 2 ^ 23)
    let s := (sVx.setVu t { sVx.vu t with sreg := [(2, (va0 0x3000).zeroExtend 64)] }).putBytes (tmGa 0 0x3000) p
    let l := run (.vxEpld t (vw 0 0 0 2 0 0 0 0 0)) s
    vuCan s = true ∧ (va0 0x3000).toNat % 256 = 0 ∧
    (s.vuIssued t).xlAns 0 0 (va0 0x3000).toNat .load .plain = .ok ⟨tmGa 0 0x3000, false, false, false⟩ ∧
    epCheck ((List.range 41).map fun k => field (s.bytesAt (tmGa 0 0x3000) 164) (4 * k) 4) = true ∧
    (l.tile 0).vx.epAt = (va0 0x3000).toNat ∧ vuCan l = true ∧
    els (.vxEprun t (vw 2 0 8 1 0 0 0 0 0)) l 8 32 = [10, 0xFFFFFFFE, 14] := by
  decide +kernel

/-- VxMemoryOwn: indexed load and store, with one element masked off; the store's other bytes stay. -/
theorem test_VxMemoryOwn_indexed :
    let t : VUnit := .tile 0
    let x := sVx.vu t
    let s := (sVx.setVu t { x with sreg := [(2, BitVec.ofNat 64 (va0 0x2000).toNat)], v := mapSet 0 x.v 9 (vec 32 [8, 4, 0]) }).putBytes
      (tmGa 0 0x2000) [1, 0, 0, 0, 2, 0, 0, 0, 3]
    els (.vxLdx t (vw 6 0 8 2 0 9 1 1 0)) s 8 32 = [3, 0, 1] ∧
    (run (.vxStx t (vw 6 0 0 1 2 9 1 0 0)) s).bytesAt (tmGa 0 0x2000) 12 = [7, 0, 0, 0, 2, 0, 0, 0, 5, 0, 0, 0] := by
  decide +kernel

/-- R181: an index that VLMAX does not reach is a vector-length fault; the program stops. -/
theorem test_vx_vl_fault :
    let s := sVx.setVu (.tile 0) { sVx.vu (.tile 0) with vl := 512, vlew := 0 }
    let n := run (.vxAdd (.tile 0) (vw 6 0 8 1 2 0 0 0 0)) s
    (n.tile 0).vx.running = false ∧ (n.tile 0).seq.running = false := by
  decide +kernel

/-! ### Memory and caches -/

/-- A die with errors in storage, a heal, a fill and a stream entry. -/
def sDie : State :=
  on.setDie 0 { DieSt.reset with
    errs := [⟨tmGa 0 64, true, false⟩], heals := [gaLine (2 ^ 30 + 256)],
    fills := [⟨gaLine (2 ^ 30 + 512), some .normal, 1⟩], streams := [⟨.controller, 1, 5, none, 1, 0⟩] }

/-- StorageHealsAndFills: the patrol corrects; a heal ends with its data, with poison, by time. -/
theorem test_StorageHealsAndFills_heals :
    let a : BitVec 40 := BitVec.ofNat 40 (2 ^ 30 + 256)
    sDie.dieOn 0 = true ∧ (sDie.die 0).errs.all (·.correct) = true ∧ ((run (.patrolScrub 0) sDie).die 0).errs = [] ∧
    memSame sDie (run (.patrolScrub 0) sDie) = true ∧ gaLine a.toNat ∈ (sDie.die 0).heals ∧
    (run (.healComplete 0 a 7 false) sDie).bytesAt (2 ^ 30 + 256) 2 = [7, 0] ∧
    setHas (run (.healComplete 0 a 7 true) sDie).poison (granule (2 ^ 30 + 256)).1 = true ∧
    setHas (run (.healTimeout 0 a) sDie).poison (granule (2 ^ 30 + 256)).1 = true ∧
    ((run (.healTimeout 0 a) sDie).die 0).heals = [] := by
  decide +kernel

/-- StorageHealsAndFills: a fill is allocated; an entry that nothing matched for 4,096 ft is freed, not before. -/
theorem test_StorageHealsAndFills_fills :
    let a : BitVec 40 := BitVec.ofNat 40 (2 ^ 30 + 512)
    let n := run (.hcFillComplete 0 a) sDie
    (sDie.die 0).fills.find? (·.line = gaLine a.toNat) = some ⟨gaLine a.toNat, some .normal, 1⟩ ∧
    (sDie.die 0).find (gaLine a.toNat) = none ∧
    freeWay ((sDie.die 0).set (gaLine a.toNat)) (sDie.pinWays 0) 16 ≠ none ∧ (n.die 0).fills = [] ∧
    ((n.die 0).find (gaLine a.toNat)).map (·.st) = some .clean ∧
    ((run (.streamEntryExpire 0) { sDie with ftc := 4095 }).die 0).streams.length = 1 ∧
    ((run (.streamEntryExpire 0) { sDie with ftc := 4096 }).die 0).streams = [] := by
  decide +kernel

/-- A die with one clean line and one reduction entry of 16-bit integers in its home cache. -/
def sHc : State :=
  (on.setDie 0 { DieSt.reset with
    sets := [(hcSetOf (gaLine (2 ^ 30)), [⟨0, gaLine (2 ^ 30), .clean, .normal⟩]),
             (hcSetOf (gaLine (2 ^ 30 + 128)), [⟨0, gaLine (2 ^ 30 + 128), .red 0 0 0 5, .normal⟩])] }).putBytes (2 ^ 30) [3]

/-- CachesReduceFlushForget: a reduce-write adds to a present line, and to a reduction entry. -/
theorem test_CachesReduceFlushForget_reduce :
    let a : BitVec 40 := BitVec.ofNat 40 (2 ^ 30)
    let b : BitVec 40 := BitVec.ofNat 40 (2 ^ 30 + 128)
    let go (ga : BitVec 40) : State := run (.reduceWrite (.fabric 0) 0 ga 0 0xFFFFFFFFFFFFFFFF 4) sHc
    redFormed a.toNat 0 = true ∧ sHc.gaCause (redSrc (.fabric 0)) a.toNat = none ∧ sHc.dieOn 0 = true ∧
    sHc.readyLine a.toNat true = (false, sHc) ∧ sHc.readyLine b.toNat true = (false, sHc) ∧ (sHc.die 0).fills = [] ∧
    (redRefusedFmt 0 && sHc.ctxDet 0) = false ∧
    ((sHc.die 0).find (gaLine b.toNat)).map (·.st) = some (.red 0 0 0 5) ∧
    (go a).bytesAt (2 ^ 30) 1 = [7] ∧ memSame sHc (go b) = true ∧
    (((go b).die 0).find (gaLine b.toNat)).map (·.st) = some (.red 0 0 0 9) := by
  decide +kernel

/-- CachesReduceFlushForget: near caches forget a granule and a tile's are turned off; run-ahead takes the next line. -/
theorem test_CachesReduceFlushForget_near :
    let ga := 2 ^ 30 + 4096
    let h : NcLine := ⟨.ga (ga / 128), 0, false, 0⟩
    let e : RaStream := ⟨0, 0, (va0 (2 ^ 26)).toNat / 128, true, 8, 0, false⟩
    let s := on.setTile 5 { TileSt.reset with nc := [(3, [h])], ra := [e] }
    s.on = true ∧ homed ga = true ∧ ((run (.ncGranuleInvalidate (BitVec.ofNat 40 ga)) s).tile 5).nc = [] ∧
    s.tileOn 5 = true ∧ ((run (.ncDisable 5) s).tile 5).nc = [] ∧
    (run (.ncDisable 5) s).regField (ncReg 5 0) 0 0 = 0 := by
  decide +kernel

/-- CachesReduceFlushForget: flush and pin load begin and end. -/
theorem test_CachesReduceFlushForget_flush :
    let f := run (.hcFlush 0) sDie
    let p := run (.hcPinLoad 0) sDie
    sDie.pwr.ps < 4 ∧ (f.die 0).flushing = true ∧ f.regField (hcReg 0 0) 3 3 = 1 ∧ f.dieOn 0 = true ∧
    (f.die 0).lines = [] ∧ (run (.hcFlushComplete 0) f).regField (hcReg 0 0) 3 3 = 0 ∧
    (p.die 0).pinLoad = true ∧ p.regField (hcReg 0 8) 5 5 = 1 ∧ (run (.hcPinLoadComplete 0) p).regField (hcReg 0 8) 5 5 = 0 ∧
    memSame p (run (.hcPinLoadComplete 0) p) = true := by
  decide +kernel

/-- TileMoverTransfers: a copy of 64 bytes in the tile's own memory is in progress, done and completes; one of none
is stale; a busy tag makes TMV.XFER wait. -/
theorem test_TileMoverTransfers :
    let d : List Byte := leBytes 64 0
    let d := (d.set 8 0).set 32 64
    let s := (sSeq.putBytes (tmGa 0 0x2000) d).putBytes (tmGa 0 0x3000) [9]
    let w : BitVec 120 := BitVec.ofNat 120 (va0 0x2000).toNat
    seqCan s 0 = true ∧ (s.tile 0).tmv.xfers.length < 8 ∧ s.xfer 0 0 = none ∧
    (run (.tmvXferComplete 0 7 1) s).reg (tmvReg 0 0x110) = 1 ∧
    (let x := s.setXfers 0 [⟨7, 1, 0, 0, (xferDesc (List.replicate 64 0)).getD ⟨0, 0, 0, 0, 0, 0, 0, 0, 0, 64, 1, 1, 0, 0, 0, 0, 0, 0, 0, 0⟩, [], [], 0⟩]
     x.tileOn 0 = true ∧ (x.xfer 0 7).map (·.gen) = some 1 ∧ x.seqReady 0 = true ∧
     run (.tmvXfer 0 (w ||| at_ 7 48)) x = x.wait (.tmvXfer 0 (w ||| at_ 7 48)) ∧
     ((run (.tmvXferComplete 0 7 1) x).tile 0).tmv.xfers = []) := by
  decide +kernel

/-! ### Synchronisation -/

/-- A sync word on die 0 in counting mode, generation 7, COUNT 5; and its VA. -/
def syGa : Nat := 3 * 2 ^ 30 + 64
def syImg (mode gen count : Nat) : Word := BitVec.ofNat 64 (mode * 2 ^ 62 + gen * 2 ^ 54 + count)
def sSy : State := sSeq.setSync syGa (syImg 1 7 5)
/-- A sequencer's synchronisation word: the address and an operand above it. -/
def syw (op : Nat) : BitVec 120 := BitVec.ofNat 120 ((va0 syGa).toNat + op * 2 ^ 48)

/-- SyncWordOperations: SY.INIT, SY.SIG up to the highest count and of another generation, SY.WAIT of 0, of the whole
count and of more. -/
theorem test_SyncWordOperations_seq :
    let q := ((sSy.seqIssued 0).tile 0).seq
    let sig := syw (7 + 0xFFFA * 256)
    let hi := sSeq.setSync syGa (syImg 1 7 0xFFFF0005)
    seqCan sSy 0 = true ∧ sSy.tileQuiet 0 = true ∧ (sSy.home 0).queue = [] ∧ gaRegion syGa = 3 ∧ gaDie syGa = 0 ∧
    (sSy.seqIssued 0).xlAns 0 q.ctx (va0 syGa).toNat .store .syncInitOrSig = .ok ⟨syGa, false, false, false⟩ ∧
    (sSy.seqIssued 0).xlAns 0 q.ctx (va0 syGa).toNat (waitKind 5) .syncOther = .ok ⟨syGa, false, false, false⟩ ∧
    (run (.syInit (.seq 0 (syw (syImg 2 255 1).toNat))) sSy).sync = [(syGa, syImg 2 255 1)] ∧
    (run (.sySig (.seq 0 sig)) hi).syncWord syGa = syImg 1 7 0xFFFFFFFF ∧
    (run (.sySig (.seq 0 sig)) hi).syncWord syGa = putBits (syImg 1 7 0xFFFF0005) 31 0 0xFFFFFFFF ∧
    ((run (.sySig (.seq 0 (syw (8 + 256)))) sSy).tile 0).seq.running = false ∧
    (run (.syWait (.seq 0 (syw 7))) sSy).syncWord syGa = syImg 1 7 5 ∧
    (run (.syWait (.seq 0 (syw (7 + 5 * 256)))) sSy).syncWord syGa = syImg 1 7 0 ∧
    (let n := run (.syWait (.seq 0 (syw (7 + 6 * 256)))) sSy
     (n.home 0).queue = [⟨syGa, 7, 6, none, .seq 0⟩] ∧ (n.tile 0).seq = { q with wait := .sync syGa } ∧ n.sync = sSy.sync) := by
  decide +kernel

/-- Lane l addresses the word at 8 × l behind `syGa`, with GEN 7 and N = 5 in t6 and t7. -/
def sTgSy : State :=
  let r (l : Nat) : List (Nat × BitVec 32) :=
    [(l * 256 + 4, BitVec.ofNat 32 (syGa + 8 * l)), (l * 256 + 5, 0xFF00), (l * 256 + 6, 5), (l * 256 + 7, 0x07000000)]
  let s := sTg.setTge 0 { (sTg.tile 0).tge with groups := [(0, some { grp with regs := r 0 ++ r 1 })] }
  (s.setSync syGa (syImg 1 7 6)).setSync (syGa + 8) (syImg 1 7 4)

/-- SyncWordOperations: SY.TRY of two lanes, one that is satisfied and one that is not; SY.POLL. -/
theorem test_SyncWordOperations_group :
    let o : SyOp := .group 0 0 20 4 6 0
    let u := issue sTgSy
    tgCan sTgSy = true ∧ u.pairOk 20 = true ∧ u.pairOk 22 = true ∧ u.ent.mask = 3 ∧
    (∀ l ∈ lanes 3, (u.g.pair l 4).toNat % 8 = 0 ∧ tbGen (u.g.pair l 6) = 7 ∧ tbN (u.g.pair l 6) = 5 ∧
      (sTgSy.tgIssued 0 u).xlAns 0 u.ctx ((u.g.pair l 4).toNat % 2 ^ 48) (waitKind 5) .syncOther =
        .ok ⟨syGa + 8 * l, false, false, false⟩ ∧
      (sTgSy.tgIssued 0 u).xlAns 0 u.ctx ((u.g.pair l 4).toNat % 2 ^ 48) .load .syncOther =
        .ok ⟨syGa + 8 * l, false, false, false⟩) ∧
    (grpAfter (.syTry o) sTgSy).pair 0 20 = 1 ∧ (grpAfter (.syTry o) sTgSy).pair 1 20 = 0x0100000000000004 ∧
    (run (.syTry o) sTgSy).sync = [(syGa, syImg 1 7 1), (syGa + 8, syImg 1 7 4)] ∧
    (grpAfter (.syPoll o) sTgSy).pair 0 20 = 6 ∧ (grpAfter (.syPoll o) sTgSy).pair 0 22 = syImg 1 7 6 := by
  decide +kernel

/-- SyncSignalsAndWaits: SY.CSIG to a target with an atomic and a vector, to one of another generation; timeouts. -/
theorem test_SyncSignalsAndWaits :
    let s := (sSeq.setReg (syncReg 48 0x40F0) (BitVec.ofNat 64 (7 * 2 ^ 61 + 9 * 8))).setReg (syncReg 48 0x40F8)
      (BitVec.ofNat 64 (3 * 2 ^ 56 + 0x7FF))
    let w (gen : Nat) : BitVec 120 := BitVec.ofNat 120 (15 + gen * 2 ^ 48 + 0xFFFF * 2 ^ 56)
    let wait (t : Option Nat) : SyncWait := ⟨syGa, 7, 5, t, .seq 0⟩
    seqCan s 0 = true ∧ s.tileQuiet 0 = true ∧
    (run (.syCsig (.seq 0 (w 3))) s).out = [.cclAtomic 0 72 0xFFFF, .cclInterrupt 0 2 0 0x7FF] ∧
    ((run (.syCsig (.seq 0 (w 4))) s).tile 0).seq.running = false ∧
    (let q := { sSy.setHome 0 ⟨[wait (some 9)], []⟩ with ftc := 9 }
     q.on = true ∧ ((run (.syncWaitTimeout 0) q).home 0).queue = [] ∧
     (run (.syncWaitTimeout 0) q).reg (syncReg 0 0x128) = 1 ∧ (run (.syncWaitTimeout 0) q).sync = sSy.sync ∧
     ((run (.syncWaitTimeout 0) { q with ftc := 8 }).home 0).queue = [wait (some 9)]) ∧
    (let r := sSy.setHome 0 ⟨[], [wait none]⟩
     ((run (.syncWaitRetry 0) r).home 0).retry = [] ∧ (run (.syncWaitRetry 0) r).syncWord syGa = syImg 1 7 0) := by
  decide +kernel

/-- A word of fields (value, lowest bit). -/
def wf (l : List (Nat × Nat)) : Word := BitVec.ofNat 64 ((l.map fun e => e.1 * 2 ^ e.2).sum)

/-- Tile 0's barrier word for counter 31 and generation 9. -/
def barW : BitVec 120 := BitVec.ofNat 120 (31 + 9 * 2 ^ 48)

/-- Counter 31 of die 0: generation 9, context 0, tiles 0 and 11. -/
def sBar (mode : Nat) : State := sSeq.setReg (barReg 0 31 0) (wf [(1, 63), (mode, 61), (9, 53), (0x801, 0)])

/-- DieBarriers: an arrival at a local and at an up counter waits. -/
theorem test_DieBarriers_arrive :
    (∀ m ∈ [0, 1], let s := sBar m; let i := s.seqIssued 0; let n := run (.syBar (.seq 0 barW)) s
      seqCan s 0 = true ∧ s.tileQuiet 0 = true ∧ wbits barW 47 5 = 0 ∧ wbits barW 119 56 = 0 ∧ wbits barW 4 0 = 31 ∧
      i.regField (barReg 0 31 0) 63 63 = 1 ∧ i.regField (barReg 0 31 0) 60 53 = wbits barW 55 48 ∧
      (i.barMask 0 31).testBit 0 = true ∧ i.barCtx 0 31 = ((i.tile 0).seq.ctx).val ∧ i.barMode 0 31 = m ∧
      i.arrived 0 31 = 0 ∧ n.arrived 0 31 = 1 ∧ (n.tile 0).seq.wait = .barrier ∧
      (n.bar 0 31).waiting = [(.seq 0, 0)] ∧ memSame i n = true) := by
  decide +kernel

/-- DieBarriers: the check of a timed phase, and the writes of configurations. -/
theorem test_DieBarriers_check :
    let s : State := { ((sBar 2).setReg (barReg 0 31 8) (wf [(1, 0), (0x800, 24), (0xFFFF, 48)])).setBar 0 31
      { BarSt.reset with isOpen := true, deadline := 100, nextD := 200 } with ftc := 100 }
    let n := run (.barrierPhaseCheck 0 31) s
    s.on = true ∧ s.barMode 0 31 = 2 ∧ (s.bar 0 31).held = [] ∧ n.regField (barReg 0 31 8) 23 12 = 0x800 ∧
    n.regField (barReg 0 31 8) 63 48 = 0 ∧ n.arrived 0 31 = 0x800 ∧ memSame s n = true ∧
    (let m := run (.barCfgWrite 0 31 (wf [(1, 63), (0xFFF, 0)])) s
     (s.bar 0 31).waiting = [] ∧ m.reg (barReg 0 31 8) = 0 ∧ m.bar 0 31 = BarSt.reset ∧
     m.regField (barReg 0 31 0) 11 0 = 0xFFF) ∧
    (let c := s.setReg (mbcReg 63 0x10) 1
     let m := run (.syncMbcCfgWrite 63 (wf [(1, 63), (2 ^ 48 - 1, 0)])) c
     m.reg (mbcReg 63 0x10) = 0 ∧ m.regField (mbcReg 63 0) 47 0 = 2 ^ 48 - 1) := by
  decide +kernel

/-- Module context 63: generation 9, dies 0 and 47, child ports 0 and 7, parent port 3. -/
def sMbc : State :=
  (on.setReg (mbcReg 63 0) (wf [(1, 63), (9, 54), (1, 47), (1, 0)])).setReg (mbcReg 63 8) (wf [(0x81, 0), (3, 16), (50, 48)])

/-- ModuleBarriers: reports of a die and of a child module, a release, a release that no counter takes. -/
theorem test_ModuleBarriers_untimed :
    let s := { sMbc with sy := { sMbc.sy with msgs := [.report 47 63 none noFlags] } }
    let d := run (.dieBarrierReport 47 63) s
    let m := run (.moduleBarrierReport 7 63 9 none noFlags) s
    let up := sMbc.setMbc 63 { MbcSt.reset with isOpen := true, untimed := true, reported := true }
    let r := run (.moduleBarrierRelease 3 63 9) up
    s.mbcDies 63 = [0, 47] ∧ s.mbcKids 63 = [0, 7] ∧ d.sy.msgs = [] ∧ d.reg (mbcReg 63 0x10) = wf [(1, 47)] ∧
    (d.mbc 63).isOpen = true ∧ d.out = [] ∧ m.reg (mbcReg 63 0x10) = wf [(1, 63)] ∧ m.out = [] ∧
    up.mbcRoot 63 = false ∧ r.sy.msgs = [.release 0 63, .release 47 63] ∧ r.out = [.barRelease 0 63 9, .barRelease 7 63 9] ∧
    r.reg (mbcReg 63 0x10) = 0 ∧ (r.mbc 63).reported = false ∧
    (let q := run (.dieBarrierRelease 47 63) r
     q.sy.msgs = [.release 0 63] ∧ q.reg (barCnt 47 0x808) = 1) := by
  decide +kernel

/-- ModuleBarriers: the check of a timed context at its deadline and its margin, and not before. -/
theorem test_ModuleBarriers_check :
    let s : State := { (sMbc.setReg (mbcReg 63 0x10) (wf [(1, 0), (1, 56)])).setMbc 63
      { MbcSt.reset with isOpen := true, deadline := 100 } with ftc := 150 }
    let n := run (.mbcTimedCheck 63) s
    s.mbcMissing 63 = ([47], [7]) ∧ n.regField (mbcReg 63 0x18) 47 0 = 2 ^ 47 ∧ n.regField (mbcReg 63 0x18) 63 56 = 0x80 ∧
    (n.mbc 63).isOpen = false ∧ n.reg (mbcReg 63 0x10) = 0 ∧
    n.out.any (fun m => match m with | .barReport 3 63 9 (some 100) _ => true | _ => false) = true ∧
    ((run (.mbcTimedCheck 63) { s with ftc := 149 }).mbc 63).isOpen = true := by
  decide +kernel

/-! ### Fabric time -/

/-- FAB_TIME_STATUS of the four fabric dies. -/
def timeAs (s : State) (v : Word) : State := (List.range 4).foldl (fun s f => s.setReg (regGa (48 + f) 0x8010) v) s

/-- A role, a lock state and whether REFCLK and pulse are there. -/
def sTime (role lock ref pps : Nat) : State := timeAs on (wf [(role, 62), (lock, 52), (pps, 51), (ref, 50), (15, 46), (7, 54)])

/-- PulseAndReferenceClock: the master takes its value, relocks within 9 ft, loses the pulse after 3 s, REFCLK for
100 ms, and has it back. -/
theorem test_PulseAndReferenceClock :
    let s := sTime 1 0 1 0
    let a : State := { s with time := { s.time with ppsNext := some 1000 }, ftc := 10 }
    let n := run .ppsEdge a
    n.timeField 53 52 = 2 ∧ n.timeField 51 51 = 1 ∧ n.ftc = 1000 ∧ n.time.reference = 1000 ∧ n.time.locked = true ∧
    (run .ppsEdge { a with ftc := 1001 }).ftc = 1001 ∧
    (let r : State := { sTime 1 1 1 1 with time := { TimeSt.reset with locked := true, reference := 7 }, ftc := 450000016 }
     (run .ppsEdge r).timeField 53 52 = 2 ∧ (run .ppsEdge { r with ftc := 450000017 }).timeField 53 52 = 1 ∧
     (run .ppsLoss { r with ftc := 1350000000 }).timeField 51 51 = 0 ∧
     (run .ppsLoss { r with ftc := 1349999999 }).timeField 51 51 = 1) ∧
    (let r := run .refclkLoss { sTime 1 2 1 1 with ftc := 5 }
     r.timeField 50 50 = 0 ∧ r.time.refLost = some 5 ∧ r.timeField 53 52 = 2 ∧
     (run .refclkHoldTimeout { r with ftc := 45000005 }).timeField 53 52 = 0 ∧
     (run .refclkHoldTimeout { r with ftc := 45000004 }).timeField 53 52 = 2 ∧
     (run .refclkReturn r).timeField 53 52 = 2 ∧ (run .refclkReturn r).time.refLost = none) ∧
    (run .refclkReturn { sTime 1 0 0 0 with time := { TimeSt.reset with locked := true } }).timeField 53 52 = 1 := by
  decide +kernel

/-- A module with an ACTIVE link 0, generation 5. -/
def linked (s : State) : State := s.setReg (linkReg 0 8) (wf [(4, 60), (5, 37)])

/-- TimeTreeExchanges: a message sent, one received at a master, one of another generation. -/
theorem test_TimeTreeExchanges_exchange :
    let s : State := { linked (sTime 1 2 1 1) with ftc := 3 }
    let n := run (.timeSend 0) s
    let m : BitVec 112 := BitVec.ofNat 112 (2 ^ 72 * 200 + 2 ^ 32 * 100)
    s.linkState 0 = 4 ∧ s.linkGen 0 = 5 ∧ s.stamp = 3 * 256 ∧ (n.portTime 0).sent = 3 * 256 ∧
    n.out.any (fun o => match o with
      | .control 0 3 5 m => decide (wbits m 111 72 = 768 ∧ wbits m 25 24 = 2 ∧ wbits m 3 2 = 1)
      | _ => false) = true ∧
    ((run (.time 0 5 m) s).portTime 0).delay = (768 - 100) / 2 ∧ ((run (.time 0 5 m) s).portTime 0).offset = (100 - 568) / 2 ∧
    (run (.time 0 6 m) s).reg (linkReg 0 0x150) = 1 := by
  decide +kernel

/-- TimeTreeExchanges: a follower with a LOCKED parent, without one, in HOLDOVER; the deputy. -/
theorem test_TimeTreeExchanges_parents :
    let f := linked (timeAs on (wf [(0, 62), (1, 52), (1, 50), (0, 46), (9, 28), (7, 54)]))
    let p : PortTime := { PortTime.reset with echo := 1, heard := 131072, offset := 512, hops := 62, lock := 2, root := 9, gen := 7 }
    let s : State := { f with ftc := 131072, time := { f.time with ports := [(0, p)] } }
    let n := run .parentTimeout s
    s.on = true ∧ s.twoRoots = false ∧ s.bestParent = some 0 ∧ n.timeField 53 52 = 2 ∧ n.timeField 49 46 = 0 ∧
    n.timeField 45 40 = 63 ∧ n.timeField 39 28 = 9 ∧ n.time.locked = true ∧ n.ftc = 131074 ∧
    (let o := run .parentTimeout { f with ftc := 131072 }
     ({ f with ftc := 131072 } : State).bestParent = none ∧ o.timeField 49 46 = 15 ∧ o.time.orphan = some 131072) ∧
    (let h : State := { f with ftc := 1048577, time := { f.time with locked := true, orphan := some 1 } }
     (run .holdoverTimeout h).timeField 53 52 = 3 ∧ (run .holdoverTimeout { h with ftc := 1048576 }).timeField 53 52 = 1) ∧
    (let y := { timeAs on (wf [(2, 62), (2, 52), (255, 54), (1, 46)]) with ftc := 262144 }
     (run .deputyMasterTakeover y).timeField 63 62 = 1 ∧ (run .deputyMasterTakeover y).timeField 61 54 = nextGen 255) := by
  decide +kernel

/-! ### Holds, commits and repeats -/

/-- Domain 1 started, with id 5, HOLD_LEAD 64 ft and STEP_LEN of one frame; the master, and another module. -/
def sDom (role : Nat) : State :=
  let s := (sTime role 2 1 1).setDom 1 { DomSt.reset with loaded := true, started := true, start := 65536 }
  (List.range 4).foldl (fun s f => s.setReg (regGa (48 + f) 0x8040) (wf [(5, 56), (1, 54), (1, 32), (1, 0)])) s

/-- HoldsPendBeginAndEnd: requests at the master and elsewhere. -/
theorem test_HoldsPendBeginAndEnd_request :
    let s : State := { sDom 1 with ftc := 65472 }
    let n := run (.holdRequest 1 .power 3 false) s
    s.on = true ∧ s.isMaster = true ∧ (n.dom 1).hold = ⟨false, 0, [⟨0, false, 65536, 3, some (4 * 65536)⟩]⟩ ∧
    n.regField (domReg 1 16) 63 62 = 2 ∧ n.regField (domReg 1 16) 61 54 = 1 ∧ n.out.length = 1 ∧
    ((run (.holdRequest 1 .power 3 false) { s with ftc := 65473 }).dom 1).hold.reqs.map (·.b) = [131072] ∧
    ((run (.holdRequest 1 .jobHold 3 true) s).dom 1).hold.reqs = [⟨1, true, 65536, 3, none⟩] ∧
    (run (.holdRequest 1 .hotFence 0 false) (sDom 0)).out = [.holdRequest 5 .hotFence 0 false] := by
  decide +kernel

/-- HoldsPendBeginAndEnd: a notice in time, late and stale. -/
theorem test_HoldsPendBeginAndEnd_notice :
    let s : State := { sDom 0 with ftc := 70000 }
    s.slotById 5 = some 1 ∧
    ((run (.holdNotice 5 1 131072 2 .power) s).dom 1).hold.reqs = [⟨0, false, 131072, 2, some (4 * 65536)⟩] ∧
    ((run (.holdNotice 5 1 65536 0 .power) s).dom 1).hold.reqs = [⟨0, false, 131072, 0, none⟩] ∧
    (run (.holdNotice 5 1 131072 2 .power) s).regField (domReg 1 16) 61 54 = 1 ∧
    (let n := run (.holdNotice 5 0 131072 2 .power) s
     n = s.fabBump 0x120 1 ∧ (n.dom 1).hold.reqs = [] ∧ n.reg (regGa 51 0x8120) = 1) := by
  decide +kernel

/-- HoldsPendBeginAndEnd: a hold begins late, a fallback begins, a hold ends at its frame boundary. -/
theorem test_HoldsPendBeginAndEnd_begin :
    let r : HoldReq := ⟨6, false, 131072, 1, some 196608⟩
    let p (x : HoldReq) (ftc : Nat) : State := { (sDom 0).setDom 1 { (sDom 0).dom 1 with hold := ⟨false, 0, [x]⟩ } with ftc := ftc }
    let n := run (.holdBegin 1) (p r 131080)
    (n.dom 1).hold = ⟨true, 131072, [r]⟩ ∧ n.shift 1 = 8 ∧ n.regField (domReg 1 16) 62 62 = 1 ∧
    ((run (.holdBegin 1) (p r 131071)).dom 1).hold.active = false ∧
    (let f := run (.holdBegin 1) (p ⟨3, false, 131072, 0, none⟩ 131072)
     (f.dom 1).dyn = .fallback ∧ (f.dom 1).hold.reqs = [] ∧ f.shift 1 = 0) ∧
    (let e : State := { n with ftc := 196608 }
     (run (.holdEnd 1) e).dom 1 = { e.dom 1 with hold := ⟨false, 0, []⟩ } ∧ (run (.holdEnd 1) e).regField (domReg 1 16) 63 62 = 0 ∧
     (run (.holdEnd 1) e).shift 1 = 8 ∧ ((run (.holdEnd 1) { n with ftc := 196600 }).dom 1).hold.active = true) := by
  decide +kernel

/-- Layer 127 of cluster 3 in unit 3 of context 0, in a phase, with its results; unit 4 has not committed. Tile 0 has
passed unit 3's TSQ.UNIT. -/
def sUnit (phase : Nat) : State :=
  let s := (on.setReg (ldReg 3 127 0) (wf [(1, 63)])).setReg (ldReg 3 127 3) (wf [(3, 0)])
  let s := (s.setReg (ldReg 3 127 2) (wf [(2 ^ 32 - 1, 32)])).setReg (ldState 3 127) (wf [(phase, 61)])
  let s := s.setLayer 3 127 { UeLayer.reset with result := some ⟨-2, 5, 6, 0x3F800000, 0, 0⟩ }
  let q : SeqSt := { SeqSt.reset with running := true, pc := va0 0x2000, marks := [⟨3, va0 0x1010, 1, 7⟩] }
  (s.setTile 0 { TileSt.reset with seq := q }).setDom 0
    { DomSt.reset with loaded := true, started := true, step0 := 1, units := [⟨3, 0, 0, 0, 1⟩, ⟨4, 0, 0, 0, 2⟩] }

/-- UnitCommitsOrRepeats: a layer in DONE and one in SKIPPED; the STEP wraps. -/
theorem test_UnitCommitsOrRepeats_commit :
    let s := sUnit 4
    let n := run (.unitCommit 0 3) s
    s.decidedNow 0 3 .commit = true ∧ s.unitLayers (s.dom 0).ctx 3 = [(3, 127)] ∧ s.digestSlot (s.jobStep 0) = none ∧
    ratioOut 0x3F800000 (s.ld 3 127 7 63 32) (s.ld 3 127 7 31 0) = false ∧ n.ld 3 127 0 60 60 = 1 ∧ n.ld 3 127 2 63 32 = 0 ∧
    n.ld 3 127 3 27 20 = 0xFE ∧ n.reg (ldReg 3 127 14) = 5 ∧ n.reg (ldReg 3 127 15) = 6 ∧ n.ldPhase 3 127 = 0 ∧
    (n.dom 0).done = [3] ∧ (n.dom 0).stepNo = 0 ∧
    (let k := run (.unitCommit 0 3) (sUnit 5)
     k.ld 3 127 2 63 32 = 0 ∧ k.ld 3 127 0 60 60 = 0 ∧ k.reg (ldReg 3 127 14) = (sUnit 5).reg (ldReg 3 127 14) ∧
     k.ldPhase 3 127 = 0) := by
  decide +kernel

/-- UnitCommitsOrRepeats: a repeat. -/
theorem test_UnitCommitsOrRepeats_repeat :
    let s := sUnit 4
    let n := run (.unitRepeat 0 3) s
    s.decidedNow 0 3 .repeated = true ∧ (n.dom 0).dyn = .repeated [3] ∧ (n.dom 0).repeats = 1 ∧
    (n.dom 0).hold = ⟨true, 0, [⟨2, false, 0, 0, none⟩]⟩ ∧ n.ldPhase 3 127 = 1 ∧ (n.layer 3 127).result = none ∧
    (n.tile 0).seq.pc = va0 0x1010 ∧ (n.tile 0).seq.step = 1 ∧ (n.tile 0).seq.wait = .join 15 ∧ memSame s n = true := by
  decide +kernel

/-! ### Links and other modules' requests -/

/-- An empty flit header of a kind with a SEQ. -/
def fh (kind seq : Nat) : FlitHdr := ⟨BitVec.ofNat 4 kind, 0, BitVec.ofNat 12 seq, true, true, 0, 0⟩

/-- ACTIVE link 0, generation 5: SEQ 4095 is expected; flits 7 to 9 are not acknowledged. -/
def sLk : State :=
  (linked on).setLink 0 { LinkSt.reset with
    expect := 4095, next := 10, retry := [⟨fh 1 7, 7, false⟩, ⟨fh 1 8, 8, false⟩, ⟨fh 1 9, 9, false⟩] }

/-- FlitsAndAcknowledgements: flits received. -/
theorem test_FlitsAndAcknowledgements_receive :
    let n := run (.flitReceive 0 (fh 3 4095) 77 true true) sLk
    sLk.on = true ∧ sLk.linkState 0 = 4 ∧ run (.flitReceive 0 (fh 0 1) 0 true true) sLk = sLk ∧ (n.link 0).expect = 0 ∧
    n.fab.rx = [(0, ⟨fh 3 4095, 77, false⟩)] ∧ (n.link 0).since = 1 ∧
    (∀ m ∈ [run (.flitReceive 0 (fh 3 4095) 77 false true) sLk, run (.flitReceive 0 (fh 3 4095) 77 true false) sLk,
        run (.flitReceive 0 (fh 3 4094) 77 true true) sLk],
      (m.link 0).expect = 4095 ∧ m.out = [.control 0 1 5 (BitVec.ofNat 112 (4095 * 2 ^ 100 + 2 ^ 99))]) ∧
    (run (.ackSend 0) sLk).out = [.control 0 1 5 (BitVec.ofNat 112 (4095 * 2 ^ 100))] := by
  decide +kernel

/-- FlitsAndAcknowledgements: ACK of none and of all, NAK, the ninth of one SEQ, credits, another generation. -/
theorem test_FlitsAndAcknowledgements_ack :
    let a (seq nak : Nat) : BitVec 112 := BitVec.ofNat 112 (seq * 2 ^ 100 + nak * 2 ^ 99)
    let n := run (.ack 0 5 (a 8 1)) sLk
    ((run (.ack 0 5 (a 7 0)) sLk).link 0).retry.length = 3 ∧ ((run (.ack 0 5 (a 10 0)) sLk).link 0).retry = [] ∧
    (n.link 0).retry.map (·.pay) = [8, 9] ∧ n.out = [.flit 0 (fh 1 8) 8, .flit 0 (fh 1 9) 9] ∧
    (let m := sLk.setLink 0 { sLk.link 0 with againSq := 7, againN := 8 }
     (run (.ack 0 5 (a 7 1)) m).linkState 0 = 5 ∧ (run (.ack 0 5 (a 7 1)) m).out = []) ∧
    ((run (.credit 0 5 (BitVec.ofNat 112 (3 * 2 ^ 64 + 2 * 2 ^ 104 + 5 * 2 ^ 56))) sLk).link 0).credits =
      [35, 32, 32, 32, 32, 34, 261] ∧
    (run (.ack 0 6 (a 10 0)) sLk).reg (linkReg 0 0x150) = 1 ∧ ((run (.ack 0 6 (a 10 0)) sLk).link 0).retry.length = 3 := by
  decide +kernel

/-- A link 0 in a state, that may train, with a cable. -/
def inState (n : Nat) : State :=
  let s := (on.setReg (linkReg 0 8) (wf [(n, 60), (5, 37)])).setReg (linkReg 0 0) 1
  ({ s with time := { s.time with refBoot := true } } : State).setLink 0 { LinkSt.reset with present := true }

/-- PortsTrainAndRetrain: from DETECT to ACTIVE, the higher rate where both have it; the third failure. -/
theorem test_PortsTrainAndRetrain_train :
    let ones : BitVec 64 := BitVec.allOnes 64
    let two := (inState 2).setLink 0 { (inState 2).link 0 with fails := 2 }
    let al := run (.alignComplete 0 (ones - 1)) (inState 3)
    let m : BitVec 112 := BitVec.ofNat 112 ((2 ^ 64 - 1) * 2 ^ 33)
    (run (.portDetect 0) (inState 1)).linkState 0 = 2 ∧
    (run (.trainComplete 0 true 3 ones) (inState 2)).linkState 0 = 3 ∧
    (run (.trainComplete 0 true 3 ones) (inState 2)).regField (linkReg 0 8) 59 59 = 1 ∧
    (run (.trainComplete 0 true 1 ones) (inState 2)).regField (linkReg 0 8) 59 59 = 0 ∧
    ((run (.trainComplete 0 false 3 ones) (inState 2)).link 0).fails = 1 ∧
    (run (.trainComplete 0 false 3 ones) two).linkState 0 = 6 ∧
    al.linkState 0 = 3 ∧ (al.link 0).good = some (ones - 1) ∧ al.out.length = 1 ∧
    ((run (.lane 0 5 m) (inState 3)).link 0).partner = some ones ∧
    (run (.lane 0 5 m) al).linkState 0 = 4 ∧ (run (.lane 0 5 m) al).regField (linkReg 0 8) 51 45 = 56 ∧
    (run (.lane 0 5 m) al).regField (linkReg 0 8) 58 52 = 64 ∧
    (run (.lane 0 5 (BitVec.ofNat 112 (0xFFFF * 2 ^ 33))) al).linkState 0 = 6 := by
  decide +kernel

/-- PortsTrainAndRetrain: a bad lane, the end of RETRAIN, of a companion link too; a cable pulled; a request. -/
theorem test_PortsTrainAndRetrain_retrain :
    let ones : BitVec 64 := BitVec.allOnes 64
    let act := (inState 4).setLink 0 { (inState 4).link 0 with good := some ones, partner := some ones }
    let bad := run (.laneBad 0 63 .deskew) act
    let c := (on.setReg (linkReg 8 8) (wf [(5, 60)])).setLink 8 { LinkSt.reset with present := true, good := some 0xFF00, partner := some 0xFFFF }
    bad.linkState 0 = 5 ∧ (bad.link 0).bad = 1#64 <<< 63 ∧ (bad.link 0).good = some (ones >>> 1) ∧
    (run (.retrainComplete 0 false) bad).linkState 0 = 2 ∧ (run (.retrainComplete 0 true) bad).linkState 0 = 4 ∧
    (run (.retrainComplete 0 true) bad).linkGen 0 = 6 ∧
    (run (.retrainComplete 8 true) c).linkState 8 = 4 ∧ (run (.retrainComplete 8 true) c).regField (linkReg 8 8) 58 57 = 2 ∧
    (run (.cablePresentChange 0 false) act).linkState 0 = 1 ∧ (run (.cablePresentChange 0 true) act).linkState 0 = 4 ∧
    (run (.portTrainRequest 0) bad).linkState 0 = 2 ∧ ((run (.portTrainRequest 0) bad).link 0).bad = 0 := by
  decide +kernel

/-- A packet for this module (index 0): its operation, address, length, operand, and key 9. -/
def pk (op ga len : Nat) (operand : BitVec 64) : PktHdr :=
  ⟨0, 3, BitVec.ofNat 8 op, 0, 9, BitVec.ofNat 40 ga, 0, BitVec.ofNat 16 len, 1, 1, 0, 0, operand⟩

/-- Window 15 exports the first 128 KiB of tile memory to key 9 for writing, and window 0 the sync word `syGa`. -/
def sExp : State :=
  let s := (sSy.setReg (regGa 48 0x30F0) (wf [(1, 63), (1, 62), (9, 0)])).setReg (regGa 48 0x30F8) (wf [(1, 24), (0, 0)])
  let s := (s.setReg (regGa 48 0x3000) (wf [(1, 63), (1, 62), (9, 0)])).setReg (regGa 48 0x3008)
    (wf [(syGa / 65536, 24), (syGa / 65536, 0)])
  s.putBytes 0x1FFFF [7]

/-- RemoteRequestsPerformed: a read of the last byte, a write up to it, one past it, a signal, stray answers. -/
theorem test_RemoteRequestsPerformed :
    let rd := run (.remoteRequest 0 (pk 1 0x1FFFF 1 0) []) sExp
    let wr := run (.remoteRequest 0 (pk 2 0x1FFFE 2 0) [1, 2]) sExp
    let sig := run (.remoteRequest 0 (pk 4 syGa 0 (BitVec.ofNat 64 (7 * 2 ^ 56 + 1))) []) sExp
    let den := run (.remoteRequest 0 (pk 2 0x1FFFE 3 0) [1, 2, 3]) sExp
    let q : OutReq := ⟨1, 1, 0, .posted⟩
    let x : State := { sExp with fab := { sExp.fab with reqs := [q] } }
    sExp.selfIndex = 0 ∧ sExp.exported 9 0x1FFFF 1 false = true ∧ sExp.rangeOk 48 0x1FFFE 2 = true ∧
    rd = sExp.respond (pk 1 0x1FFFF 1 0) 0 false [7] ∧
    sExp.exported 9 0x1FFFE 2 true = true ∧ wr.bytesAt 0x1FFFE 2 = [1, 2] ∧ sExp.exported 9 syGa 8 true = true ∧
    sig.syncWord syGa = syImg 1 7 6 ∧ sExp.exported 9 0x1FFFE 3 true = false ∧ memSame sExp den = true ∧
    sExp.xCause 48 syGa .store .syncInitOrSig = none ∧
    run (.remoteResponse 0 (pk 5 0 0 0) []) sExp = sExp ∧ (run (.remoteResponse 0 (pk 5 0 0 0) []) x).fab.reqs = [] := by
  decide +kernel

/-- RemoteRequestsPerformed: a reduce-write of a line of tile memory's die that its home cache does not hold. -/
theorem test_RemoteRequestsPerformed_reduce :
    let s := (sHc.setReg (regGa 48 0x30F0) (wf [(1, 63), (1, 62), (9, 0)])).setReg (regGa 48 0x30F8)
      (wf [(2 ^ 14, 24), (2 ^ 14, 0)])
    let h := pk 3 (2 ^ 30) 128 0xFFFFFFFFFFFFFFFF
    redFormed (2 ^ 30) 0 = true ∧ s.exported 9 (2 ^ 30) 128 true = true ∧ s.rangeOk 48 (2 ^ 30) 128 = true ∧
    (redRefusedFmt 0 && s.ctxDet 0) = false ∧
    (s.takePacket 0 h).readyLine (2 ^ 30) true = (false, s.takePacket 0 h) ∧
    (run (.remoteRequest 0 h [4]) s).bytesAt (2 ^ 30) 1 = [7] := by
  decide +kernel

/-! ### Reduction and multicast units -/

/-- A flit of kind 3 of bucket id 0x55: SEQ 0, OFFSET. -/
def bh (first : Bool) (off : Nat) : FlitHdr := ⟨3, 5, 0, first, true, 0x55, BitVec.ofNat 27 off⟩

/-- Bucket 255 of fabric die 3, root of ports 6 and 7 with ESF-32 elements, one unit of 64 KiB, generation 9, anchor 0xF0,
head 4, step 2^32 − 1, result at 0x3000 of tile 0; group 0 has port 6's elements, 2^31 − 1 first. -/
def sBkt (seen : Nat) : State :=
  let s := (on.setReg (bktReg 3 255 0) (wf [(1, 63), (1, 59), (9, 48), (0x55, 32), (0xF0, 24), (4, 18), (0xC0, 8)])).setReg
    (bktReg 3 255 2) (wf [(2 ^ 32 - 1, 32)])
  let s := ((s.setReg (bktReg 3 255 3) (wf [(1, 48)])).setReg (bktReg 3 255 6) (wf [(tmGa 0 0x3000, 0)])).setReg
    (bktState 3 255) (wf [(if seen = 0 then 0 else 1, 61), (seen, 52)])
  s.setBkt 3 255 { BktSt.reset with groups := [(0, { BktGroup.reset with
    got := 0x40, sums := (2 ^ 31 - 1) :: List.replicate 59 1, spec := List.replicate 60 false })] }

/-- An opening flit's payload, and an element flit's. -/
def openPay : BitVec 1952 :=
  payOf ([0, 0, 9, 0] ++ leBytes 4 (2 ^ 32 - 1) ++ List.replicate 8 0 ++ [0xF0, 4, 0] ++ List.replicate 225 0)
def elemPay : BitVec 1952 :=
  payOf ((List.replicate 60 (leBytes 4 2)).flatten ++ [9, 0, 0xFF, 0xFF])

/-- BucketsReduce: the opening of an input, the last contribution to a group, one of no bucket. -/
theorem test_BucketsReduce_flits :
    let s := sBkt 0xC0
    let o := run (.bucketFlit 3 7 (bh true 0) openPay) (sBkt 0x40)
    let n := run (.bucketFlit 3 7 (bh false 1) elemPay) s
    s.fdOn 3 = true ∧ s.bktOf 3 0x55 = some 255 ∧ (sBkt 0).bktPhase 3 255 = 0 ∧
    (run (.bucketFlit 3 7 (bh true 0) openPay) (sBkt 0)).regField (bktState 3 255) 60 52 = 0x80 ∧
    (run (.bucketFlit 3 7 (bh true 0) openPay) (sBkt 0)).bktPhase 3 255 = 1 ∧
    o.regField (bktState 3 255) 60 52 = 0xC0 ∧
    (s.readyLines (s.bktNeeds 3 255 (bh false 1))).1 = false ∧ s.bktInputs 3 255 = 0xC0 ∧
    n.bytesAt (tmGa 0 0x3000) 8 = [0xFF, 0xFF, 0xFF, 0x7F, 3, 0, 0, 0] ∧ n.bytesAt (tmGa 0 0x30EC) 8 = [3, 0, 0, 0, 0, 0, 0, 0] ∧
    (n.bkt 3 255).outs = 1 ∧
    (run (.bucketFlit 3 7 { bh false 1 with tag := 0x54 } elemPay) s).reg (redReg 3 0x110) = 1 := by
  decide +kernel

/-- BucketsReduce: a third input, when more are awaited, is added. -/
theorem test_BucketsReduce_partial :
    let s := (sBkt 0xE0).setReg (bktReg 3 255 0) (wf [(1, 63), (1, 59), (9, 48), (0x55, 32), (0xF0, 24), (4, 18), (0xE0, 8)])
    let n := run (.bucketFlit 3 7 (bh false 1) elemPay) s
    let g := mapGet BktGroup.reset (n.bkt 3 255).groups 0
    g.got = 0xC0 ∧ g.sums = (2 ^ 31 + 1) :: List.replicate 59 3 ∧ (n.bkt 3 255).outs = 0 ∧ memSame s n = true := by
  decide +kernel

/-- BucketsReduce: the local input once its word is there, and not before; a complete bucket; a discarded one. -/
theorem test_BucketsReduce_rest :
    let s := (sBkt 0).setReg (bktReg 3 255 0) (wf [(1, 63), (1, 59), (1, 58), (9, 48), (0x55, 32)])
    let s := ((s.setReg (bktReg 3 255 3) (wf [(0, 48), (5, 40), (tmGa 0 0x10000, 0)])).setReg (bktReg 3 255 4)
      (wf [(7, 56), (syGa, 0)])).setSync syGa (syImg 1 7 5)
    let l := run (.bucketLocalInput 3 255) s
    let w := s.setSync syGa (syImg 1 7 4)
    let c := (sBkt 0xC0).setBkt 3 255 { (sBkt 0xC0).bkt 3 255 with outs := 274 }
    let k := run (.bucketComplete 3 255) c
    l.regField (bktState 3 255) 60 60 = 1 ∧ l.syncWord syGa = syImg 1 7 0 ∧
    run (.bucketLocalInput 3 255) w = w.wait (.bucketLocalInput 3 255) ∧
    c.bktGroups 3 255 = 274 ∧ k.reg (bktState 3 255) = 0 ∧ k.bkt 3 255 = BktSt.reset ∧ k.bktF 3 255 2 63 32 = 0 ∧
    k.fab.notices.map (fun e => (e.1, e.2.bid)) = [(3, 0x55)] ∧
    (run (.bucketDiscard 3 255) c).bktF 3 255 0 63 63 = 0 ∧ (run (.bucketDiscard 3 255) c).bkt 3 255 = BktSt.reset := by
  decide +kernel

/-- Multicast 63 of fabric die 0, generation 9, id 0x66: of two units from 0x10000 of tile 0's memory, also to 0x30000. -/
def sMc (relay : Nat) : State :=
  let s := on.setReg (mcReg 0 63 0) (wf [(1, 63), (relay, 62), (1 - relay, 61), (9, 48), (0x66, 32), (7, 28)])
  let s := (s.setReg (mcReg 0 63 1) (wf [(2, 48), (tmGa 0 0x10000, 0)])).setReg (mcReg 0 63 2) (wf [(tmGa 0 0x30000, 0)])
  ((s.setReg (mcReg 0 63 3) (wf [(7, 56), (syGa, 0)])).setSync syGa (syImg 1 7 0xFFFFFFFE)).putBytes (tmGa 0 0x2FFFF) [5]

/-- MulticastsCopy: the second unit of a source, a stale GO, a relay's last flit, one of another generation, the signal. -/
theorem test_MulticastsCopy :
    let s := sMc 0
    let v : Word := wf [(9, 56), (0x66, 40), (1, 20), (1, 0)]
    let h : FlitHdr := ⟨5, 5, 0, false, true, 0x66, 547⟩
    let r := run (.multicastFlit 0 7 h (payOf (List.replicate 240 3 ++ [9, 0, 0, 0]))) (sMc 1)
    s.mcNamed 0 v = some (63, 1, 1) ∧ s.mcNamed 0 (wf [(8, 56), (0x66, 40)]) = none ∧
    (run (.redMcGo 0 (wf [(8, 56), (0x66, 40)])) s).reg (redReg 0 0x110) = 1 ∧
    (sMc 1).mcOf 0 0x66 true = some 63 ∧ r.bytesAt (tmGa 0 0x4FFEF) 18 = 0 :: List.replicate 16 3 ++ [0] ∧
    mapGet 0 r.fab.mcDone 63 = 1 ∧
    (run (.multicastFlit 0 7 h (payOf (List.replicate 240 3 ++ [8, 0, 0, 0]))) (sMc 1)).reg (redReg 0 0x110) = 1 ∧
    (let c := run (.multicastComplete 0 63) r
     mapGet 0 c.fab.mcDone 63 = 0 ∧ c.syncWord syGa = syImg 1 7 0xFFFFFFFF) := by
  decide +kernel

/-- MulticastsCopy: what the copy of a source's second unit to its own destination asks for is met. -/
theorem test_MulticastsCopy_go :
    let s := sMc 0
    s.fdOn 0 = true ∧ (s.readyLines (s.mcLines 0 (63, 1, 1))).1 = false ∧ s.poison = [] ∧ s.mcF 0 63 0 61 61 = 1 ∧
    (tmGa 0 0x20000) / 2 ^ 30 = (tmGa 0 0x20000 + 65535) / 2 ^ 30 ∧
    s.mcF 0 63 1 39 0 + 65536 + 65536 ≤ s.mcF 0 63 2 39 0 + 65536 := by
  decide +kernel

/-! ### Update engines and digests -/

/-- Layer 127 of cluster 3: one core more than 1, generation 9, bucket 0x55, layer id 7, step 5, anchor 0xF0, unit 3,
one bucket; in a phase. -/
def sUe (phase : Nat) : State :=
  let s := (on.setReg (ldReg 3 127 0) (wf [(1, 63), (1, 56), (9, 48), (0x55, 32), (7, 0)])).setReg (ldReg 3 127 2) (wf [(5, 32)])
  ((s.setReg (ldReg 3 127 3) (wf [(0xF0, 56), (3, 0)])).setReg (ldReg 3 127 12) (wf [(1, 48)])).setReg (ldState 3 127)
    (wf [(phase, 61)])

/-- A notice for that layer. -/
def nt : Notice := ⟨false, 0x55, 9, 5, 0, 7, 7, 0xF0, false, 0, false, false, false⟩

/-- NoticesStartLayers: a notice held, of no layer, of another generation, step and anchor. -/
theorem test_NoticesStartLayers_notice :
    let s := sUe 0
    let n := run (.gradientNotice 3 nt) s
    s.fdOn 3 = true ∧ s.ueMatches 3 nt = [127] ∧ s.ueMatches 3 { nt with layerFirst := 8 } = [] ∧ (n.layer 3 127).held = [nt] ∧
    n.ldPhase 3 127 = 1 ∧ (run (.gradientNotice 3 { nt with layerFirst := 8 }) s).reg (ueReg 3 0x110) = 1 ∧
    (run (.gradientNotice 3 { nt with gen := 8 }) s).reg (ueReg 3 0x108) = 1 ∧
    (run (.gradientNotice 3 { nt with step := 6 }) s).ldPhase 3 127 = 6 ∧
    (run (.gradientNotice 3 { nt with skew := true }) s).ldPhase 3 127 = 6 ∧
    (run (.gradientNotice 3 { nt with anchor := 0xF1 }) s).ldPhase 3 127 = 7 := by
  decide +kernel

/-- NoticesStartLayers: a unit's begin, then the layer starts on cores 0 and 1. -/
theorem test_NoticesStartLayers_start :
    let s := run (.unitBeginNotice 3) (run (.gradientNotice 3 nt) (sUe 0))
    let n := run (.layerStart 3 127) s
    (s.cluster 0).begun = [3] ∧ s.ueReady 3 127 = true ∧ s.freeCores 3 = List.range 16 ∧ n.ldPhase 3 127 = 2 ∧
    (n.layer 3 127).cores = [0, 1] ∧ (n.core 3 1).running = true ∧ (n.core 3 2).running = false := by
  decide +kernel

/-- Core 0 of two in the statistics phase: v1 and v2, s2 a shared-memory address. -/
def sCore : State :=
  let x : VxSt := { VxSt.reset with running := true, vl := 2, vlew := 3, v := [(1, vec 64 [5, 2 ^ 63 - 1]), (2, vec 16 [3, 4])],
                                    sreg := [(2, BitVec.ofNat 64 (2 ^ 40 + 2 ^ 20 - 16))] }
  let s := (sUe 2).setLayer 3 127 { UeLayer.reset with cores := [0, 1] }
  let c := s.cluster 3
  s.setCluster 3 { c with cores := [(0, x), (1, { VxSt.reset with running := true })], shared := memPut [] (2 ^ 20 - 8) (leBytes 8 1) }

/-- UpdateCoreWords: UE.LDD, UE.XADD with saturation at the end of shared memory, UE.DIG. -/
theorem test_UpdateCoreWords_words :
    let u : VUnit := .core 3 0
    let x := run (.ueXadd 3 0 (vw 0 0 0 1 2 0 0 0 0)) sCore
    let d := run (.ueDig 3 0 (vw 0 0 3 1 2 0 0 0 0)) sCore
    sCore.coreFree 3 0 = true ∧ (sCore.vu u).running = true ∧ sCore.layerOf 3 0 = some 127 ∧
    ((run (.ueLdd 3 0 (vw 0 0 4 0 0 0 0 0 15)) sCore).core 3 0).s 4 = sCore.reg (ldReg 3 127 15) ∧
    ((run (.ueLdd 3 0 (vw 0 0 4 0 0 0 0 0 2)) sCore).core 3 0).s 4 = wf [(5, 32)] ∧
    vlFault (sCore.vuEnv u) (sCore.core 3 0) 64 = false ∧ ueSpace (2 ^ 40 + 2 ^ 20 - 8) = some (1, 2 ^ 20 - 8) ∧
    x.ueBytes 3 0 1 (2 ^ 20 - 16) 16 = leBytes 8 5 ++ leBytes 8 (2 ^ 63 - 1) ∧ (x.core 3 0).pc = 8 ∧
    vlFault (sCore.vuEnv u) (sCore.core 3 0) 16 = false ∧ (d.core 3 0).s 3 ≠ 0 ∧ (d.core 3 0).s 5 = 0 := by
  decide +kernel

/-- UpdateCoreWords: UE.GBAR of the first and of the last core; UE.DONE of one and of the last with a special value. -/
theorem test_UpdateCoreWords_group :
    let w : BitVec 56 := vw 0 0 0 0 0 0 0 0 7
    let a := run (.ueGbar 3 0 w) sCore
    let b := run (.ueGbar 3 1 w) a
    let d := run (.ueDone 3 0 (vw 0 0 0 0 0 0 0 0 1)) sCore
    (a.layer 3 127).gbar = [(0, 7)] ∧ (a.core 3 0).pc = 0 ∧ a.coreFree 3 1 = true ∧ (b.layer 3 127).gbar = [] ∧ b.ldPhase 3 127 = 3 ∧
    (b.core 3 0).pc = 8 ∧ (b.core 3 1).pc = 8 ∧ (d.layer 3 127).done = [0] ∧ (d.layer 3 127).special = true ∧
    (d.readyLines (d.ueLines 3 127)).1 = false ∧ (run (.ueDone 3 1 (vw 0 0 0 0 0 0 0 0 1)) d).ldPhase 3 127 = 5 := by
  decide +kernel

/-- DigestsReportedAndCompared: slot 7 reported by the lead; equal and unequal digests of two replicas. -/
theorem test_DigestsReportedAndCompared_steps :
    let s := (on.setReg (ueReg 0 0x10) (wf [(1, 53), (9, 33), (2, 21)])).setReg (ueReg 0 0x18) (wf [(1, 48), (2 ^ 20, 0)])
    let s := (s.setSync (s.digSync 0 + 56) (syImg 1 9 1)).putBytes (2 ^ 20 + 896) [4]
    let n := run (.digestReport 7) s
    let m : State := { sDom 1 with fw := { FwSt.reset with nrepl := 2 } }
    let a := run (.digestCompare 5 [(0, 9), (1, 9)]) m
    let b := run (.digestCompare 5 [(0, 9), (1, 8)]) m
    s.selfIndex = 0 ∧ (s.readyLines (readyList (2 ^ 20 + 896) 16 true)).1 = false ∧ n.bytesAt (2 ^ 20 + 896) 16 = List.replicate 16 0 ∧
    n.syncWord (s.digSync 0 + 56) = syImg 1 9 0 ∧ n.out = [.digest 2 7 4] ∧
    a.fw.agreed = some 5 ∧ b.fw.agreed = none ∧ (b.dom 1).hold.reqs.map (·.bit) = [2] := by
  decide +kernel

/-- A shadow tile 1 of primary 0, each with a ring of 256 entries; one entry of each. -/
def sShadow (own other : Nat) : State :=
  let e (t v : Nat) : List Byte := leBytes 4 5 ++ leBytes 4 7 ++ leBytes 16 v ++ leBytes 2 t ++ leBytes 2 0 ++ leBytes 4 1
  let s := (on.setReg (tileReg 0 0x600) (wf [(1, 63), (0x20000, 0)])).setReg (tileReg 1 0x600)
    (wf [(1, 63), (1, 62), (0, 48), (tmGa 1 0x20000, 0)])
  let s := (s.putBytes (tmGa 0 0x20000) (e 0 other)).putBytes (tmGa 1 0x20000) (e 1 own)
  let s := (s.setSeq 0 { SeqSt.reset with odigPos := 1 }).setSeq 1 { SeqSt.reset with odigPos := 1 }
  { s with fw := { FwSt.reset with images := some ⟨0, 0, 1, false, 0, 5, 64, 8, 2, 0, [], [], [], 0⟩ } }

/-- DigestsReportedAndCompared: a shadow tile's entry that agrees, one that differs, and none. -/
theorem test_DigestsReportedAndCompared_shadow :
    let s := sShadow 3 3
    s.fwOn = true ∧ (s.digestFor 0 5 7).isSome = true ∧ ((run (.shadowDigestCompare 1) s).tile 1).seq.odigSeen = 1 ∧
    (run (.shadowDigestCompare 1) s).evt = s.evt ∧
    ((run (.shadowDigestCompare 1) (sShadow 3 4)).tile 1).seq.odigSeen = 1 ∧
    (run (.shadowDigestCompare 1) (sShadow 3 4)).evt ≠ (sShadow 3 4).evt ∧
    run (.shadowDigestCompare 0) s = s := by
  decide +kernel

/-! ### The companion link -/

/-- A message for an address, with a length and a tag. -/
def ch (addr len tag : Nat) : CclHdr := ⟨false, 0, BitVec.ofNat 16 tag, 1, BitVec.ofNat 13 len, 0, 0, 0, BitVec.ofNat 52 addr⟩

/-- Both companion ports ACTIVE. -/
def cclUp (s : State) : State := (s.setReg (regGa 48 0x30008) (wf [(4, 60)])).setReg (regGa 49 0x30008) (wf [(4, 60)])

/-- A line that its home cache holds clean, with a 3; and a directory as given. -/
def coGa : Nat := 2 ^ 30
def sCo (dir : List DirEnt) (sn : List Snoop) : State :=
  let s := cclUp sHc
  s.setDie 0 { s.die 0 with dir := dir, snoops := sn }

/-- CompanionRequests: uncached reads and writes of tile memory; what may not be reached is DENIED. -/
theorem test_CompanionRequests_uncached :
    let s := (cclUp on).putBytes 0x3FFFF8 [1, 2, 3, 4, 5, 6, 7, 8]
    let h := ch 0x3FFFF8 8 1
    s.cclActive 0 = true ∧ s.rangeOk 48 0x3FFFF8 8 = true ∧
    run (.rdU 0 h) s = s.cclRespond 0 h 0 false (some [1, 2, 3, 4, 5, 6, 7, 8]) ∧
    (run (.wrU 0 h [8, 7, 6, 5, 4, 3, 2, 1]) s).bytesAt 0x3FFFF8 8 = [8, 7, 6, 5, 4, 3, 2, 1] ∧
    s.gaCause 48 (4 * 2 ^ 30) = none ∧
    run (.rdU 0 (ch (4 * 2 ^ 30) 8 1)) s = s.cclRespond 0 (ch (4 * 2 ^ 30) 8 1) 5 false (some []) ∧
    run (.wrU 0 (ch (3 * 2 ^ 30) 8 1) [0, 0, 0, 0, 0, 0, 0, 0]) s = s.cclRespond 0 (ch (3 * 2 ^ 30) 8 1) 5 false none := by
  decide +kernel

/-- CompanionRequests: coherent reads, write-backs of an owner and of none, a drop, a reduce-write. -/
theorem test_CompanionRequests_coherent :
    let l := gaLine coGa
    let h := ch (coGa + 127) 128 1
    let d : List Byte := List.replicate 128 6
    let s := sCo [⟨l, true, 0⟩, ⟨l + 5, false, 1⟩] []
    (sCo [] []).rangeOk 48 (coGa + 127) 128 = true ∧ ((sCo [] []).cclReady coGa 128).1 = false ∧
    ((run (.rdM 0 h) (sCo [] [])).die 0).dir = [⟨l, true, 0⟩] ∧ ((run (.rdS 0 h) s).die 0).dir = [⟨l + 5, false, 1⟩, ⟨l, false, 0⟩] ∧
    (run (.rdS 0 h) (sCo [] [])).out = ((sCo [] []).cclRespond 0 h 0 false (some (3 :: List.replicate 127 0))).out ∧
    (run (.wb 0 h d) s).bytesAt coGa 128 = d ∧ ((run (.wb 0 h d) s).die 0).dir = [⟨l + 5, false, 1⟩] ∧
    run (.wb 0 h d) (sCo [] []) = (sCo [] []).cclRespond 0 h 5 false none ∧
    ((run (.drop 0 h) s).die 0).dir = [⟨l + 5, false, 1⟩] ∧
    (run (.red 0 (ch coGa 144 1) (leBytes 16 0xFFFFFFFF ++ leBytes 128 4)) (sCo [] [])).bytesAt coGa 1 = [7] := by
  decide +kernel

/-- SnoopsAndAnswers: answers with and without data, a crossed one, a stray one, no answer. -/
theorem test_SnoopsAndAnswers :
    let l := gaLine coGa
    let h := ch coGa 128 9
    let d : List Byte := List.replicate 128 6
    let s (crossed inv owned : Bool) : State := sCo [⟨l, owned, 0⟩] [⟨l, 0, inv, crossed, 9⟩]
    ((run (.snpAck 0 h d) (s false true true)).die 0).snoops = [] ∧ ((run (.snpAck 0 h d) (s false true true)).die 0).dir = [] ∧
    (run (.snpAck 0 h d) (s false true true)).bytesAt coGa 128 = d ∧
    memSame (s true true true) (run (.snpAck 0 h d) (s true true true)) = true ∧
    memSame (s false false true) (run (.snpAck 0 h []) (s false false true)) = true ∧
    (run (.snpAck 0 (ch coGa 128 8) d) (s false true true)).reg (regGa 49 0x30328) = 1 ∧
    (run (.rspD 0 h d) (s false true true)).reg (regGa 48 0x30328) = 1 ∧ (run (.rspA 0 h) (s false true true)).reg (regGa 48 0x30328) = 1 ∧
    setHas (run (.snoopTimeout 0 (BitVec.ofNat 40 coGa)) (s false true true)).poison (granule coGa).1 = true ∧
    (run (.snoopTimeout 0 (BitVec.ofNat 40 coGa)) (s false true false)).poison = [] ∧
    ((run (.snoopTimeout 0 (BitVec.ofNat 40 coGa)) (s true true true)).die 0).snoops = [] := by
  decide +kernel

/-- SnoopsAndAnswers: the answer to a heal brings its line; one that nobody awaits ends its request. -/
theorem test_SnoopsAndAnswers_requests :
    let q (w : ReqWho) : State :=
      let s := cclUp on
      { s.setDie 0 { s.die 0 with heals := [gaLine coGa] } with fab := { s.fab with creqs := [⟨9, 1, 128, w⟩] } }
    let n := run (.rspD 0 (ch 0 128 9) (List.replicate 128 6)) (q (.heal 0 (gaLine coGa)))
    n.bytesAt coGa 128 = List.replicate 128 6 ∧ (n.die 0).heals = [] ∧ (run (.rspA 0 (ch 0 0 9)) (q .posted)).fab.creqs = [] := by
  decide +kernel

/-- MBX0's rings of 2^12 slots on. -/
def setUp : List Byte := leBytes 8 0x1000 ++ leBytes 8 (2 ^ 52 - 2 ^ 17) ++ [12, 1] ++ leBytes 2 2047 ++ [31, 127] ++ leBytes 10 0
def sRing : State := run (.ringSetup 0 (ch 0 32 1) setUp) (cclUp on)

/-- A doorbell's 16 bytes: mailbox, SQ_TAIL, CQ_HEAD 0 (R446). -/
def bell (m tail : Nat) : List Byte := leBytes 2 m ++ leBytes 2 tail ++ leBytes 12 0

/-- DoorbellsRingsAndWindows: a signal up to the highest count, a set-up, a second one, doorbells. -/
theorem test_DoorbellsRingsAndWindows_rings :
    let s := (cclUp on).setSync syGa (syImg 1 7 0xFFFFFFFE)
    let n := run (.doorbell 0 (ch 0 16 1) (bell 0 0xFFF)) sRing
    (run (.signal 0 (ch syGa 8 1) [1, 0, 0, 0, 0, 0, 0, 7]) s).syncWord syGa = syImg 1 7 0xFFFFFFFF ∧
    s.xCause 48 syGa .store .syncInitOrSig = none ∧ (cclUp on).ringsOn 0 = false ∧
    sRing.ringsOn 0 = true ∧ sRing.sqBase 0 = 0x1000 ∧ sRing.cqBase 0 = 2 ^ 52 - 2 ^ 17 ∧ sRing.ringLen 0 = 4096 ∧
    sRing.mbPort 0 = 1 ∧ sRing.imodN 0 = 31 ∧ sRing.imodT 0 = 127 ∧ sRing.out = [] ∧
    run (.ringSetup 0 (ch 0 32 1) setUp) sRing = sRing.badDoorbell 0 0 ∧
    (n.mbox 0).sqTail = 0xFFF ∧ (n.mbox 0).cqHead = 0 ∧ (n.mbox 0).sqHead = 0 ∧
    run (.doorbell 0 (ch 0 16 1) (bell 8 0)) sRing = sRing.badDoorbell 0 0 := by
  decide +kernel

/-- DoorbellsRingsAndWindows: IMOD_T has passed and has not; a window's write, and its near-cache lines. -/
theorem test_DoorbellsRingsAndWindows_rest :
    let s : State := { sRing.setMbox 0 { MboxSt.reset with unann := 1, oldest := 10 } with ftc := 450 * 127 + 10 }
    let h : NcLine := ⟨.window 15 0, 0, false, 0⟩
    let c := on.setTile 5 { TileSt.reset with nc := [(3, [h])] }
    let n := run (.importWindowWrite 15 (wf [(7, 61), (7, 58), (1, 12)]) (wf [(2 ^ 40 - 1, 0)])) c
    (run (.completionInterruptTimeout 0) s).out = [.cclInterrupt 1 1 0 2047] ∧
    ((run (.completionInterruptTimeout 0) s).mbox 0).unann = 0 ∧ (run (.completionInterruptTimeout 0) { s with ftc := 450 * 127 + 9 }).out = [] ∧
    n.regField (regGa 49 0x301F0) 63 61 = 7 ∧ n.regField (regGa 49 0x301F0) 60 58 = 0 ∧ n.regField (regGa 48 0x301F8) 39 0 = 2 ^ 40 - 1 ∧
    h.key.ofWindow 15 = true ∧ (n.tile 5).nc = [] := by
  decide +kernel

/-! ### Mailboxes -/

/-- Images with a cap of 700 W, 64 contexts and 8 ports. -/
def imgs : Images := ⟨0, 0, 1, false, 0, 700, 64, 8, 2, 1024, [], [], [], 0⟩

/-- MBX0's rings on with a session of major 2 and generation 1, whose next SEQ is 65535; firmware runs, the module is
ACTIVE. -/
def sMb : State :=
  { sRing with fw := { FwSt.reset with images := some imgs, sessions := [(0, ⟨true, 2, 1, 65535⟩)] } }

/-- A command of MBX0 in that session with a payload; its response may have 8 KiB at 0x9000. -/
def cmd (p : List Byte) : MbxCmd :=
  ⟨0, ⟨2, 1, 65535, 1, 0, BitVec.ofNat 16 p.length, 0, 0, 0, 0, 0, 0, 0, 0, 0⟩, p, [], 0x9000, 8192, 0, 0, 0⟩

/-- A payload of 64 bytes that begins as given. -/
def pay (l : List Byte) : List Byte := l ++ List.replicate (64 - l.length) 0

/-- `mbxGoes` of a command that comes by rings, evaluated. -/
def mbxCan (s : State) (r : MbxRow) (c : MbxCmd) (job : Option (Fin 2)) : Bool :=
  s.fwOn && decide (c.mb.val < 8) && s.ringsOn c.mb.val && !s.pwr.vacant && !(s.mbxBehind c.mb.val job) &&
  decide ((s.mbxEarly r c).1 = none) && s.mbxLegal r

theorem mbxGoes_of_mbxCan (s : State) (r : MbxRow) (c : MbxCmd) (job : Option (Fin 2)) (h : mbxCan s r c job = true) :
    mbxGoes s r c job := by
  simp only [mbxCan, Bool.and_eq_true, decide_eq_true_eq, Bool.not_eq_true'] at h
  obtain ⟨⟨⟨⟨⟨⟨h1, h2⟩, h3⟩, h4⟩, h5⟩, h6⟩, h7⟩ := h
  have h8 : c.mb ≠ 8 := by
    intro e
    rw [e] at h2
    exact absurd h2 (by decide)
  refine ⟨h1, fun _ => h8, fun _ => h3, fun e => h8 e.1, h4, h5, h6, ?_, h7⟩
  intro e
  simp [mbxSigned, h8] at e

/-- The completions written: their STATUS; and the response payloads. -/
def stOf (s : State) : List Nat :=
  s.out.filterMap fun m => match m with
    | .cclWrite _ a e => if 2 ^ 51 ≤ a.toNat then some (field e 3 1) else none
    | _ => none
def rspOf (s : State) : List (List Byte) :=
  s.out.filterMap fun m => match m with
    | .cclWrite _ a e => if a = 0x9000 then some e else none
    | _ => none

/-- MailboxPath: STALE, BAD_ARG out of order, a bad payload, a wrong state; the first lap's last slot. -/
theorem test_MailboxPath :
    let c := cmd (pay [])
    let late := sMb.setMbox 0 { MboxSt.reset with cqTail := 4095 }
    mbxCan sMb rowHello c none = true ∧
    stOf (run (.getInfo { c with hdr := { c.hdr with seqGen := 2 } }) sMb) = [9] ∧
    stOf (run (.getInfo { c with hdr := { c.hdr with seq := 0 } }) sMb) = [4] ∧
    stOf (run (.getInfo c) sMb) = [4] ∧ ((run (.getInfo c) sMb).session 0).seq = 0 ∧
    stOf (run (.masterSet (cmd (pay [1, 1, 0, 0, 1, 1, 1]))) sMb) = [4] ∧
    stOf (run (.jobHold (cmd (pay []))) { sMb with modState := 4 }) = [3] ∧
    stOf (run (.jobHold (cmd (pay [0, 2]))) { sMb with modState := 4 }) = [4] ∧
    (sMb.complete c 1 0 [] [7]).out.take 2 = [.cclWrite 1 0x9000 [7], .cclWrite 1 (2 ^ 52 - 2 ^ 17)
      ([0xFF, 0xFF, 1, 0, 1, 0, 0, 0, 0, 0, 5] ++ List.replicate 20 0 ++ [1])] ∧
    (late.complete c 1 3 [] []).out.take 1 = [.cclWrite 1 (BitVec.ofNat 52 (2 ^ 52 - 32))
      ([0xFF, 0xFF, 1, 3, 0, 0, 0, 0, 0, 0, 5, 5] ++ List.replicate 19 0 ++ [1])] ∧
    late.doneRoom 0 = true := by
  decide +kernel

/-- SessionsAndInformation: HELLO, GET_STATE, CAPMAP_READ, RING_RELEASE, COUNTERS_READ, TIME_STATUS, MASTER_SET. -/
theorem test_SessionsAndInformation :
    let none_ := cmd []
    let h := run (.hello (cmd (pay [1, 2]))) { sMb with modState := 3 }
    let m := run (.masterSet (cmd (pay [0, 0, 0, 0, 1, 1, 1, 0, 9]))) { sMb with modState := 4, svc := { sMb.svc with mstrSel := true } }
    let k := cmd (leBytes 8 1 ++ leBytes 8 (regGa 48 0x8008))
    mbxCan { sMb with modState := 3 } rowHello (cmd (pay [1, 2])) none = true ∧ h.session 0 = ⟨true, 2, 2, 0⟩ ∧ h.modState = 4 ∧
    (h.out.any fun m => match m with | .cclWrite _ _ e => decide (slice e 11 3 = [2, 1, 2]) | _ => false) = true ∧
    mbxCan sMb rowGetInfo none_ none = true ∧ mbxCan sMb rowGetState none_ none = true ∧ stOf (run (.getState none_) sMb) = [0] ∧
    (run (.capmapRead (cmd (pay (leBytes 4 9359 ++ [2])))) sMb).out.length = 2 ∧
    (run (.ringRelease none_) sMb).ringsOn 0 = false ∧ stOf (run (.ringRelease none_) sMb) = [0] ∧
    stOf (run (.attest (cmd (pay []))) sMb) = [0x0B] ∧ mbxCan sMb rowGetCerts none_ none = true ∧
    countersBad k = false ∧ rspOf (run (.countersRead k) (sMb.setReg (regGa 48 0x8008) 0)) = [leBytes 8 0] ∧
    rspOf (run (.timeStatus none_) { sMb with time := { sMb.time with reference := 9 } }) = [] ∧
    m.timeField 63 62 = 1 ∧ m.time.ppsNext = some 9 ∧ m.regField (regGa 51 0x2000) 59 55 = 1 := by
  decide +kernel

/-- ContextsComeAndGo: CTX_CREATE's conditions, with MBX7 bound; CTX_DESTROY of a context with MBX7, a mapping, a grant and a
tolerance, and of one with a job. -/
theorem test_ContextsComeAndGo :
    let c := cmd (pay ([1, 7, 12, 1] ++ leBytes 2 2047 ++ [31, 127] ++ leBytes 8 (2 ^ 52 - 4096) ++ leBytes 8 4096))
    let x : XlSt := ⟨[(0, some ⟨false, 0⟩), (63, some ⟨true, 5⟩)], [⟨63, 0, false, 0, true, true, true, false, false, false, false, false⟩], [], []⟩
    let s := ({ sMb with xl := x, fw := { sMb.fw with grants := [(63, 0, 65536), (2, 0, 65536)], tols := [(63, some (9, true))] } } : State).setMbox 7
      { MboxSt.reset with ctx := some 63 }
    let n := run (.ctxDestroy (cmd (pay [63]))) s
    ctxCreateBad c = false ∧ mbxCan sMb rowCtxCreate c none = true ∧
    (sMb.xl.ctxs.filter fun e => decide (e.1 ≠ 0)).length < (sMb.fw.images.map (·.contexts)).getD 0 ∧
    sMb.storeUsed sMb.xl.maps + 4096 ≤ storeSize ∧ (sMb.mbox 7).ctx = none ∧
    mbxCan s rowCtxDestroy (cmd (pay [63])) none = true ∧ n.xl.ctxs = [(0, some ⟨false, 0⟩)] ∧ n.xl.maps = [] ∧
    n.fw.grants = [(2, 0, 65536)] ∧ n.fw.tols = [] ∧ (n.mbox 7).ctx = none ∧ stOf n = [0] ∧
    stOf (run (.ctxDestroy (cmd (pay [63]))) (s.setDom 1 { DomSt.reset with loaded := true, ctx := 63 })) = [1] := by
  decide +kernel

/-- MAP's and UNMAP's payload (Table 14.25). -/
def mp (kind ctx attr index count va target size vector gen : Nat) : List Byte :=
  pay (leBytes 1 kind ++ leBytes 1 ctx ++ leBytes 1 attr ++ leBytes 1 index ++ leBytes 4 count ++ leBytes 8 va ++
    leBytes 8 target ++ leBytes 8 size ++ leBytes 2 vector ++ leBytes 1 gen)

/-- Context 63, which maps a page of 64 KiB at 0x10000, and another. -/
def sMx : State :=
  let m (ctx : CtxId) (va ga : Nat) : Mapping := ⟨ctx, va, false, ga, true, true, true, false, false, false, false, false⟩
  { sMb with xl := ⟨[(0, some ⟨false, 0⟩), (63, some ⟨false, 0⟩)], [m 63 0x10000 (2 ^ 30), m 0 0x10000 (2 ^ 30)], [], []⟩ }

/-- MappingsChange: pages at the top of the address space, one replaced, one unmapped; a range of a running job. -/
theorem test_MappingsChange_pages :
    let top := cmd (mp 0 63 3 0 2 (2 ^ 48 - 131072) (2 ^ 30) 0 0 0)
    let n := run (.map top) sMx
    let r := run (.map (cmd (mp 0 63 1 0 1 0x10000 (2 ^ 31) 0 0 0))) sMx
    let u := run (.unmap (cmd (mp 0 63 0 0 1 0x10000 0 0 0 0))) sMx
    let b := sMx.setDom 1 { DomSt.reset with loaded := true, started := true, ctx := 63, firsts := [(0, some 0x1FFFF)] }
    sMx.mapBad top false = false ∧ mbxCan sMx rowMap top none = true ∧ sMx.pageDenied top (mapArgs top.payload) false = false ∧
    sMx.rangeBusy (mapArgs top.payload) = false ∧ sMx.foreignUnits 63 (2 ^ 30) 131072 = [] ∧ stOf n = [0] ∧
    (n.xl.maps.map fun m => (m.va, m.ga, m.w, m.x)).contains (2 ^ 48 - 65536, 2 ^ 30 + 65536, true, false) = true ∧
    n.xl.maps.length = 4 ∧ (r.xl.maps.filter (·.ctx = 63)).map (·.ga) = [2 ^ 31] ∧ (u.xl.maps.map (·.ctx)) = [0] ∧
    stOf (run (.unmap (cmd (mp 0 63 0 0 1 0x10000 0 0 0 0))) b) = [1] := by
  decide +kernel

/-- MappingsChange: a signal target, a window and a grant made and given up; a copy in companion memory registered. -/
theorem test_MappingsChange_others :
    let sig := regGa 48 (0x114000 + 0x10 * (63 * 16 + 15))
    let win := regGa 48 0x301F0
    let a := run (.map (cmd (mp 1 63 3 15 1 0 (2 ^ 52 - 8) 0 2047 255))) sMx
    let w := run (.map (cmd (mp 2 63 3 15 1 0 (2 ^ 52 - 4096) 4096 0 0))) sMx
    let g := run (.map (cmd (mp 3 63 0 0 2 0 0x10000 0 0 0))) sMx
    let next (s : State) : State := s.setSession 0 ⟨true, 2, 1, 65535⟩
    let sro := { sMx with xl := { sMx.xl with maps := [⟨63, 0x10000, false, 2 ^ 30, true, false, false, true, false, false, false, false⟩] } }
    let rb := cmd (pay ([0, 63, 0, 0] ++ leBytes 4 1 ++ leBytes 8 0x10000 ++ leBytes 8 0x77000))
    let k := run (.registerBacking rb) sro
    a.regField sig 63 63 = 1 ∧ a.regField sig 51 3 = (2 ^ 52 - 8) / 8 ∧ a.regField (sig + 8) 63 56 = 255 ∧ a.regField (sig + 8) 10 0 = 2047 ∧
    (run (.unmap (cmd (mp 1 63 0 15 1 0 0 0 0 0))) (next a)).regField sig 63 63 = 0 ∧
    w.regField win 63 63 = 1 ∧ w.regField win 57 52 = 63 ∧ w.regField win 51 12 = 2 ^ 40 - 1 ∧ w.regField (win + 8) 39 0 = 4096 ∧
    (run (.unmap (cmd (mp 2 63 0 15 1 0 0 0 0 0))) (next w)).regField win 63 63 = 0 ∧ g.fw.grants = [(63, 0x10000, 131072)] ∧
    (run (.unmap (cmd (mp 3 63 0 0 1 0 0x20000 0 0 0))) (next g)).fw.grants = [(63, 0x10000, 65536)] ∧
    sro.backingBad rb = false ∧ k.fw.later.length = 1 ∧
    (k.out.any fun m => match m with | .cclRead 0 0x77000 4096 _ => true | _ => false) = true := by
  decide +kernel

/-- JobsLoad: a directory that is too short, and one that is none. -/
theorem test_JobsLoad :
    let p (len : Nat) : MbxCmd := cmd (pay ([63, 5, 9, 0] ++ leBytes 4 len ++ leBytes 8 (2 ^ 30)))
    mbxCan sMx rowJobLoad (p 191) (sMx.slotById 5) = true ∧ sMx.loadBad (p 191) = false ∧ sMx.fw.plans = [] ∧ sMx.pwr.ps ≠ 4 ∧
    stOf (run (.jobLoad (p 191)) sMx) = [4] ∧ sMx.rangeOk 48 (2 ^ 30) 192 = true ∧
    ((sMx.mbxTaken rowJobLoad (p 192)).readyLines (readyList (2 ^ 30) 192 false)).1 = false ∧
    sMx.headerOk (List.replicate 192 0) 192 = false ∧ stOf (run (.jobLoad (p 192)) sMx) = [4] := by
  decide +kernel

/-- JobsLoad: a header of one entry that is in order, and one made against another map. -/
theorem test_JobsLoad_header :
    let b (ver : Nat) : List Byte := [0x46, 0x47, 0x4A, 0x4F, 0x42, 0x44, 0x52, 0x31] ++ leBytes 4 1 ++ leBytes 4 1 ++ leBytes 8 ver ++
      List.replicate 168 0
    sMx.headerOk (b sMx.capVersion) 192 = true ∧ sMx.headerOk (b (sMx.capVersion + 1)) 192 = false := by
  decide +kernel

/-- A domain 1 with id 5, of the module's own context, loaded, with a stream of tile 575; time LOCKED. -/
def sJob (started : Bool) (hold : HoldSt) : State :=
  let s := (List.range 4).foldl (fun s f => s.setReg (regGa (48 + f) 0x8040) (wf [(5, 56), (1, 32), (1, 0)])) (timeAs sMb (wf [(1, 62), (2, 52)]))
  s.setDom 1 { DomSt.reset with loaded := true, started := started, hold := hold, firsts := [(575, some 0x1234)] }

/-- JobsRunAndEnd: a start, one without time, and one beside a domain that runs. -/
theorem test_JobsRunAndEnd_start :
    let c := cmd (pay ([5] ++ List.replicate 7 0 ++ leBytes 8 131072 ++ leBytes 4 (2 ^ 32 - 1)))
    let s := { sJob false .none with ftc := 131008 }
    let n := run (.jobStart c) s
    s.namedDom c = some 1 ∧ s.startBad c = false ∧ mbxCan s rowJobStart c (some 1) = true ∧ (n.dom 1).started = true ∧
    (n.dom 1).start = 131072 ∧ (n.dom 1).step0 = 0xFFFFFFFF ∧ (n.tile 575).seq.running = true ∧ (n.tile 575).seq.pc = 0x1234 ∧
    (n.tile 575).seq.stepBase = 2 ∧ (n.tile 574).seq.running = false ∧
    stOf (run (.jobStart c) (timeAs s (wf [(1, 62), (1, 52)]))) = [1] ∧
    stOf (run (.jobStart c) (s.setDom 0 { DomSt.reset with loaded := true, started := true })) = [1] ∧
    stOf (run (.jobStart c) { s with ftc := 131009 }) = [4] := by
  decide +kernel

/-- JobsRunAndEnd: JOB_HOLD of a running and of a held domain, JOB_RESUME, JOB_DRAIN of each. -/
theorem test_JobsRunAndEnd_rest :
    let r : HoldReq := ⟨1, false, 65536, 0, none⟩
    let h := { sJob true ⟨true, 65536, [r]⟩ with ftc := 65537 }
    let s := { sJob true .none with ftc := 65537 }
    let one := cmd (pay [5])
    let n := run (.jobHold (cmd (pay [5, 1]))) s
    mbxCan s rowJobHold one (some 1) = true ∧ n.fw.later.map (·.2) = [.held 1] ∧ (n.dom 1).hold.reqs.map (fun q => (q.bit, q.frames)) = [(1, 0)] ∧
    ((run (.jobHold one) h).out.any fun m => match m with
      | .cclWrite _ _ e => decide (field e 3 1 = 0 ∧ slice e 11 8 = leBytes 8 65536) | _ => false) = true ∧
    h.skewHeld 1 = false ∧ ((run (.jobResume one) h).dom 1).hold.reqs.map (·.ends) = [some 131072] ∧
    (run (.jobDrain one) s).modState = 7 ∧ ((run (.jobDrain one) s).dom 1).draining = some 131072 ∧
    (run (.jobDrain one) h).dom 1 = DomSt.reset ∧ stOf (run (.jobDrain one) h) = [0] := by
  decide +kernel

/-- ReplicasTolerancesAndCap: REPLICA_SET of no job, a loaded and a started one; the policy, a tolerance, the cap. -/
theorem test_ReplicasTolerancesAndCap :
    let c := cmd (leBytes 2 4096 ++ leBytes 2 4095 ++ leBytes 2 7 ++ [9, 0] ++ leBytes 8 (2 ^ 30) ++ leBytes 2 65528 ++ leBytes 14 0)
    let l := { sJob false .none with modState := 4 }
    let n := run (.replicaSet c) l
    let cap (w : Nat) : MbxCmd := cmd (leBytes 4 w ++ leBytes 4 0)
    let big := { sMb with fw := { sMb.fw with images := some { imgs with pcapMax := 9000 } } }
    let tol := run (.setLatTol (cmd ([0, 1, 0, 0] ++ leBytes 4 50))) sMb
    replicaBad c = false ∧ l.replicaDom c = some 1 ∧ mbxCan l rowReplicaSet c (some 1) = true ∧ n.fw.nrepl = 4096 ∧
    n.regField (ueReg 3 0x10) 32 21 = 4095 ∧ n.regField (ueReg 3 0x10) 40 33 = 9 ∧ n.regField (ueReg 3 0x18) 63 48 = 65528 ∧
    (let q := run (.replicaSet c) { sJob true .none with modState := 6 }
     (q.dom 1).replica = some c.payload) ∧ stOf (run (.replicaSet c) { sMb with modState := 4 }) = [4] ∧
    (run (.digestPolicy (cmd (pay (leBytes 2 1024)))) sMb).regField (ueReg 3 0x10) 63 53 = 1024 ∧
    (run (.digestPolicy (cmd (pay (leBytes 2 1024)))) (sJob true .none)).fw.policy = some 1024 ∧
    tol.regField (regGa 49 0x130020) 63 32 = 50 ∧ tol.regField (regGa 48 0x130020) 31 31 = 1 ∧
    stOf (run (.setPowerCap (cap 7999)) big) = [4] ∧ stOf (run (.setPowerCap (cap 9001)) big) = [5] ∧
    stOf (run (.setPowerCap (cap 9000)) big) = [0] ∧ (run (.setPowerCap (cap 9000)) big).capNow = 9000 := by
  decide +kernel

/-! ### Fences, tests, firmware -/

/-- FENCE's payload: grain and identifiers. -/
def fe (g a b c : Nat) : MbxCmd := cmd (pay (leBytes 1 g ++ leBytes 3 0 ++ leBytes 2 a ++ leBytes 2 b ++ leBytes 2 c))

/-- FencesEnterAndLift: a die of no job, once more, a tile of a running job, a column of an array with an open run. -/
theorem test_FencesEnterAndLift_fence :
    let n := run (.fence (fe 3 47 0 0)) sMb
    let h := run (.fence (fe 2 575 0 0)) (sJob true .none)
    let r := sMb.setTile 575 { TileSt.reset with mxa := { MxaSt.reset with run := some ⟨true, 0, 0, 0, 0, 0, 1⟩ } }
    fenceBad (fe 3 47 0 0) = false ∧ mbxCan sMb rowFence (fe 3 47 0 0) none = true ∧ sMb.fenceThere ⟨3, 47, 0, 0, 0, false⟩ = false ∧
    n.hasFence 3 47 0 0 = true ∧ n.capVersion = sMb.capVersion + 1 ∧
    (run (.fence (fe 3 47 0 0)) (n.setSession 0 ⟨true, 2, 1, 65535⟩)).capVersion = n.capVersion ∧
    (sJob true .none).domUnit 1 ⟨2, 575, 0, 0, 0, false⟩ = true ∧ h.fw.later.map (·.2) = [.fenced 1] ∧ h.fences = [] ∧
    (h.dom 1).fences = [(2, 575, 0, 0)] ∧ (h.dom 1).hold.reqs.map (·.bit) = [4] ∧
    (r.tile 575).mxa.run ≠ none ∧ ((run (.fence (fe 0 47 11 127)) r).tile 575).mxa.pending = [.column 127 0] ∧
    (run (.fence (fe 0 47 11 127)) r).fences = [] := by
  decide +kernel

/-- FencesEnterAndLift: a fence lifted and kept; one whose package is gone; of a unit that is not fenced. -/
theorem test_FencesEnterAndLift_lift :
    let s (pkg : BitVec 64) : State := { sMb with modState := 4, fences := [⟨2, 575, 0, 0, pkg, false⟩, ⟨2, 574, 0, 0, 0, false⟩] }
    let u (pass : Bool) (pkg : BitVec 64) : State := run (.unfenceRequest (fe 2 575 0 0) pass) (s pkg)
    mbxCan (s 0) rowUnfence (fe 2 575 0 0) none = true ∧ (s 9).pkgLoaded 9 = false ∧
    (u true 0).fences = [⟨2, 574, 0, 0, 0, false⟩] ∧ (u true 0).capVersion = sMb.capVersion + 1 ∧ stOf (u true 0) = [0] ∧
    (u false 0).hasFence 2 575 0 0 = true ∧ stOf (u false 0) = [0x0B] ∧ stOf (u true 9) = [0x0B] ∧
    run (.unfenceRequest (fe 2 573 0 0) true) (s 0) = (((s 0).mbxTaken rowUnfence (fe 2 573 0 0)).complete (fe 2 573 0 0) 0x51 0 [] []) := by
  decide +kernel

/-- TEST_PACKAGE_LOAD's payload: OP, slot, offset, length. -/
def tp (op slot off n : Nat) (data : List Byte) : MbxCmd :=
  cmd (pay (leBytes 1 op ++ leBytes 1 slot ++ leBytes 2 0 ++ leBytes 4 off ++ leBytes 4 n) ++ data)

/-- PackagesAndTests: a slot reserved, one too large, data at its end, a bad form, a slot freed. -/
theorem test_PackagesAndTests_load :
    let n := run (.testPackageBegin (tp 0 15 0 (2 ^ 26) [])) sMb
    let b := { sMb with evt := { sMb.evt with pkgs := [(15, some ⟨100, [], false⟩)] } }
    let d := run (.testPackageData (tp 1 15 98 2 [1, 2])) b
    let full := { sMb with evt := { sMb.evt with pkgs := [(0, some ⟨2 ^ 26, [], false⟩), (1, some ⟨2 ^ 26, [], false⟩), (2, some ⟨2 ^ 26, [], false⟩), (3, some ⟨2 ^ 26, [], false⟩)] } }
    pkgBad (tp 0 15 0 (2 ^ 26) []) 0 64 = false ∧ mbxCan sMb rowTestPackage (tp 0 15 0 1 []) none = true ∧
    n.testPkg 15 = some ⟨2 ^ 26, [], false⟩ ∧ stOf (run (.testPackageBegin (tp 0 15 0 1 [])) full) = [1] ∧
    b.pkgDataBad (tp 1 15 98 2 [1, 2]) = false ∧ d.testPkg 15 = some ⟨100, [(98, 1), (99, 2)], false⟩ ∧
    pkgBad (tp 2 15 0 0 []) 2 64 = false ∧ stOf (run (.testPackageCommit (tp 2 15 0 0 [])) b) = [5] ∧
    (run (.testPackageDelete (tp 3 15 0 0 [])) b).testPkg 15 = none := by
  decide +kernel

/-- PackagesAndTests: TEST_RUN of tile 575 in READY with a failure that is fenced, and on a job's tile. -/
theorem test_PackagesAndTests_run :
    let c := cmd ([0xFF, 1] ++ leBytes 2 1000 ++ leBytes 4 0 ++ leBytes 72 (2 ^ 575) ++ leBytes 48 0)
    let n := run (.testRun c [(575, none)] 7) { sMb with modState := 4 }
    sMb.testBad c = false ∧ testTiles c.payload = [575] ∧ testFlag c.payload 0 = true ∧ testFlag c.payload 1 = false ∧
    mbxCan { sMb with modState := 4 } rowTestRun c none = true ∧ n.modState = 4 ∧ n.hasFence 2 575 0 0 = true ∧
    (n.out.any fun m => match m with | .cclWrite _ _ e => decide (slice e 11 12 = leBytes 2 1 ++ leBytes 2 1 ++ leBytes 2 1 ++ leBytes 2 0 ++ leBytes 4 7) | _ => false) = true ∧
    stOf (run (.testRun c [] 7) (sJob true .none)) = [1] := by
  decide +kernel

/-- FW_STAGE's payload: OP, offset, length. -/
def fs (op off n : Nat) (data : List Byte) : MbxCmd := tp op 0 off n data

/-- FirmwareStagesAndSheds: BEGIN, by another mailbox's session too; DATA at the bank's end; ABORT. -/
theorem test_FirmwareStagesAndSheds_stage :
    let b := run (.fwStageBegin (fs 0 0 0 [])) sMb
    let st (m : Fin 9) : State := sMb.setStage (some ⟨m, 1⟩)
    let d := run (.fwStageData (fs 1 (bankSize - 2) 2 [3, 4])) ((st 0).eraseBoth 1)
    stageBad (fs 0 0 0 []) 0 64 = false ∧ mbxCan sMb rowFwStage (fs 0 0 0 []) none = true ∧ sMb.spareBank = 1 ∧
    b.fw.stage = some ⟨0, 1⟩ ∧ b.bankByte 0 1 5 = 0xFF ∧ b.bankByte 1 1 (bankSize - 1) = 0xFF ∧
    stOf (run (.fwStageBegin (fs 0 0 0 [])) (st 1)) = [1] ∧ (st 0).stageDataBad (fs 1 (bankSize - 2) 2 [3, 4]) = false ∧
    d.bankByte 1 1 (bankSize - 1) = 4 ∧ d.bankByte 0 1 (bankSize - 2) = 3 ∧ d.bankByte 0 1 (bankSize - 3) = 0xFF ∧
    (run (.fwStageAbort (fs 3 0 0 [])) (st 0)).fw.stage = none ∧ (st 0).stageDataBad (fs 1 (bankSize - 1) 2 [3, 4]) = true := by
  decide +kernel

/-- FirmwareStagesAndSheds: COMMIT of a bank that holds no manifest; a shed of one. -/
theorem test_FirmwareStagesAndSheds_commit :
    let s := (sMb.eraseBoth 1).setStage (some ⟨0, 1⟩)
    (s.flashDev 0).minVersion = some 1 ∧ (s.checkBank 0 1 1).isOk = false ∧
    stOf (run (.fwStageCommit (fs 2 0 0 [])) s) = [0x0B] ∧ (run (.fwStageCommit (fs 2 0 0 [])) s).fw.stage = some ⟨0, 1⟩ := by
  decide +kernel

/-- FirmwareStagesAndSheds: a switch, one put off, and AUTO after a second below E2. -/
theorem test_FirmwareStagesAndSheds_switch :
    let x : Shed := ⟨{ imgs with secVer := 7 }, true, false, none, none⟩
    let s := sMb.setShed (some x)
    let n := run .shedSwitch s
    let e2 := (s.setField (regGa 48 0x130010) 61 61 1).setField (regGa 49 0x130010) 61 61 1
    let l := { sMb.setShed (some { x with late := true, since := some 5 }) with ftc := secondFt + 5 }
    s.fwActs = true ∧ s.inE2 = false ∧ s.inE3 = false ∧ n.fw.shed = none ∧ n.fw.images = some { imgs with secVer := 7 } ∧
    n.regField (regGa 48 0x50000) 59 59 = 1 - s.regField (regGa 48 0x50000) 59 59 ∧ n.regField (regGa 49 0x70008) 63 32 = 7 ∧
    e2.inE2 = true ∧ (run .shedSwitch e2).fw.shed = some { x with late := true } ∧ run .shedSwitch l = l ∧
    (run .shedAutoStart l).fw.shed.map (·.late) = some false ∧
    (run .shedAutoStart { l with ftc := secondFt + 4 }).fw.shed.map (·.late) = some true := by
  decide +kernel

/-! ### Registers and controllers -/

/-- ReservedBitsAndEncodings, RegistersReadAndWrite: a control register of a tile and one of a die; a port's RATE. -/
theorem test_RegistersReadAndWrite :
    let cfg := regGa 48 0x2000
    let a := regGa 0 0x0600
    let n := run (.registerWrite .firmware (BitVec.ofNat 40 (regGa 0 0x140008)) (wf [(90, 0)])) on
    (regSpecAt a).isSome = true ∧ (regSpecAt cfg).isSome = true ∧ mayWrite (some 0) a = true ∧
    on.regOpen 0 0 a .store = true ∧ on.writeHeld a = false ∧ on.regOpen 0 0 a .load = true ∧
    n.reg (regGa 0 0x140008) = wf [(90, 0)] ∧
    (run (.registerWrite (.tile 0 0) (BitVec.ofNat 40 (regGa 0 0x140008)) 7) on).reg (regGa 0 0x140008) = on.reg (regGa 0 0x140008) ∧
    (run (.readClearRegister .firmware (BitVec.ofNat 40 cfg)) on).out = [.regValue (BitVec.ofNat 40 cfg) (on.regLoad cfg)] ∧
    (regSpecAt (linkReg 0 0)).map (fun r => fieldsWrite r.fields 0 (wf [(3, 6), (3, 4)])) = some (wf [(3, 4)]) := by
  decide +kernel

/-- ControllersAreLost: an armed deputy; the system controller without one; a die controller once and thrice. -/
theorem test_ControllersAreLost :
    let armed := (sMb.setField (regGa 48 0x50000) 58 58 1).setStage (some ⟨0, 1⟩)
    let v := run (.watchdogFire .system) (sMb.setField (regGa 48 0x50000) 58 58 0)
    let d := run (.watchdogFire (.die 47)) sMb
    armed.fwActs = true ∧ armed.fw.shed = none ∧ armed.fw.lost = [] ∧ armed.regField (regGa 48 0x50000) 58 58 = 1 ∧
    armed.lostWithin .deputy ft20ms = false ∧ armed.lostWithin .system ft20ms = false ∧ v.pwr.vacant = true ∧ v.modState = 9 ∧
    d.fw.lost = [] ∧ d.lossesOf (.die 47) = [0] ∧ d.reg (regGa 48 0x50138) = sMb.reg (regGa 48 0x50138) + 1 ∧
    (run (.watchdogFire (.die 47)) (run (.watchdogFire (.die 47)) d)).fw.lost = [.die 47] ∧
    (run (.watchdogFire (.fabric 3)) (run (.watchdogFire (.fabric 3)) (run (.watchdogFire (.fabric 3)) sMb))).linkState 7 = 6 := by
  decide +kernel

/-! ### Power and temperature -/

/-- LimitsClampAndCut: the three limits one step above and at their marks, their end, and the junction's marks. -/
theorem test_LimitsClampAndCut :
    let n := run (.hlPeak 16501 100) on
    let r := run (.hwLimitRelease 13999 3039) n
    n.regField (regGa 49 0x130000) 47 32 = 100 ∧ n.regField (regGa 48 0x130010) 63 62 = 3 ∧ n.emerg 59 = true ∧ n.clamped 47 = true ∧
    n.regField (regGa 49 0x130018) 63 63 = 1 ∧ n.regField (regGa 48 0x130018) 60 60 = 1 ∧
    run (.hlPeak 16500 3651) on = on ∧ (run (.hlExc 14001 0) on).regField (regGa 48 0x130018) 62 62 = 1 ∧
    run (.hlExc 14000 0) on = on ∧ (run (.hlCur 0 3651) on).regField (regGa 48 0x130018) 61 61 = 1 ∧ run (.hlCur 0 3650) on = on ∧
    r.emerg 59 = false ∧ r.regField (regGa 48 0x130018) 60 60 = 0 ∧ r.regField (regGa 48 0x130010) 63 62 = 0 ∧
    run (.hwLimitRelease 14000 3039) n = n ∧ on.dieUp 51 = true ∧ temp 1760 = 1760 ∧ temp 0x800 = -2048 ∧
    run (.thermalClamp 0 1759) on = on := by
  decide +kernel

/-- A module that runs firmware without a session's rings, with a cap of 12000 W. -/
def sPwr : State :=
  let s := { timeAs on (wf [(1, 62), (2, 52)]) with fw := { FwSt.reset with images := some imgs } }
  (s.setReg (regGa 48 0x130008) (wf [(12000, 0)])).setReg (regGa 49 0x130008) (wf [(12000, 0)])

/-- A domain of `sPwr` whose firmware may hold it. -/
def sLev : State := sPwr.setDom 1 { DomSt.reset with loaded := true, started := true, ctx := 0 }

/-- The same while no firmware acts: the levels alone. -/
def sLev0 : State := { sLev with modState := 1 }

/-- LevelsAndRails: E1 at 95% of the cap, not below. -/
theorem test_LevelsAndRails_e1 :
    sLev.capNow = 12000 ∧ sLev.isMaster = true ∧ sLev.fwActs = true ∧ sLev.pwr.e1 = false ∧ run (.emergencyE1 11399) sLev = sLev ∧
    sLev0.fwActs = false ∧ (run (.emergencyE1 11400) sLev0).pwr.e1 = true ∧
    (run (.emergencyE1 11400) sLev0).regField (regGa 48 0x130010) 63 62 = 1 := by
  decide +kernel

/-- LevelsAndRails: E2 above the cap, with a hold of the domain; not at the cap. -/
theorem test_LevelsAndRails_e2 :
    let b := run (.emergencyE2 (.cap 12001)) sLev0
    run (.emergencyE2 (.cap 12000)) sLev = sLev ∧ sLev.inE2 = false ∧ b.inE2 = true ∧ b.regField (regGa 48 0x130010) 63 62 = 2 ∧
    ((sLev.powerHold 1).dom 1).hold.reqs.map (·.bit) = [0] := by
  decide +kernel

/-- LevelsAndRails: E1 ends below 92% of the cap; a hold is renewed only in E2. -/
theorem test_LevelsAndRails_exit :
    let a : State := { sLev with pwr := { sLev.pwr with e1 := true } }
    (run (.emergencyExit 11039) a).pwr.e1 = false ∧ run (.emergencyExit 11040) a = a ∧ run (.powerHoldRenew 1) sLev = sLev := by
  decide +kernel

/-- LevelsAndRails: an alarm just below 15 mV raises the rail, at most to 360; an ageing reading sets it; the coolant. -/
theorem test_LevelsAndRails_rails :
    let s := (sPwr.setDom 0 { DomSt.reset with loaded := true, plan := [(575, ⟨150, 0, 0⟩)] }).setField (railReg 575) 24 16 358
    let n := run (.marginAlarm 575 5) s
    let g := run (.ageingReading 575 100 100 705000 0) s
    let w := run (.ageingReading 575 100 100 900000 0) s
    s.tileOn 575 = true ∧ run (.marginAlarm 575 6) s = s ∧ n.regField (railReg 575) 24 16 = 360 ∧ n.regField (railReg 575) 15 8 = 5 ∧
    s.plannedOf 575 = 150 ∧ g.regField (railReg 575) 24 16 = 300 ∧ w.regField (railReg 575) 24 16 = 360 ∧ setHas w.fw.weak 575 = true ∧
    (run (.coolantAlarm 641 0) s).regField (regGa 48 0x140018) 63 52 = 641 ∧ run (.coolantAlarm 640 928) s = s ∧ s.dieUp 48 = true := by
  decide +kernel

/-- PowerStates: a tile to PS1 and PS2 and back, a die to PS3 and back, what permits them. -/
theorem test_PowerStates :
    let s := { sPwr.setReg (regGa 48 0x130020) (wf [(4000000, 32), (1, 31)]) with ftc := 2 * secondFt }
    let d := run (.tileIdle 575) s
    let p := run (.powerStateEnter (.tile 575) 2) s
    let e := run (.powerStateEnter (.die 47) 3) s
    s.pwr.ps = 0 ∧ s.mayDoze 575 = true ∧ 2 ≤ s.tilePs 575 ∧ s.maySleep 575 = true ∧ 3 ≤ s.diePs 47 ∧
    d.regField (ctlReg 575) 63 61 = 1 ∧ p.regField (ctlReg 575) 63 61 = 2 ∧
    (run (.powerStateWake (.tile 575)) p).regField (ctlReg 575) 63 61 = 0 ∧ e.regField (regGa 47 0x130100) 63 61 = 3 ∧
    e.regField (ctlReg 575) 63 61 = 3 ∧ (run (.powerStateWake (.die 47)) e).regField (ctlReg 564) 63 61 = 0 ∧
    (let q := s.setSeq 575 { SeqSt.reset with running := true }
     q.mayDoze 575 = false ∧ run (.tileIdle 575) q = q) ∧
    run .i3cWake s = s := by
  decide +kernel

/-- PowerStates: the compute dies to PS4, the module to PS5, and both back. -/
theorem test_PowerStates_module :
    let s : State := { ((sPwr.setTile 3 { TileSt.reset with slots := [1] }).setReg (regGa 48 0x130020) (wf [(4000000, 32), (1, 31)])).putBytes
      77 [5] with ftc := 2 * secondFt }
    let a := run (.powerStateEnter .allDies 4) s
    let b := run (.powerStateEnter .module 5) s
    s.modulePs = 5 ∧ a.pwr.ps = 4 ∧ a.tiles = [] ∧ a.byte 77 = 0 ∧ b.pwr.ps = 5 ∧ b.linkState 9 = 0 ∧
    (run (.powerStateWake .allDies) a).pwr.ps = 0 ∧ (run (.powerStateWake .module) b).linkState 9 = 1 ∧
    run .i3cWake b = run (.powerStateWake .module) b := by
  decide +kernel

/-! ### Events -/

/-- An event of tile 0. -/
def er (cls : EvClass) : EvtReq := ⟨cls, 0x1001, 0, 1, 0, 0, some 0, 5, 6, 7, 8⟩

/-- EventsAreLogged: a record, a fatal one, CORRECTED ones up to the rate and beyond, the summary, lost engines. -/
theorem test_EventsAreLogged :
    let src := (sourceId on.selfIndex 0 1 0).toNat
    let full := { on.setField regEvtCfg 15 0 1 with evt := { on.evt with rates := [(src, ⟨0, 1, 0, 0⟩)] } }
    let n := on.raise (er .contained)
    let h := full.raise (er .corrected)
    let r := run (.rateSummary (sourceId on.selfIndex 0 1 0)) { h with ftc := secondFt }
    n.evt.logged = 1 ∧ n.evt.log.head? = some (on.mkRec (er .contained) false) ∧ mapGet 0 n.evt.seqs src = 1 ∧ n.modState = 5 ∧
    (on.raise (er .fatal)).modState = 9 ∧ h.evt.logged = 0 ∧ (mapGet (⟨0, 0, 0, 0⟩ : RateSt) h.evt.rates src).held = 1 ∧
    h.reg (regGa 0 0x150108) = 1 ∧ r.evt.log.map (fun x => (x.summary, x.code)) = [(true, 0xF002)] ∧
    run (.rateSummary (sourceId on.selfIndex 0 1 0)) h = h ∧ (run (.eventEngineLoss 1) on).evt.lost = [1] ∧
    (run (.eventEngineLoss 0) (run (.eventEngineLoss 1) on)).modState = 9 ∧
    (run (.eventEngineLoss 1) (run (.eventEngineLoss 1) on)).modState = 5 := by
  decide +kernel

/-- EVT_SUBSCRIBE's payload of a ring: classes, 2^14 slots, vector, base, head word. -/
def sub (op : Nat) : MbxCmd :=
  cmd (pay ([BitVec.ofNat 8 op, 0xF, 14, 0] ++ leBytes 4 0x7FF ++ leBytes 8 0x10000 ++ leBytes 8 0x20000))

/-- EventsAreDelivered: a ring subscribed and ended; the head word that comes back. -/
theorem test_EventsAreDelivered_ring :
    let n := run (.evtSubscribe (sub 0)) sMb
    let g : EvtRing := ⟨0, 0xF, 4, 0x7FF, 0x10000, 0x20000, 16, 0, [], 0, 0, 0⟩
    let f := { sMb with evt := { sMb.evt with rings := [(0, some { g with queue := [on.mkRec (er .contained) false] })] } }
    evtBad (sub 0) 0 = false ∧ mbxCan sMb rowEvt (sub 0) none = true ∧
    (mapGet none n.evt.rings 0).map (fun g => (g.k, g.vector.toNat, g.base.toNat, g.headAt.toNat, g.tail)) = some (14, 0x7FF, 0x10000, 0x20000, 0) ∧
    evtBad (cmd (pay [1])) 1 = false ∧ (run (.evtUnsubscribe (cmd (pay [1]))) (n.setSession 0 ⟨true, 2, 1, 65535⟩)).evt.rings = [] ∧
    (mapGet none (run (.eventRingSpaceReturn 0 3) { sMb with evt := { sMb.evt with rings := [(0, some g)] } }).evt.rings 0).map (·.head) = some 3 ∧
    ((run (.eventRingSpaceReturn 0 3) f).out.any fun m => match m with | .cclWrite 1 0x10000 b => decide (b.length = 64) | _ => false) = true := by
  decide +kernel

/-- EventsAreDelivered: a datagram is due with 22 records, or 1 ms after the oldest; not before. -/
theorem test_EventsAreDelivered_datagram :
    let r := on.mkRec (er .contained) false
    let k : Collector := ⟨0xF, 9, 514, 7, 0⟩
    let s (n : Nat) : State := { on with evt := { on.evt with served := true, colls := [(2, some k)], log := List.replicate n r, logged := n } }
    let d := run (.eventDatagramSend 2) (s 22)
    (s 22).collector 2 = some k ∧ (d.collector 2).map (fun x => (x.dseq, x.next)) = some (8, 22) ∧ d.out.length = 1 ∧
    run (.eventDatagramSend 2) (s 21) = s 21 ∧
    ((run (.eventDatagramSend 2) { s 1 with ftc := 450000 }).collector 2).map (·.next) = some 1 ∧
    ((run (.eventDatagramSend 2) { s 1 with ftc := 449999 }).collector 2).map (·.next) = some 0 := by
  decide +kernel

/-! ### Supply, reset, service -/

/-- What the boot meets: nothing wrong. -/
def world : BootWorld := ⟨0, true, true, 0, true, [], 0⟩

/-- SupplyAndReset: the input, a failed charge, a shutdown and a broken clip, levels of MOD_RST_N. -/
theorem test_SupplyAndReset :
    let up := run .inputTurnOn State.reset
    let dn := run (.supplyShutdown .over) (up.putBytes 5 [1])
    let w := { up with pwr := { up.pwr with rst := true } }
    let q := { State.reset with fw := { FwSt.reset with flash := [(0, { FlashDev.shipped with minver := [none, none, none] })] } }
    up.powered = true ∧ up.pwr.stage = .on ∧ up.out = [.pwrOk true] ∧ up.modState = 0 ∧ run .inputTurnOn up = up ∧
    (run .inrushTimeout State.reset).pwr.stage = .stopped ∧ (run .inrushRetry (run .inrushTimeout State.reset)).powered = true ∧
    dn.powered = false ∧ dn.mem = [] ∧ dn.pwr.stage = .down ∧ (run .powerUpRetry dn).powered = true ∧
    (run (.clipSenseBreak 1) up).clipsMade = false ∧ (run (.clipSenseBreak 1) up).powered = false ∧
    run (.supplyShutdown .over) State.reset = State.reset ∧
    (run (.modRstNFall 10000) w).pwr.rst = false ∧ run (.modRstNFall 9999) w = w ∧
    (run (.modRstNRise world) (run .inputTurnOn q)).modState = 9 := by
  decide +kernel

/-- ServiceConnector: recovery, I3C, address records, the default collector, management frames, the scan. -/
theorem test_ServiceConnector :
    let r := run .recoveryOpen { on with modState := 9 }
    let d := run (.recoveryData 0x3FFFFE [1, 2]) r
    let up := run .inputTurnOn State.reset
    let c := run (.collectorWrite (leBytes 16 9 ++ [2, 2])) on
    let a := { sPwr with svc := { sPwr.svc with addrs := [(1, List.replicate 23 0 ++ [7] ++ List.replicate 40 0)] } }
    r.recovers = true ∧ r.svc.recov = (1, 0) ∧ d.rescueBytes 0x3FFFFE 2 = [1, 2] ∧ (run .recoveryClose d).svc.recov.1 = 4 ∧
    on.recovers = false ∧ run .recoveryOpen on = on ∧ (run (.enec (.setdasa 9)) on).svc.dyn = some 9 ∧ (run (.enec .enec) on).svc.ibi = true ∧
    addrOk [] = false ∧ run (.mgtAddrWrite 0 []) on = on ∧ c.evt.defColl.map (·.port.toNat) = some 514 ∧
    setHas (run (.mgtLinkChange 1 true) on).svc.links 1 = true ∧ a.ip4s 1 = [7] ∧ (run (.mgtFrameReceive 1 (.arpRequest 7)) a).out.length = 1 ∧
    run (.mgtFrameReceive 1 (.arpRequest 8)) a = a ∧ run (.mgtFrameReceive 1 .other) a = a ∧
    (run (.boundaryScan .idcode) up).out = up.out ++ [.scan 0x1C480BC7] ∧ (run (.boundaryScan (.samplePreload 5)) up).svc.cells = 5 ∧
    run (.boundaryScan .bypass) State.reset = State.reset := by
  decide +kernel

/-! ### The step -/

/-- StepTakesTheFront, StepsKeepStateTidy: the first of two commands, then the tick. -/
theorem test_StepTakesTheFront :
    let s := { State.reset with pending := [.inrushTimeout, .inputTurnOn] }
    (nx (step s)).pwr.stage = .stopped ∧ (nx (step s)).pending = [.inputTurnOn] ∧ (nx (step on)).ftc = 1 ∧
    nx (step State.reset) = State.reset ∧ tidy s = true ∧ tidy (nx (step s)) = true := by
  decide +kernel

/-! ### Reset -/

/-- ResetIsOffAndTidy: OFF, without power, nothing in memory, in the queue or sent; a register at its table's value. -/
theorem test_ResetIsOffAndTidy :
    tidy State.reset = true ∧ State.reset.modState = 0 ∧ State.reset.powered = false ∧ State.reset.ftc = 0 ∧
    State.reset.pending = [] ∧ State.reset.out = [] ∧ State.reset.byte 0x1234 = 0 ∧
    State.reset.reg (regGa 48 0x130008) = regReset (regGa 48 0x130008) := by
  decide +kernel

/-! ### Ill-formed commands -/

/-- A mailbox command with a payload of 1 byte too many (R485, R490). -/
def long : MbxCmd := cmd (List.replicate 4097 0)
/-- One whose trailer is neither absent nor a signature's. -/
def torn : MbxCmd := { cmd (pay []) with trailer := List.replicate 131 0 }

/-- A packet carries at most 4096 bytes (R368). -/
theorem test_wf_packets :
    (Instr.remoteRequest 0 (pk 2 0 4097 0) (List.replicate 4097 0)).wf = false ∧
    (Instr.remoteResponse 0 (pk 2 0 4097 0) (List.replicate 4097 0)).wf = false ∧
    (Instr.remoteRequest 0 (pk 2 0 4096 0) (List.replicate 4096 0)).wf = true := by
  decide +kernel

/-- Messages of the companion link have the lengths of Table 12.6. -/
theorem test_wf_messages :
    (Instr.wrU 0 (ch 0 4097 1) (List.replicate 4097 0)).wf = false ∧ (Instr.wb 0 (ch 0 128 1) (leBytes 127 0)).wf = false ∧
    (Instr.red 0 (ch 0 144 1) (leBytes 128 0)).wf = false ∧ (Instr.signal 0 (ch 0 4097 1) (List.replicate 4097 0)).wf = false ∧
    (Instr.doorbell 0 (ch 0 8 1) (leBytes 8 0)).wf = false ∧ (Instr.ringSetup 0 (ch 0 16 1) (leBytes 16 0)).wf = false ∧
    (Instr.snpAck 0 (ch 0 64 1) (leBytes 64 0)).wf = false ∧ (Instr.rspD 0 (ch 0 4097 1) (List.replicate 4097 0)).wf = false ∧
    (Instr.doorbell 0 (ch 0 16 1) (bell 0 0)).wf = true ∧ (Instr.ringSetup 0 (ch 0 32 1) setUp).wf = true := by
  decide +kernel

/-- Records of the service connector have the lengths of Tables 17.6 and 17.7. -/
theorem test_wf_service :
    (Instr.mgtAddrWrite 0 (leBytes 63 0)).wf = false ∧ (Instr.collectorWrite (leBytes 17 0)).wf = false ∧
    (Instr.recoveryData 0x3FFFFF [1, 2]).wf = false ∧ (Instr.recoveryData 0x3FFFFF [1]).wf = true := by
  decide +kernel

/-- Commands of mailboxes have the lengths of their header; the rows without operands of bytes are well formed as they
stand. -/
theorem test_wf_mailbox :
    cmdOk long = false ∧ cmdOk torn = false ∧ cmdOk (cmd (pay [])) = true ∧ (Instr.hello long).wf = false ∧
    (Instr.jobLoad torn).wf = false ∧ (Instr.unfenceRequest long true).wf = false ∧ (Instr.testRun torn [] 0).wf = false ∧
    (Instr.timeStatus torn).wf = false ∧ (Instr.timeStatus (cmd (pay []))).wf = true ∧ Instr.inputTurnOn.wf = true := by
  decide +kernel

/-- No row of the table has bits, so no word spells a command and none is put into the queue. -/
theorem test_no_word_spells_a_command :
    decodeTableWord 32 0 = none ∧ (State.reset.withFetchWord 32 0).pending = [] := by
  decide +kernel

end Sys2Proof.Tests
end

section
/-!
SUPPORT. Laws of register fields (R5 to R8): what a bit and a field hold after bits are put, what a software write and a
read do to each field and to the bits between fields, and that no two fields of a register of the tables share a bit.
-/

namespace Sys2Proof.Machine

/-! ### Bits of a word -/

/-- Bit i of a field is bit lo + i of the word. -/
theorem testBit_bits (w : Word) (hi lo i : Nat) :
    (bits w hi lo).testBit i = (decide (i < hi + 1 - lo) && w.getLsbD (lo + i)) := by
  simp [bits, Nat.testBit_mod_two_pow, Nat.testBit_shiftRight, BitVec.getLsbD]

theorem bits_lt (w : Word) (hi lo : Nat) : bits w hi lo < 2 ^ (hi + 1 - lo) :=
  Nat.mod_lt _ (Nat.two_pow_pos _)

/-- A field depends on the bits inside it alone. -/
theorem bits_congr {w w' : Word} {hi lo : Nat} (h : ∀ k, lo ≤ k → k ≤ hi → w.getLsbD k = w'.getLsbD k) :
    bits w hi lo = bits w' hi lo := by
  refine Nat.eq_of_testBit_eq fun i => ?_
  rw [testBit_bits, testBit_bits]
  by_cases hin : i < hi + 1 - lo
  · rw [h (lo + i) (by omega) (by omega)]
  · simp [hin]

/-- Bits put into a word: the value inside [hi:lo], the word as it was outside. -/
theorem getLsbD_putBits (w : Word) {hi lo : Nat} (hle : lo ≤ hi) (hlt : hi < 64) (v k : Nat) :
    (putBits w hi lo v).getLsbD k = if k < lo ∨ hi < k then w.getLsbD k else v.testBit (k - lo) := by
  have stacked : w.toNat % 2 ^ lo + v % 2 ^ (hi + 1 - lo) * 2 ^ lo + w.toNat >>> (hi + 1) * 2 ^ (hi + 1) =
      2 ^ lo * (2 ^ (hi + 1 - lo) * (w.toNat >>> (hi + 1)) + v % 2 ^ (hi + 1 - lo)) + w.toNat % 2 ^ lo := by
    rw [show 2 ^ (hi + 1) = 2 ^ lo * 2 ^ (hi + 1 - lo) by rw [← pow_add]; congr 1; omega]
    ring
  simp only [putBits, BitVec.getLsbD_ofNat, stacked, Nat.testBit_two_pow_mul_add _ (Nat.mod_lt _ (Nat.two_pow_pos _))]
  rcases lt_or_ge k lo with below | hlo
  · have : k < 64 := by omega
    simp [below, this, Nat.testBit_mod_two_pow, BitVec.getLsbD]
  rcases lt_or_ge hi k with above | hhi
  · have hk : ¬ k - lo < hi + 1 - lo := by omega
    have hsum : hi + 1 + (k - lo - (hi + 1 - lo)) = k := by omega
    by_cases hk64 : k < 64
    · simp [above, hlo.not_gt, hk, hk64, hsum, Nat.testBit_shiftRight, BitVec.getLsbD]
    · simp [above, hk64, BitVec.getLsbD_of_ge w k (by omega)]
  · have hin : k - lo < hi + 1 - lo := by omega
    have hk64 : k < 64 := by omega
    simp [hlo.not_gt, hhi.not_gt, hin, hk64, Nat.testBit_mod_two_pow]

/-- A field reads what was put into it. -/
theorem bits_putBits_self (w : Word) {hi lo v : Nat} (hle : lo ≤ hi) (hlt : hi < 64) (hv : v < 2 ^ (hi + 1 - lo)) :
    bits (putBits w hi lo v) hi lo = v := by
  refine Nat.eq_of_testBit_eq fun i => ?_
  rw [testBit_bits, getLsbD_putBits w hle hlt]
  by_cases hin : i < hi + 1 - lo
  · have : ¬hi < lo + i := by omega
    simp [hin, this]
  · have big : 2 ^ (hi + 1 - lo) ≤ 2 ^ i := Nat.pow_le_pow_right (by decide) (by omega)
    simp [hin, Nat.testBit_lt_two_pow (hv.trans_le big)]

/-- Putting a field's own value back changes nothing. -/
theorem putBits_bits (w : Word) {hi lo : Nat} (hle : lo ≤ hi) (hlt : hi < 64) :
    putBits w hi lo (bits w hi lo) = w := by
  refine BitVec.eq_of_getLsbD_eq fun k _ => ?_
  rw [getLsbD_putBits w hle hlt, testBit_bits]
  split
  · rfl
  · have hin : k - lo < hi + 1 - lo := by omega
    have hsum : lo + (k - lo) = k := by omega
    simp [hin, hsum]

/-! ### Fields of a register -/

/-- The fields lie in the word and are listed from the highest bits to the lowest (R5), so no two share a bit. -/
abbrev FieldsApart (fs : List RegField) : Prop :=
  (∀ f ∈ fs, f.lo ≤ f.hi ∧ f.hi < 64) ∧ fs.Pairwise fun f g => g.hi < f.lo

theorem fieldsApart_cons {f : RegField} {fs : List RegField} :
    FieldsApart (f :: fs) ↔ (f.lo ≤ f.hi ∧ f.hi < 64) ∧ (∀ g ∈ fs, g.hi < f.lo) ∧ FieldsApart fs := by
  simp only [FieldsApart, List.forall_mem_cons, List.pairwise_cons]
  tauto

/-- What a field holds after a software write of v over old (Table 0.2, R8). -/
def RegField.written (f : RegField) (old v : Word) : Nat :=
  match f.acc with
  | .rw => if reservedIn f.bad (bits v f.hi f.lo) then bits old f.hi f.lo else bits v f.hi f.lo
  | .w1c => bits old f.hi f.lo &&& (2 ^ (f.hi + 1 - f.lo) - 1 - bits v f.hi f.lo)
  | _ => bits old f.hi f.lo

theorem RegField.written_lt (f : RegField) (old v : Word) : f.written old v < 2 ^ (f.hi + 1 - f.lo) := by
  unfold RegField.written
  split
  · split <;> exact bits_lt ..
  · exact Nat.and_le_left.trans_lt (bits_lt ..)
  · exact bits_lt ..

/-- A write goes field by field: where the later fields have left a field alone, its new value is put there. -/
theorem fieldsWrite_cons {f : RegField} {fs : List RegField} {old v : Word} (hf : f.lo ≤ f.hi ∧ f.hi < 64)
    (kept : bits (fieldsWrite fs old v) f.hi f.lo = bits old f.hi f.lo) :
    fieldsWrite (f :: fs) old v = putBits (fieldsWrite fs old v) f.hi f.lo (f.written old v) := by
  have unchanged : putBits (fieldsWrite fs old v) f.hi f.lo (bits old f.hi f.lo) = fieldsWrite fs old v := by
    rw [← kept, putBits_bits _ hf.1 hf.2]
  cases hacc : f.acc with
  | rw =>
    by_cases hres : reservedIn f.bad (bits v f.hi f.lo) <;>
      simp [fieldsWrite, RegField.written, hacc, hres, unchanged]
  | w1c => simp [fieldsWrite, RegField.written, hacc]
  | ro | wo | rc => simp [fieldsWrite, RegField.written, hacc, unchanged]

/-- A write leaves the bits of no field alone (R7). -/
theorem getLsbD_fieldsWrite_of_outside {fs : List RegField} (h : FieldsApart fs) (old v : Word) {k : Nat}
    (hk : ∀ f ∈ fs, k < f.lo ∨ f.hi < k) : (fieldsWrite fs old v).getLsbD k = old.getLsbD k := by
  induction fs generalizing k with
  | nil => rfl
  | cons f fs ih =>
    obtain ⟨hf, hbelow, hfs⟩ := fieldsApart_cons.mp h
    obtain ⟨hkf, hkfs⟩ := List.forall_mem_cons.mp hk
    have kept : bits (fieldsWrite fs old v) f.hi f.lo = bits old f.hi f.lo :=
      bits_congr fun j hj _ => ih hfs fun g hg => .inr ((hbelow g hg).trans_le hj)
    rw [fieldsWrite_cons hf kept, getLsbD_putBits _ hf.1 hf.2, if_pos hkf, ih hfs hkfs]

/-- A write gives every field its new value, whatever the other fields of the same write (R8). -/
theorem bits_fieldsWrite {fs : List RegField} (h : FieldsApart fs) (old v : Word) {f : RegField} (hmem : f ∈ fs) :
    bits (fieldsWrite fs old v) f.hi f.lo = f.written old v := by
  induction fs with
  | nil => cases hmem
  | cons g fs ih =>
    obtain ⟨hg, hbelow, hfs⟩ := fieldsApart_cons.mp h
    have kept : bits (fieldsWrite fs old v) g.hi g.lo = bits old g.hi g.lo :=
      bits_congr fun j hj _ => getLsbD_fieldsWrite_of_outside hfs old v fun e he => .inr ((hbelow e he).trans_le hj)
    rw [fieldsWrite_cons hg kept]
    cases hmem with
    | head => exact bits_putBits_self _ hg.1 hg.2 (RegField.written_lt _ old v)
    | tail _ hf =>
      rw [← ih hfs hf]
      refine bits_congr fun j _ hj => ?_
      rw [getLsbD_putBits _ hg.1 hg.2, if_pos (.inl (hj.trans_lt (hbelow f hf)))]

/-- A read returns zero in the bits of no field (R7). -/
theorem getLsbD_fieldsRead_of_outside {fs : List RegField} (h : FieldsApart fs) (w : Word) {k : Nat}
    (hk : ∀ f ∈ fs, k < f.lo ∨ f.hi < k) : (fieldsRead fs w).getLsbD k = false := by
  induction fs with
  | nil => simp [fieldsRead]
  | cons f fs ih =>
    obtain ⟨hf, -, hfs⟩ := fieldsApart_cons.mp h
    obtain ⟨hkf, hkfs⟩ := List.forall_mem_cons.mp hk
    cases hacc : f.acc with
    | wo => simpa [fieldsRead, hacc] using ih hfs hkfs
    | ro | rw | w1c | rc => simp only [fieldsRead, hacc, getLsbD_putBits _ hf.1 hf.2, if_pos hkf, ih hfs hkfs]

/-! ### The register tables -/

theorem mem_of_findReg {l : List RegSpec} {o : Nat} {r : RegSpec} (h : findReg l o = some r) : r ∈ l := by
  induction l with
  | nil => cases h
  | cons e rest ih =>
    rw [findReg] at h
    split at h
    · cases h; exact List.mem_cons_self
    · exact List.mem_cons_of_mem e (ih h)

/-- Every register of the tables has fields that lie apart. -/
theorem fieldsApart_of_mem_tables :
    ∀ r ∈ regsTile ++ regsCd ++ regsAll ++ regsFd ++ regsFd01 ++ regsFd0, FieldsApart r.fields := by
  decide +kernel

theorem mem_tables_of_regAt {kind : DieKind} {o : Nat} {r : RegSpec} (h : regAt kind o = some r) :
    r ∈ regsTile ++ regsCd ++ regsAll ++ regsFd ++ regsFd01 ++ regsFd0 := by
  cases kind with
  | compute =>
    rw [regAt] at h
    split at h <;> have := mem_of_findReg h <;> simp only [List.mem_append] at this ⊢ <;> tauto
  | fd0 | fd1 | fd23 =>
    have := mem_of_findReg h
    simp only [List.mem_append] at this ⊢
    tauto

/-- The register at an address has fields that lie apart. -/
theorem fieldsApart_of_regSpecAt {ga : Nat} {r : RegSpec} (h : regSpecAt ga = some r) : FieldsApart r.fields := by
  rw [regSpecAt] at h
  split at h
  · cases h
  · exact fieldsApart_of_mem_tables r (mem_tables_of_regAt h)

theorem State.regLoad_of_regSpecAt (s : State) {ga : Nat} {r : RegSpec} (h : regSpecAt ga = some r) :
    s.regLoad ga = fieldsRead r.fields (s.regView (ga / 8 * 8)) := by
  rw [State.regLoad, h]

/-- Settles O48: no two fields of a register of the tables share a bit, so a write gives each field its own new value
and touches no bit between fields, where a read puts nothing. -/
theorem reservedBitsAndEncodings : Obligations.ReservedBitsAndEncodings := by
  intro s ga r old v hreg
  have apart := fieldsApart_of_regSpecAt hreg
  refine ⟨fun k _ outside => ⟨?_, getLsbD_fieldsWrite_of_outside apart old v outside⟩, fun f hf hacc hres => ?_,
    fun f hf hacc hres => ?_, fun f hf hacc => ?_⟩
  · rw [s.regLoad_of_regSpecAt hreg, getLsbD_fieldsRead_of_outside apart _ outside]
  · simp [bits_fieldsWrite apart old v hf, RegField.written, hacc, hres]
  · simp [bits_fieldsWrite apart old v hf, RegField.written, hacc, hres]
  · simp [bits_fieldsWrite apart old v hf, RegField.written, hacc]

end Sys2Proof.Machine
end

section
/-!
SUPPORT. What a vector instruction that works on registers only leaves, once its unit issues it (R154), and what the
instructions that write a mask register put there (R156, R159, R176).
-/

namespace Sys2Proof.Machine

/-! ### Issue -/

/-- A lookup of the translation cache changes nothing of its tile but that cache, and neither the domains nor the count
of free values (R202). -/
theorem State.xlLookup_frame (s : State) (t : TileId) (ctx : CtxId) (va : Nat) :
    (∃ l, (s.xlLookup t ctx va).tile t = { s.tile t with tlb := l }) ∧ (s.xlLookup t ctx va).doms = s.doms ∧
      (s.xlLookup t ctx va).freeCount = s.freeCount := by
  have same : ∃ l, s.tile t = { s.tile t with tlb := l } := ⟨_, rfl⟩
  unfold State.xlLookup
  dsimp only
  split; · exact ⟨same, rfl, rfl⟩
  split; · exact ⟨same, rfl, rfl⟩
  split
  · split
    · exact ⟨⟨_, State.setTile_tile_self ..⟩, rfl, rfl⟩
    · exact ⟨⟨_, by simp only [State.bump_tile]; exact State.setTile_tile_self ..⟩, by simp, by simp⟩
  · exact ⟨by simpa only [State.bump_tile] using same, by simp, by simp⟩

/-- Issuing leaves a unit's registers alone. -/
@[simp] theorem State.vuIssued_vu (s : State) (u : VUnit) : (s.vuIssued u).vu u = s.vu u := by
  cases u with
  | tile t =>
    obtain ⟨⟨l, hl⟩, -, -⟩ := s.xlLookup_frame t (s.tile t).vx.ctx (s.tile t).vx.pc.toNat
    simp [State.vuIssued, State.vu, hl]
  | core fd c => rfl

/-- Issuing leaves what a unit brings to its instruction alone. -/
@[simp] theorem State.vuIssued_vuEnv (s : State) (u : VUnit) : (s.vuIssued u).vuEnv u = s.vuEnv u := by
  cases u with
  | tile t =>
    obtain ⟨⟨l, hl⟩, hdoms, hfree⟩ := s.xlLookup_frame t (s.tile t).vx.ctx (s.tile t).vx.pc.toNat
    simp [State.vuIssued, State.vuEnv, State.jobSeed, State.dom, hl, hdoms, hfree]
  | core fd c => rfl

/-- A unit that can issue performs its instruction's effect on the state in which it issued (R154, R389). -/
theorem State.vuInstr_of_goes {s : State} {u : VUnit} (h : vuGoes s u) (act : VxSt → State → State) :
    s.vuInstr u act = act (s.vu u) (s.vuIssued u) := by
  cases u with
  | tile t => exact State.vuInstr_tile_of_goes h act
  | core fd c => exact State.vuInstr_core_of_goes h act

/-- An instruction on registers that its unit issues and that does not fault leaves what it computes. -/
theorem State.vuCompute_of_goes {s : State} {u : VUnit} {f : VxEnv → VxSt → Except VxErr VxOut} {o : VxOut}
    (h : vuGoes s u) (hf : f (s.vuEnv u) (s.vu u) = .ok o) : s.vuCompute u f = (s.vuIssued u).vuApply u o := by
  simp only [State.vuCompute, State.vuInstr_of_goes h, State.vuIssued_vuEnv, hf]

/-! ### What an instruction on registers leaves -/

@[simp] theorem State.setVu_vu (s : State) (u : VUnit) (x : VxSt) : (s.setVu u x).vu u = x := by
  cases u with
  | tile t => simp [State.setVu, State.vu]
  | core fd c => simp [State.setVu, State.vu, State.setCore, State.core]

theorem State.setVu_memory (s : State) (u : VUnit) (x : VxSt) : memorySame s (s.setVu u x) := by
  cases u <;> exact ⟨rfl, rfl, rfl⟩

theorem State.setReg_memory (s : State) (a : Nat) (v : Word) : memorySame s (s.setReg a v) := ⟨rfl, rfl, rfl⟩

theorem State.setLayer_memory (s : State) (fd l : Nat) (x : UeLayer) : memorySame s (s.setLayer fd l x) :=
  ⟨rfl, rfl, rfl⟩

theorem memorySame_ite {s t u : State} {p : Prop} [Decidable p] (ht : memorySame s t) (hu : memorySame s u) :
    memorySame s (if p then t else u) := by
  split
  · exact ht
  · exact hu

theorem State.bump128_memory (s : State) (lo hi n : Nat) : memorySame s (s.bump128 lo hi n) :=
  memorySame_ite (memorySame_refl s) (memorySame_trans (s.setReg_memory lo _) (State.setReg_memory _ hi _))

theorem State.noteFlags_memory (s : State) (t : TileId) (w r e sp nw : Bool) :
    memorySame s (s.noteFlags t w r e sp nw) :=
  memorySame_ite (memorySame_refl s) (s.setSeq_memory t _)

/-- Flags of a tile's engine touch no memory, poison or sync word (R180). -/
theorem State.vxFlagSet_memory (s : State) (t : TileId) (pc : BitVec 48) (f : VxFlags) :
    memorySame s (s.vxFlagSet t pc f) :=
  memorySame_ite (memorySame_refl s) <| memorySame_trans
    (memorySame_trans (memorySame_ite (s.setReg_memory _ _) (memorySame_refl s)) (State.setReg_memory _ _ _))
    (State.noteFlags_memory _ ..)

theorem State.ueFlag_memory (s : State) (fd l bit : Nat) : memorySame s (s.ueFlag fd l bit) :=
  memorySame_trans (memorySame_ite (s.setReg_memory _ _) (memorySame_refl s)) (State.setReg_memory _ _ _)

/-- Flags of an update core touch no memory, poison or sync word (Table 11.18). -/
theorem State.ueFlagSet_memory (s : State) (fd c : Nat) (f : VxFlags) : memorySame s (s.ueFlagSet fd c f) := by
  unfold State.ueFlagSet
  split
  · exact memorySame_refl s
  · have ueFlag_if (s : State) (p : Prop) [Decidable p] (l bit : Nat) :=
      memorySame_ite (p := p) (s.ueFlag_memory fd l bit) (memorySame_refl s)
    exact memorySame_trans (memorySame_trans (s.setLayer_memory fd _ _) (ueFlag_if _ _ _ _)) (ueFlag_if _ _ _ _)

/-- What an instruction on registers leaves touches no memory, poison or sync word. -/
theorem State.vuApply_memory (s : State) (u : VUnit) (o : VxOut) : memorySame s (s.vuApply u o) := by
  have free : memorySame s (if o.used then s.free.2 else s) := memorySame_ite ⟨rfl, rfl, rfl⟩ (memorySame_refl s)
  refine memorySame_trans (memorySame_trans free ?_) (State.setVu_memory _ u _)
  cases u with
  | tile t =>
    exact memorySame_trans (memorySame_trans (State.vxFlagSet_memory _ ..) (State.bump128_memory _ ..))
      (State.bump128_memory _ ..)
  | core fd c => exact State.ueFlagSet_memory _ ..

/-- A unit goes on behind a word that does not branch, with the registers that the word leaves. -/
theorem State.vuApply_vu_of_no_jump (s : State) (u : VUnit) {o : VxOut} (h : o.jump = none) :
    (s.vuApply u o).vu u = { o.st with pc := (s.vu u).pc + 8 } := by
  simp [State.vuApply, h]

/-! ### Mask registers -/

/-- p0 reads as all ones, whatever is written to it (R154); another mask register reads what was written. -/
theorem VxSt.pr_setP_self (x : VxSt) (k : Nat) (v : BitVec 512) :
    (x.setP k v).pr k = if k = 0 then BitVec.allOnes 512 else v := by
  by_cases h : k = 0 <;> simp [VxSt.setP, VxSt.pr, h]

theorem VxSt.pr_setP_ne (x : VxSt) {k j : Nat} (v : BitVec 512) (h : j ≠ k) : (x.setP k v).pr j = x.pr j := by
  by_cases hk : k = 0 <;> simp [VxSt.setP, VxSt.pr, hk, mapGet_mapSet_ne _ _ _ _ h]

@[simp] theorem VxSt.setP_v (x : VxSt) (k : Nat) (v : BitVec 512) : (x.setP k v).v = x.v := by
  unfold VxSt.setP; split <;> rfl
@[simp] theorem VxSt.setP_sreg (x : VxSt) (k : Nat) (v : BitVec 512) : (x.setP k v).sreg = x.sreg := by
  unfold VxSt.setP; split <;> rfl
@[simp] theorem VxSt.setP_vl (x : VxSt) (k : Nat) (v : BitVec 512) : (x.setP k v).vl = x.vl := by
  unfold VxSt.setP; split <;> rfl

/-- A mask built from a function has its values below n and is clear from n on (R159). -/
theorem getLsbD_pbuild (f : Nat → Bool) (n : Nat) {i : Nat} (hi : i < 512) :
    (pbuild f n).getLsbD i = (decide (i < n) && f i) := by
  induction n with
  | zero => simp [pbuild]
  | succ n ih =>
    have bit : (if f n then 1#512 <<< n else 0).getLsbD i = (decide (i = n) && f n) := by
      cases f n
      · simp
      · have one : (BitVec.twoPow 512 n).getLsbD i = decide (i = n) := by
          by_cases h : i = n
          · simp [h, h ▸ hi]
          · simp [h, Ne.symm h]
        simpa [BitVec.twoPow] using one
    rw [pbuild, BitVec.getLsbD_or, ih, bit]
    rcases lt_trichotomy i n with h | rfl | h
    · simp [h, h.ne, h.trans n.lt_succ_self]
    · simp
    · simp [h.not_gt, h.ne', Nat.not_lt.mpr (Nat.succ_le_of_lt h)]

/-- An operand whose elements all lie in a register raises no VL fault (R157). -/
theorem vlFault_eq_false {e : VxEnv} {x : VxSt} {w : Nat} (h : x.vl ≤ vlMax e.rbits w) : vlFault e x w = false := by
  simp [vlFault, h.not_gt]

/-! ### Instructions with a mask result -/

/-- An instruction on registers that, where it is legal, writes the bits of f to the mask register VD and nothing else
is the instruction with the mask result f. -/
theorem vxMaskly_of_setP {c : VUnit → BitVec 56 → Instr} {wide : BitVec 56 → Nat}
    {ok : VxEnv → VxSt → BitVec 56 → Bool} {f : VxEnv → VxSt → BitVec 56 → Nat → Bool}
    {g : BitVec 56 → VxEnv → VxSt → Except VxErr VxOut}
    (runs : ∀ s u w, exec (c u w) s = .next (s.vuCompute u (g w)))
    (result : ∀ e x w, vxWordOk w = true → ok e x w = true → x.vl ≤ vlMax e.rbits (wide w) →
      ∃ m n k, g w e x = .ok ⟨x.setP (vxVd w) m, .none, n, k, false, none⟩ ∧ ∀ i < 512, m.getLsbD i = f e x w i) :
    vxMaskly c wide ok f := by
  intro s u w goes word legal fits
  obtain ⟨m, n, k, computes, bits⟩ := result _ _ w word legal fits
  refine ⟨_, (runs s u w).trans (congrArg _ (State.vuCompute_of_goes goes computes)), ?_⟩
  rw [State.vuApply_vu_of_no_jump _ u rfl, State.vuIssued_vu]
  refine ⟨fun i hi => ?_, fun j hj => VxSt.pr_setP_ne _ _ hj, VxSt.setP_v .., VxSt.setP_sreg .., VxSt.setP_vl .., rfl,
    (memorySame_trans (s.vuIssued_memory u) (State.vuApply_memory _ u _)).1⟩
  change (((s.vu u).setP (vxVd w) m).pr (vxVd w)).getLsbD i = _
  rw [VxSt.pr_setP_self]
  split
  · rw [BitVec.getLsbD_allOnes, decide_eq_true hi]
  · exact bits i hi

/-- VX.CMP writes its comparisons to VD below VL and clears the bits from VL on (R159). -/
theorem vxMaskly_vxCmp :
    vxMaskly .vxCmp (fun w => vxWidth (vxType w))
      (fun _ _ w => !(vxEsf (vxType w)) && decide (vxImm w ≤ 6 ∧ vxVd w ≤ 7))
      (fun _ x w i => decide (i < x.vl) && x.act w i && vxCompare (vxImm w) (vxType w) (vxA x w i) (vxB x w i)) := by
  refine vxMaskly_of_setP (g := fun w e x => vxCmp e x w) (fun _ _ _ => rfl) fun e x w word legal fits => ?_
  refine ⟨pbuild _ x.vl, _, _, by simp only [vxCmp, word, Bool.true_and, legal, vlFault_eq_false fits]; rfl, ?_⟩
  intro i hi
  simp only [getLsbD_pbuild _ _ hi, Bool.and_assoc]
  rfl

/-- VX.PLOG combines two masks below VL, keeps or zeroes the masked-off bits and keeps the bits from VL on (R156). -/
theorem vxMaskly_vxPlog :
    vxMaskly .vxPlog (fun _ => 8) (fun _ _ w => decide (vxImm w ≤ 3 ∧ vxVd w ≤ 7 ∧ vxVs1 w ≤ 7 ∧ vxVs2 w ≤ 7))
      (fun _ x w i =>
        let old := (x.pr (vxVd w)).getLsbD i
        if x.vl ≤ i then old
        else if x.act w i then vxMaskOp (vxImm w) ((x.pr (vxVs1 w)).getLsbD i) ((x.pr (vxVs2 w)).getLsbD i)
        else old && !(vxMz w)) := by
  refine vxMaskly_of_setP (g := fun w _ x => vxPlog x w) (fun _ _ _ => rfl) fun e x w word legal _ => ?_
  refine ⟨pbuild _ 512, _, _, by simp only [vxPlog, word, Bool.true_and, legal]; rfl, ?_⟩
  intro i hi
  simp only [getLsbD_pbuild _ _ hi, hi, decide_true, Bool.true_and]

/-- VX.CBGM writes whether the dropout value of an element reaches the limit to VD below VL and clears the bits from
VL on (R176). -/
theorem vxMaskly_vxCbgm :
    vxMaskly .vxCbgm (fun _ => 8) (fun _ _ w => decide (vxVd w ≤ 7))
      (fun e x w i => decide (i < x.vl) && x.act w i && decide ((x.s (vxVs3 w)).toNat % 2 ^ 16 ≤
        (cbg16 e.key ((x.s (vxVs1 w)).truncate 32) e.step 1 (flatIndex (x.s (vxVs2 w)) i)).toNat)) := by
  refine vxMaskly_of_setP (g := fun w e x => vxCbgm e x w) (fun _ _ _ => rfl) fun e x w word legal _ => ?_
  refine ⟨pbuild _ x.vl, _, _, by simp only [vxCbgm, word, Bool.true_and, legal]; rfl, ?_⟩
  intro i hi
  simp only [getLsbD_pbuild _ _ hi, Bool.and_assoc]

/-- Settles O13: each of the three words writes the mask register VD alone, with the bits that `pbuild` sets. -/
theorem vxMaskResults : Obligations.VxMaskResults :=
  ⟨vxMaskly_vxCmp, vxMaskly_vxPlog, vxMaskly_vxCbgm⟩

end Sys2Proof.Machine
end

section
/-!
SUPPORT. What a write of a register field leaves of the other fields, what a mailbox command finds of the state in which
it was consumed, and what the replica, digest, tolerance and cap commands write (R419, R522, R541, R554, R555).
-/

namespace Sys2Proof.Machine

/-! ### Numbers in bytes -/

theorem leNat_lt (l : List Byte) : leNat l < 256 ^ l.length := by
  induction l with
  | nil => simp [leNat]
  | cons b l ih =>
    have hb : b.toNat < 256 := b.isLt
    rw [leNat, List.length_cons, pow_succ]
    omega

theorem length_slice (l : List Byte) (o n : Nat) : (slice l o n).length = n := by
  simp only [slice, List.length_append, List.length_replicate, List.length_take]
  omega

theorem field_lt (l : List Byte) (o n : Nat) : field l o n < 256 ^ n := by
  simpa only [field, length_slice] using leNat_lt (slice l o n)

/-! ### Register fields -/

/-- A register field reads what was written to it, cut to its width. -/
theorem State.setField_regField_self (s : State) {a hi lo : Nat} (v : Nat) (hle : lo ≤ hi) (hlt : hi < 64) :
    (s.setField a hi lo v).regField a hi lo = v % 2 ^ (hi + 1 - lo) := by
  have cut : putBits (s.reg a) hi lo v = putBits (s.reg a) hi lo (v % 2 ^ (hi + 1 - lo)) := by
    simp [putBits]
  rw [State.regField, State.setField_reg_self, cut, bits_putBits_self _ hle hlt (Nat.mod_lt _ (Nat.two_pow_pos _))]

/-- A write of a register field leaves the fields of other registers, and of the same one above and below it, alone. -/
theorem State.setField_regField_apart (s : State) {a b hi lo hi' lo' : Nat} (v : Nat) (hle : lo ≤ hi) (hlt : hi < 64)
    (h : b ≠ a ∨ hi' < lo ∨ hi < lo') : (s.setField a hi lo v).regField b hi' lo' = s.regField b hi' lo' := by
  by_cases hab : b = a
  · subst hab
    rw [State.regField, State.setField_reg_self]
    exact bits_congr fun k hk hk' => (getLsbD_putBits _ hle hlt v k).trans (if_pos (by omega))
  · rw [State.regField, State.setField_reg_ne s _ _ _ hab, State.regField]

/-- Registers of region 4 of two dies, or at two offsets, are two registers. -/
theorem regGa_ne {d e o o' : Nat} (ho : o < 2 ^ 30) (ho' : o' < 2 ^ 30) (h : d ≠ e ∨ o ≠ o') : regGa d o ≠ regGa e o' := by
  simp only [regGa]
  omega

/-- A register of FD0 is neither of the two at another offset that FD0 and FD1 hold alike. -/
theorem regGa_ne_both {o off : Nat} (ho : o < 2 ^ 30) (hoff : off < 2 ^ 30) (h : o ≠ off) :
    regGa 48 o ≠ regGa 48 off ∧ regGa 48 o ≠ regGa 49 off :=
  ⟨regGa_ne ho hoff (.inr h), regGa_ne ho hoff (.inl (by decide))⟩

theorem State.setField_memory (s : State) (a hi lo v : Nat) : memorySame s (s.setField a hi lo v) := s.setReg_memory a _

theorem State.setBoth_memory (s : State) (off hi lo v : Nat) : memorySame s (s.setBoth off hi lo v) :=
  memorySame_trans (s.setField_memory _ _ _ _) (State.setField_memory _ _ _ _ _)

@[simp] theorem State.setBoth_pwr (s : State) (off hi lo v : Nat) : (s.setBoth off hi lo v).pwr = s.pwr :=
  (State.setField_pwr ..).trans (State.setField_pwr ..)

/-- A field of the registers that FD0 and FD1 hold alike reads on both what was written. -/
theorem State.setBoth_regField_self (s : State) {f off hi lo : Nat} (v : Nat) (hf : f < 2) (hle : lo ≤ hi) (hlt : hi < 64) :
    (s.setBoth off hi lo v).regField (regGa (48 + f) off) hi lo = v % 2 ^ (hi + 1 - lo) := by
  obtain rfl | rfl : f = 0 ∨ f = 1 := by omega
  · have ne : regGa 48 off ≠ regGa 49 off := by simp only [regGa]; omega
    rw [State.setBoth, State.setField_regField_apart _ _ hle hlt (.inl ne),
      State.setField_regField_self _ _ hle hlt]
  · rw [State.setBoth, State.setField_regField_self _ _ hle hlt]

/-- A write to the registers that FD0 and FD1 hold alike leaves the fields that are apart from it alone. -/
theorem State.setBoth_regField_apart (s : State) {b off hi lo hi' lo' : Nat} (v : Nat) (hle : lo ≤ hi) (hlt : hi < 64)
    (h : (b ≠ regGa 48 off ∧ b ≠ regGa 49 off) ∨ hi' < lo ∨ hi < lo') :
    (s.setBoth off hi lo v).regField b hi' lo' = s.regField b hi' lo' := by
  rw [State.setBoth, State.setField_regField_apart _ _ hle hlt (h.imp_left And.right),
    State.setField_regField_apart _ _ hle hlt (h.imp_left And.left)]

/-! ### Folds over units -/

/-- A fold over a list of units makes a property of each unit true when each step makes it true of its own unit and
leaves it true of the others. -/
theorem foldl_establishes {β : Type} {P : State → β → Prop} {f : State → β → State}
    (own : ∀ s b, P (f s b) b) (others : ∀ s b c, c ≠ b → P s c → P (f s b) c) {l : List β} {b : β} (hb : b ∈ l)
    (s : State) : P (l.foldl f s) b := by
  induction l generalizing s with
  | nil => cases hb
  | cons c l ih =>
    by_cases hl : b ∈ l
    · exact ih hl _
    · obtain rfl : b = c := (List.mem_cons.mp hb).resolve_right hl
      refine List.foldlRecOn (motive := fun s => P s b) l f (own s b) fun t ht d hd => ?_
      exact others t d b (fun e => hl (e ▸ hd)) ht

/-! ### The state in which a mailbox command is consumed -/

/-- Consuming a command changes mailboxes, but not whose they are, and of firmware the sessions and the signatures'
counter (R487, R490). -/
theorem State.mbxTaken_eq (s : State) (r : MbxRow) (c : MbxCmd) : ∃ mb ss mc,
    s.mbxTaken r c = { s with mboxes := mb, fw := { s.fw with sessions := ss, mCounter := mc } } ∧
      ∀ m, (mapGet MboxSt.reset mb m).ctx = (s.mbox m).ctx := by
  have take : ∃ mb, s.mbxTake c r.code = { s with mboxes := mb } ∧
      ∀ m, (mapGet MboxSt.reset mb m).ctx = (s.mbox m).ctx := by
    unfold State.mbxTake
    split
    · refine ⟨_, rfl, fun m => ?_⟩
      by_cases hm : m = c.mb.val
      · rw [hm, mapGet_mapSet_self]
      · rw [mapGet_mapSet_ne _ _ _ _ hm, State.mbox]
    · exact ⟨s.mboxes, rfl, fun _ => rfl⟩
  obtain ⟨mb, hmb, hctx⟩ := take
  have eat : ∃ ss, s.mbxEat r c = { s with mboxes := mb, fw := { s.fw with sessions := ss } } := by
    unfold State.mbxEat
    dsimp only
    rw [hmb]
    split
    · exact ⟨_, rfl⟩
    · exact ⟨s.fw.sessions, rfl⟩
  obtain ⟨ss, hss⟩ := eat
  unfold State.mbxTaken
  dsimp only
  rw [hss]
  split
  · exact ⟨mb, ss, _, rfl, hctx⟩
  · exact ⟨mb, ss, s.fw.mCounter, rfl, hctx⟩

@[simp] theorem State.mbxTaken_regs (s : State) (r : MbxRow) (c : MbxCmd) : (s.mbxTaken r c).regs = s.regs := by
  obtain ⟨mb, ss, mc, h, -⟩ := s.mbxTaken_eq r c
  rw [h]
@[simp] theorem State.mbxTaken_doms (s : State) (r : MbxRow) (c : MbxCmd) : (s.mbxTaken r c).doms = s.doms := by
  obtain ⟨mb, ss, mc, h, -⟩ := s.mbxTaken_eq r c
  rw [h]
@[simp] theorem State.mbxTaken_pwr (s : State) (r : MbxRow) (c : MbxCmd) : (s.mbxTaken r c).pwr = s.pwr := by
  obtain ⟨mb, ss, mc, h, -⟩ := s.mbxTaken_eq r c
  rw [h]
@[simp] theorem State.mbxTaken_images (s : State) (r : MbxRow) (c : MbxCmd) : (s.mbxTaken r c).fw.images = s.fw.images := by
  obtain ⟨mb, ss, mc, h, -⟩ := s.mbxTaken_eq r c
  rw [h]
@[simp] theorem State.mbxTaken_policy (s : State) (r : MbxRow) (c : MbxCmd) : (s.mbxTaken r c).fw.policy = s.fw.policy := by
  obtain ⟨mb, ss, mc, h, -⟩ := s.mbxTaken_eq r c
  rw [h]

theorem State.mbxTaken_memory (s : State) (r : MbxRow) (c : MbxCmd) : memorySame s (s.mbxTaken r c) := by
  obtain ⟨mb, ss, mc, h, -⟩ := s.mbxTaken_eq r c
  rw [h]
  exact ⟨rfl, rfl, rfl⟩

@[simp] theorem State.mbxTaken_dom (s : State) (r : MbxRow) (c : MbxCmd) (d : Fin 2) :
    (s.mbxTaken r c).dom d = s.dom d := by
  rw [State.dom, State.mbxTaken_doms, State.dom]

@[simp] theorem State.mbxTaken_regField (s : State) (r : MbxRow) (c : MbxCmd) (a hi lo : Nat) :
    (s.mbxTaken r c).regField a hi lo = s.regField a hi lo := by
  rw [State.regField, State.reg, State.mbxTaken_regs, State.regField, State.reg]

/-- Consuming a command leaves whose its mailbox is. -/
@[simp] theorem State.mbxTaken_mboxCtx (s : State) (r : MbxRow) (c : MbxCmd) (m : Nat) :
    (s.mbxTaken r c).mboxCtx m = s.mboxCtx m := by
  obtain ⟨mb, ss, mc, h, hctx⟩ := s.mbxTaken_eq r c
  rw [h]
  simp only [State.mboxCtx, ← hctx]
  rfl

/-- Consuming a command leaves the job that REPLICA_SET is for (log entry 47). -/
@[simp] theorem State.mbxTaken_replicaDom (s : State) (r : MbxRow) (c : MbxCmd) :
    (s.mbxTaken r c).replicaDom c = s.replicaDom c := by
  simp only [State.replicaDom, State.slotOf, State.mbxTaken_mboxCtx, State.mbxTaken_dom]

/-! ### Answers of mailbox commands -/

/-- A command with a good payload whose own part completes with a status, RESULT and payload answers with these. -/
theorem mbxAnswers_of_done {s : State} {i cmd : Instr} {r : MbxRow} {c : MbxCmd} {job : State → Option (Fin 2)}
    {bad : State → Bool} {act : State → MbxAns × State} {st : Nat} {res resp : List Byte} {x : State}
    {post : State → State → Prop} (runs : exec i s = .next (s.mbxRun r c cmd job bad act)) (hb : bad s = false)
    (hact : act (s.mbxTaken r c) = (.done st res resp, x)) (hpost : post (s.mbxTaken r c) x) :
    mbxAnswers s i r c (job s) st res resp post := fun goes =>
  ⟨x, by rw [runs, State.mbxRun_of_goes goes cmd hb act, hact], hpost⟩

/-- A command with a bad payload answers BAD_ARG and has no effect (R492). -/
theorem mbxAnswers_of_bad {s : State} {i cmd : Instr} {r : MbxRow} {c : MbxCmd} {job : State → Option (Fin 2)}
    {bad : State → Bool} {act : State → MbxAns × State} (runs : exec i s = .next (s.mbxRun r c cmd job bad act))
    (hb : bad s = true) : mbxAnswers s i r c (job s) 4 [] [] unchanged := fun goes =>
  ⟨s.mbxTaken r c, by rw [runs, State.mbxRun_of_bad goes cmd hb act], rfl⟩

/-! ### REPLICA_SET -/

/-- The digest registers of a fabric die hold what REPLICA_SET's payload says (R522). -/
def State.digestRegsOf (s : State) (p : List Byte) (f : Nat) : Prop :=
  s.regField (ueReg f 0x10) 52 41 = field p 4 2 ∧ s.regField (ueReg f 0x10) 40 33 = field p 6 1 ∧
    s.regField (ueReg f 0x10) 32 21 = field p 2 2 ∧ s.regField (ueReg f 0x18) 63 48 = field p 16 2 ∧
    s.regField (ueReg f 0x18) 39 0 = field p 8 8

/-- The digest registers of a fabric die written from REPLICA_SET's payload. -/
def State.setDigestRegs (p : List Byte) (s : State) (f : Nat) : State :=
  let a := ueReg f 0x10
  let s := ((s.setField a 52 41 (field p 4 2)).setField a 40 33 (field p 6 1)).setField a 32 21 (field p 2 2)
  let b := ueReg f 0x18
  (s.setField b 63 48 (field p 16 2)).setField b 39 0 (field p 8 8)

/-- V of a layer's descriptor written by whether REPLICA_SET lists the layer. -/
def State.setListed (ids : List Nat) (s : State) (e : Nat × Nat) : State :=
  s.setField (ldReg e.1 e.2 0) 63 63 (if ids.contains (s.ld e.1 e.2 0 31 0) then 1 else 0)

/-- The layers that REPLICA_SET lists. -/
def replicaIds (p : List Byte) : List Nat := (List.range (field p 20 2)).map fun i => field p (32 + 4 * i) 4

/-- The digest registers of every fabric die written. -/
def State.setAllDigestRegs (s : State) (p : List Byte) : State := (List.range 4).foldl (State.setDigestRegs p) s

/-- The number of active replicas recorded. -/
def State.setNrepl (s : State) (n : Nat) : State := { s with fw := { s.fw with nrepl := n } }

theorem State.setNrepl_memory (s : State) (n : Nat) : memorySame s (s.setNrepl n) := ⟨rfl, rfl, rfl⟩

theorem State.setNrepl_digestRegsOf (s : State) (n : Nat) (p : List Byte) (f : Nat) :
    (s.setNrepl n).digestRegsOf p f ↔ s.digestRegsOf p f := Iff.rfl

/-- Replica settings write the digest registers, then V of the job's layers, then the number of replicas (R522). -/
theorem State.replicaApply_eq (s : State) (d : Fin 2) (p : List Byte) :
    s.replicaApply d p = ((mapGet JobInfo.reset (s.setAllDigestRegs p).fw.jobs d.val).layers.foldl
      (State.setListed (replicaIds p)) (s.setAllDigestRegs p)).setNrepl (field p 0 2) := rfl

/-- The digest registers of a fabric die depend on two registers alone. -/
theorem State.digestRegsOf_congr {s t : State} {p : List Byte} {f : Nat} (h10 : t.reg (ueReg f 0x10) = s.reg (ueReg f 0x10))
    (h18 : t.reg (ueReg f 0x18) = s.reg (ueReg f 0x18)) (h : s.digestRegsOf p f) : t.digestRegsOf p f := by
  simpa only [State.digestRegsOf, State.regField, h10, h18] using h

/-- A payload in order fits the fields of the digest registers. -/
theorem replicaBad_fits {c : MbxCmd} (h : replicaBad c = false) :
    field c.payload 2 2 < 2 ^ 12 ∧ field c.payload 4 2 < 2 ^ 12 ∧ field c.payload 8 8 < 2 ^ 40 := by
  simp only [replicaBad, Bool.or_eq_false_iff, decide_eq_false_iff_not, not_or] at h
  omega

/-- The values of a payload in order stand in the digest registers once these are written. -/
theorem State.setDigestRegs_own {c : MbxCmd} (h : replicaBad c = false) (s : State) (f : Nat) :
    (s.setDigestRegs c.payload f).digestRegsOf c.payload f := by
  obtain ⟨rep, lead, ga⟩ := replicaBad_fits h
  have gen := field_lt c.payload 6 1
  have dsync := field_lt c.payload 16 2
  have two : ueReg f 0x10 ≠ ueReg f 0x18 := regGa_ne (by decide) (by decide) (.inr (by decide))
  refine ⟨?_, ?_, ?_, ?_, ?_⟩
  all_goals
    simp only [State.setDigestRegs]
    simp +decide [State.setField_regField_self, State.setField_regField_apart, two]
    omega

theorem ueReg_ne {f g o o' : Nat} (h : f ≠ g) (ho : o < 0x10000) (ho' : o' < 0x10000) : ueReg f o ≠ ueReg g o' :=
  regGa_ne (by omega) (by omega) (by omega)

/-- Writing one fabric die's digest registers leaves another's alone. -/
theorem State.setDigestRegs_other {p : List Byte} (s : State) (f g : Nat) (h : g ≠ f) (hg : s.digestRegsOf p g) :
    (s.setDigestRegs p f).digestRegsOf p g := by
  have kept {o : Nat} (ho : o < 0x10000) : (s.setDigestRegs p f).reg (ueReg g o) = s.reg (ueReg g o) := by
    simp [State.setDigestRegs, State.setField_reg_ne, ueReg_ne h ho]
  exact State.digestRegsOf_congr (kept (by decide)) (kept (by decide)) hg

/-- V of a layer lies in no digest register: descriptors begin at multiples of 0x80. -/
theorem State.setListed_digestRegs {ids : List Nat} {p : List Byte} {f : Nat} (s : State) (e : Nat × Nat)
    (h : s.digestRegsOf p f) : (s.setListed ids e).digestRegsOf p f := by
  refine State.digestRegsOf_congr (State.setField_reg_ne s _ _ _ ?_) (State.setField_reg_ne s _ _ _ ?_) h
  all_goals
    simp only [ldReg, ueReg, regGa]
    omega

theorem State.setDigestRegs_memory (s : State) (p : List Byte) (f : Nat) : memorySame s (s.setDigestRegs p f) := by
  have write (t : State) (a hi lo v : Nat) (h : memorySame s t) := memorySame_trans h (t.setField_memory a hi lo v)
  exact write _ _ _ _ _ (write _ _ _ _ _ (write _ _ _ _ _ (write _ _ _ _ _ (s.setField_memory ..))))

theorem State.replicaApply_memory (s : State) (d : Fin 2) (p : List Byte) : memorySame s (s.replicaApply d p) := by
  have digests : memorySame s (s.setAllDigestRegs p) := memorySame_foldl _ (fun t f => t.setDigestRegs_memory p f) _ s
  have listed (ls : List (Nat × Nat)) (t : State) : memorySame t (ls.foldl (State.setListed (replicaIds p)) t) :=
    memorySame_foldl _ (fun t e => t.setField_memory ..) ls t
  rw [State.replicaApply_eq]
  exact memorySame_trans digests (memorySame_trans (listed _ _) (State.setNrepl_memory _ _))

@[simp] theorem State.replicaApply_nrepl (s : State) (d : Fin 2) (p : List Byte) :
    (s.replicaApply d p).fw.nrepl = field p 0 2 := by
  rw [State.replicaApply_eq, State.setNrepl]

/-- The replica settings stand on every fabric die once they are applied (R522). -/
theorem State.replicaApply_digestRegs {c : MbxCmd} (h : replicaBad c = false) (s : State) (d : Fin 2) {f : Nat}
    (hf : f < 4) : (s.replicaApply d c.payload).digestRegsOf c.payload f := by
  have written : (s.setAllDigestRegs c.payload).digestRegsOf c.payload f :=
    foldl_establishes (P := fun t f => t.digestRegsOf c.payload f) (State.setDigestRegs_own h)
      State.setDigestRegs_other (List.mem_range.mpr hf) s
  have kept (ls : List (Nat × Nat)) : (ls.foldl (State.setListed (replicaIds c.payload))
      (s.setAllDigestRegs c.payload)).digestRegsOf c.payload f :=
    List.foldlRecOn (motive := fun t : State => t.digestRegsOf c.payload f) ls _ written
      fun t ht e _ => t.setListed_digestRegs e ht
  rw [State.replicaApply_eq, State.setNrepl_digestRegsOf]
  exact kept _

/-- REPLICA_SET of a started job keeps its settings to the end of the hold (R522). -/
theorem replicaSet_of_started {s : State} {c : MbxCmd} {d : Fin 2} (hd : s.replicaDom c = some d)
    (hb : replicaBad c = false) (hs : (s.dom d).started = true) :
    mbxAnswers s (.replicaSet c) rowReplicaSet c (some d) 0 [] [] fun y x =>
      (x.dom d).replica = some c.payload ∧ x.regs = y.regs ∧ memorySame s x := by
  rw [← hd]
  refine mbxAnswers_of_done (job := fun s => s.replicaDom c) rfl hb (x := (s.mbxTaken rowReplicaSet c).setDom d
    { s.dom d with replica := some c.payload }) ?_ ⟨?_, rfl, s.mbxTaken_memory rowReplicaSet c⟩
  · simp [State.replicaAct, hd, hs]
  · simp

/-- REPLICA_SET of a job that has not started takes effect at once (R522). -/
theorem replicaSet_of_not_started {s : State} {c : MbxCmd} {d : Fin 2} (hd : s.replicaDom c = some d)
    (hb : replicaBad c = false) (hs : (s.dom d).started = false) :
    mbxAnswers s (.replicaSet c) rowReplicaSet c (some d) 0 [] [] fun _ x =>
      x.fw.nrepl = field c.payload 0 2 ∧ memorySame s x ∧ ∀ f, f < 4 → x.digestRegsOf c.payload f := by
  rw [← hd]
  refine mbxAnswers_of_done (job := fun s => s.replicaDom c) rfl hb (x := (s.mbxTaken rowReplicaSet c).replicaApply d
    c.payload) ?_ ⟨State.replicaApply_nrepl .., memorySame_trans (s.mbxTaken_memory rowReplicaSet c)
      (State.replicaApply_memory ..), fun f hf => State.replicaApply_digestRegs hb _ d hf⟩
  simp [State.replicaAct, hd, hs]

/-- REPLICA_SET where no job is loaded is out of order (log entry 47). -/
theorem replicaSet_of_no_job {s : State} {c : MbxCmd} (hd : s.replicaDom c = none) (hb : replicaBad c = false) :
    mbxAnswers s (.replicaSet c) rowReplicaSet c none 4 [] [] unchanged := by
  rw [← hd]
  refine mbxAnswers_of_done (job := fun s => s.replicaDom c) rfl hb (x := s.mbxTaken rowReplicaSet c) ?_ rfl
  simp [State.replicaAct, hd]

/-! ### DIGEST_POLICY -/

theorem State.setDigestN_memory (s : State) (n : Nat) : memorySame s (s.setDigestN n) :=
  memorySame_foldl _ (fun t _ => t.setField_memory ..) _ s

@[simp] theorem State.setDigestN_fw (s : State) (n : Nat) : (s.setDigestN n).fw = s.fw :=
  List.foldlRecOn (motive := fun t : State => t.fw = s.fw) _ _ rfl fun t h _ _ => (t.setField_fw ..).trans h

/-- N of every fabric die is the interval written, which fits its 11 bits (R419). -/
theorem State.setDigestN_regField (s : State) {n f : Nat} (hn : n ≤ 1024) (hf : f < 4) :
    (s.setDigestN n).regField (ueReg f 0x10) 63 53 = n := by
  refine foldl_establishes (P := fun t f => t.regField (ueReg f 0x10) 63 53 = n) (fun t f => ?_) (fun t f g hg h => ?_)
    (List.mem_range.mpr hf) s
  · rw [State.setField_regField_self _ _ (by decide) (by decide), Nat.mod_eq_of_lt (by omega)]
  · rw [State.setField_regField_apart _ _ (by decide) (by decide) (.inl (ueReg_ne hg (by decide) (by decide))), h]

/-- DIGEST_POLICY while a domain runs waits for the end of the step (Table 14.9). -/
theorem digestPolicy_of_started {s : State} {c : MbxCmd} (hp : payloadOk c.payload 64 [(2, 62)] = true)
    (hn : field c.payload 0 2 ≤ 1024) (hs : (s.dom 0).started = true ∨ (s.dom 1).started = true) :
    mbxAnswers s (.digestPolicy c) rowDigestPolicy c none 0 [] [] fun y x =>
      x = { y with fw := { y.fw with policy := some (field c.payload 0 2) } } := by
  refine mbxAnswers_of_done (job := noJob) rfl (by simp [hp, hn]) ?_ rfl
  simp [State.policyAct, hs]

/-- DIGEST_POLICY while no domain runs sets N at once (Table 14.9). -/
theorem digestPolicy_of_not_started {s : State} {c : MbxCmd} (hp : payloadOk c.payload 64 [(2, 62)] = true)
    (hn : field c.payload 0 2 ≤ 1024) (h0 : (s.dom 0).started = false) (h1 : (s.dom 1).started = false) :
    mbxAnswers s (.digestPolicy c) rowDigestPolicy c none 0 [] [] fun _ x =>
      memorySame s x ∧ x.fw.policy = s.fw.policy ∧
        ∀ f, f < 4 → x.regField (ueReg f 0x10) 63 53 = field c.payload 0 2 := by
  refine mbxAnswers_of_done (job := noJob) rfl (by simp [hp, hn])
    (x := (s.mbxTaken rowDigestPolicy c).setDigestN (field c.payload 0 2)) ?_
    ⟨memorySame_trans (s.mbxTaken_memory _ c) (State.setDigestN_memory ..), by simp,
      fun f hf => State.setDigestN_regField _ hn hf⟩
  simp [State.policyAct, h0, h1]

/-! ### SET_LAT_TOL -/

/-- Only MBX0 sets a tolerance of the module (R554). -/
theorem setLatTol_of_module_denied {s : State} {c : MbxCmd} (hb : tolBad c = false) (hm : field c.payload 0 1 = 0)
    (h0 : c.mb ≠ 0) : mbxAnswers s (.setLatTol c) rowSetLatTol c none 5 [] [] unchanged := by
  refine mbxAnswers_of_done (job := noJob) rfl hb (x := s.mbxTaken rowSetLatTol c) ?_ rfl
  simp [State.tolAct, hm, h0]

/-- The module's tolerance and whether it permits loss, in PWR_TOL (Table 15.12). -/
def State.setModuleTol (s : State) (tol loss : Nat) : State := (s.setBoth 0x130020 63 32 tol).setBoth 0x130020 31 31 loss

theorem State.setModuleTol_regField (s : State) {tol loss f : Nat} (ht : tol < 2 ^ 32) (hl : loss ≤ 1) (hf : f < 2) :
    (s.setModuleTol tol loss).regField (regGa (48 + f) 0x130020) 63 32 = tol ∧
      (s.setModuleTol tol loss).regField (regGa (48 + f) 0x130020) 31 31 = loss := by
  constructor
  · rw [State.setModuleTol, State.setBoth_regField_apart _ _ (by decide) (by decide) (.inr (.inr (by decide))),
      State.setBoth_regField_self _ _ hf (by decide) (by decide), Nat.mod_eq_of_lt ht]
  · rw [State.setModuleTol, State.setBoth_regField_self _ _ hf (by decide) (by decide), Nat.mod_eq_of_lt (by omega)]

/-- MBX0 sets the module's tolerance and is answered the deepest state that any die now reaches (R554). -/
theorem setLatTol_of_module {s : State} {c : MbxCmd} (hb : tolBad c = false) (hm : field c.payload 0 1 = 0)
    (h0 : c.mb = 0) : ∃ k, mbxAnswers s (.setLatTol c) rowSetLatTol c none 0 (leBytes 1 k) [] fun _ x =>
      k = x.deepest (List.range 48) ∧ (∀ f, f < 2 → x.regField (regGa (48 + f) 0x130020) 63 32 = field c.payload 4 4 ∧
        x.regField (regGa (48 + f) 0x130020) 31 31 = field c.payload 1 1) ∧ memorySame s x := by
  have loss : field c.payload 1 1 ≤ 1 := by
    simp only [tolBad, Bool.or_eq_false_iff, decide_eq_false_iff_not, not_or] at hb
    omega
  have tol : field c.payload 4 4 < 2 ^ 32 := field_lt c.payload 4 4
  have bit : (if field c.payload 1 1 = 1 then 1 else 0) = field c.payload 1 1 := by split <;> omega
  refine ⟨_, mbxAnswers_of_done (job := noJob) rfl hb
    (x := (s.mbxTaken rowSetLatTol c).setModuleTol (field c.payload 4 4) (field c.payload 1 1)) ?_
    ⟨rfl, fun f hf => State.setModuleTol_regField _ tol loss hf, ?_⟩⟩
  · simp [State.tolAct, State.setModuleTol, hm, h0, bit]
  · exact memorySame_trans (s.mbxTaken_memory _ c)
      (memorySame_trans (State.setBoth_memory ..) (State.setBoth_memory ..))

/-- The tolerance of a context and whether it permits loss, recorded (R554). -/
def State.setCtxTol (s : State) (ctx : CtxId) (tol : Nat) (loss : Bool) : State :=
  { s with fw := { s.fw with tols := mapSet none s.fw.tols ctx.val (some (tol, loss)) } }

theorem State.setCtxTol_tols (s : State) (ctx : CtxId) (tol : Nat) (loss : Bool) :
    mapGet none (s.setCtxTol ctx tol loss).fw.tols ctx.val = some (tol, loss) := by
  rw [State.setCtxTol, mapGet_mapSet_self]

/-- A context's tolerance is recorded for the context, which is answered the deepest state of its dies (R554). -/
theorem setLatTol_of_context {s : State} {c : MbxCmd} (hb : tolBad c = false) (hm : field c.payload 0 1 = 1) :
    ∃ k, mbxAnswers s (.setLatTol c) rowSetLatTol c none 0 (leBytes 1 k) [] fun y x =>
      k = x.deepest (x.diesOf (Fin.ofNat 64 c.hdr.ctx.toNat)) ∧
      mapGet none x.fw.tols (Fin.ofNat 64 c.hdr.ctx.toNat : CtxId).val =
        some (field c.payload 4 4, decide (field c.payload 1 1 = 1)) ∧ x.regs = y.regs ∧ memorySame s x := by
  refine ⟨_, mbxAnswers_of_done (job := noJob) rfl hb
    (x := (s.mbxTaken rowSetLatTol c).setCtxTol (Fin.ofNat 64 c.hdr.ctx.toNat) (field c.payload 4 4)
      (decide (field c.payload 1 1 = 1))) ?_
    ⟨rfl, State.setCtxTol_tols .., rfl, s.mbxTaken_memory rowSetLatTol c⟩⟩
  simp only [State.tolAct, State.setCtxTol, hm, one_ne_zero, if_false]

/-! ### SET_POWER_CAP -/

theorem State.free_memory (s : State) : memorySame s s.free.2 := ⟨rfl, rfl, rfl⟩

/-- Memory, the power state and the registers of the fabric dies are as before. -/
def throttleOnly (s t : State) : Prop :=
  memorySame s t ∧ t.pwr = s.pwr ∧ ∀ a, regGa 48 0 ≤ a → t.reg a = s.reg a

/-- Firmware throttles tiles by registers of the compute dies (R542). -/
theorem State.throttleSome_throttleOnly (s : State) (p : State → TileId → Bool) : throttleOnly s (s.throttleSome p) := by
  refine List.foldlRecOn (motive := fun t : State => throttleOnly s t) _ _ ⟨memorySame_refl s, rfl, fun _ _ => rfl⟩
    fun t ht k _ => ?_
  obtain ⟨hmem, hpwr, hreg⟩ := ht
  dsimp only
  split
  · exact ⟨hmem, hpwr, hreg⟩
  · refine ⟨memorySame_trans hmem (memorySame_trans t.free_memory (State.setField_memory ..)),
      (State.setField_pwr ..).trans hpwr, fun a ha => (State.setField_reg_ne _ _ _ _ ?_).trans (hreg a ha)⟩
    have below : tileDie (tileOf k) < 48 := by have := (tileOf k).isLt; simp only [tileDie]; omega
    have idx : tileIdx (tileOf k) < 12 := Nat.mod_lt _ (by decide)
    simp only [regGa] at ha ⊢
    omega

theorem State.showLevel_memory (s : State) : memorySame s s.showLevel := State.setBoth_memory ..

@[simp] theorem State.showLevel_pwr (s : State) : s.showLevel.pwr = s.pwr := State.setBoth_pwr ..

theorem State.bumpBoth_memory (s : State) (off n : Nat) : memorySame s (s.bumpBoth off n) :=
  State.bump_memory_of (s.bump_memory _ n) _ n

theorem State.showLevel_capNow (s : State) : s.showLevel.capNow = s.capNow :=
  State.setBoth_regField_apart _ _ (by decide) (by decide)
    (.inl (regGa_ne_both (by decide) (by decide) (by decide)))

theorem State.bumpBoth_capNow (s : State) (n : Nat) : (s.bumpBoth 0x130400 n).capNow = s.capNow := by
  obtain ⟨ne0, ne1⟩ : regGa 48 0x130008 ≠ regGa 48 0x130400 ∧ regGa 48 0x130008 ≠ regGa 49 0x130400 :=
    regGa_ne_both (by decide) (by decide) (by decide)
  rw [State.capNow, State.regField, State.bumpBoth, State.bump_reg_ne _ _ ne1, State.bump_reg_ne _ _ ne0, State.capNow,
    State.regField]

/-- The level shown on an entry to E1, before firmware throttles anything (Table 15.4). -/
def State.showE1 (s : State) : State :=
  (({ s with pwr := { s.pwr with e1 := true } } : State).bumpBoth 0x130400 1).showLevel

theorem State.showE1_frame (s : State) : memorySame s s.showE1 ∧ s.showE1.pwr.e1 = true ∧ s.showE1.capNow = s.capNow := by
  have marked : memorySame s { s with pwr := { s.pwr with e1 := true } } := ⟨rfl, rfl, rfl⟩
  refine ⟨memorySame_trans marked (memorySame_trans (State.bumpBoth_memory ..) (State.showLevel_memory _)), ?_, ?_⟩
  · simp [State.showE1, State.bumpBoth]
  · rw [State.showE1, State.showLevel_capNow, State.bumpBoth_capNow]
    rfl

theorem State.enterE1_eq (s : State) :
    s.enterE1 = if s.showE1.fwActs then s.showE1.throttleSome fun s t => !(s.inStatic t) else s.showE1 := rfl

/-- An entry to E1 touches neither memory nor the cap (Table 15.4). -/
theorem State.enterE1_frame (s : State) :
    memorySame s s.enterE1 ∧ s.enterE1.pwr.e1 = true ∧ s.enterE1.capNow = s.capNow := by
  obtain ⟨hmem, he1, hcap⟩ := s.showE1_frame
  rw [State.enterE1_eq]
  split
  · obtain ⟨tmem, tpwr, treg⟩ := s.showE1.throttleSome_throttleOnly fun s t => !(s.inStatic t)
    refine ⟨memorySame_trans hmem tmem, (congrArg (·.e1) tpwr).trans he1, ?_⟩
    rw [← hcap, State.capNow, State.regField, treg _ (by simp only [regGa]; omega), State.capNow, State.regField]
  · exact ⟨hmem, he1, hcap⟩

/-- A cap above PCAP_MAX is denied (R555). -/
theorem setPowerCap_of_above {s : State} {c : MbxCmd} (hp : payloadOk c.payload 8 [(4, 4)] = true)
    (hlow : 8000 ≤ field c.payload 0 4) (hhigh : (s.fw.images.map (·.pcapMax)).getD 0 < field c.payload 0 4) :
    mbxAnswers s (.setPowerCap c) rowSetPowerCap c none 5 [] [] unchanged := by
  refine mbxAnswers_of_done (job := noJob) rfl (by simp [hp, hlow]) (x := s.mbxTaken rowSetPowerCap c) ?_ rfl
  simp [State.capAct, hhigh]

/-- The cap written on both fabric dies (R541). -/
def State.setCap (s : State) (cap : Nat) : State := s.setBoth 0x130008 15 0 cap

@[simp] theorem State.setCap_pwr (s : State) (cap : Nat) : (s.setCap cap).pwr = s.pwr := s.setBoth_pwr ..

theorem State.setCap_memory (s : State) (cap : Nat) : memorySame s (s.setCap cap) := s.setBoth_memory ..

theorem State.setCap_capNow (s : State) (cap : Nat) : (s.setCap cap).capNow = cap % 65536 :=
  State.setBoth_regField_self s (f := 0) _ (by decide) (by decide) (by decide)

/-- Setting the cap leaves the input power measured alone. -/
theorem State.setCap_inputPower (s : State) (cap : Nat) :
    (s.setCap cap).regField (regGa 48 0x130000) 31 16 = s.regField (regGa 48 0x130000) 31 16 :=
  State.setBoth_regField_apart _ _ (by decide) (by decide)
    (.inl (regGa_ne_both (by decide) (by decide) (by decide)))

/-- A cap up to PCAP_MAX is set, and E1 entered when input power already calls for it (R541, R555). -/
theorem State.capAct_of_allowed {s : State} {c : MbxCmd}
    (h : field c.payload 0 4 ≤ (s.fw.images.map (·.pcapMax)).getD 0) :
    s.capAct c = (.done 0 (leBytes 4 (field c.payload 0 4)) [],
      if !(s.setCap (field c.payload 0 4)).pwr.e1 &&
          decide (95 * field c.payload 0 4 ≤ 100 * (s.setCap (field c.payload 0 4)).regField (regGa 48 0x130000) 31 16)
        then (s.setCap (field c.payload 0 4)).enterE1 else s.setCap (field c.payload 0 4)) := by
  rw [State.capAct]
  exact if_neg h.not_gt

/-- A cap up to PCAP_MAX is set and answered (R541, R545, R555). -/
theorem setPowerCap_of_allowed {s : State} {c : MbxCmd} (hp : payloadOk c.payload 8 [(4, 4)] = true)
    (hlow : 8000 ≤ field c.payload 0 4) (hhigh : field c.payload 0 4 ≤ (s.fw.images.map (·.pcapMax)).getD 0) :
    mbxAnswers s (.setPowerCap c) rowSetPowerCap c none 0 (leBytes 4 (field c.payload 0 4)) [] fun _ x =>
      x.capNow = field c.payload 0 4 % 65536 ∧ memorySame s x ∧
      (s.pwr.e1 = false → x.pwr.e1 = decide (95 * field c.payload 0 4 ≤ 100 * s.regField (regGa 48 0x130000) 31 16)) := by
  have allowed : field c.payload 0 4 ≤ ((s.mbxTaken rowSetPowerCap c).fw.images.map (·.pcapMax)).getD 0 := by
    simpa using hhigh
  have written := memorySame_trans (s.mbxTaken_memory rowSetPowerCap c) (State.setCap_memory _ (field c.payload 0 4))
  refine mbxAnswers_of_done (job := noJob) rfl (by simp [hp, hlow]) (State.capAct_of_allowed allowed) ?_
  simp only [State.setCap_inputPower, State.setCap_pwr, State.mbxTaken_regField, State.mbxTaken_pwr]
  split
  · next enters =>
    obtain ⟨hmem, he1, hcap⟩ := ((s.mbxTaken rowSetPowerCap c).setCap (field c.payload 0 4)).enterE1_frame
    obtain ⟨-, reached⟩ := Bool.and_eq_true_iff.mp enters
    exact ⟨hcap.trans (State.setCap_capNow ..), memorySame_trans written hmem, fun _ => he1.trans reached.symm⟩
  · next stays =>
    refine ⟨State.setCap_capNow .., written, fun he1 => ?_⟩
    simpa [he1] using stays

/-- A cap below 8,000 W is a bad payload (R555). -/
theorem setPowerCap_of_below {s : State} {c : MbxCmd} (hlow : field c.payload 0 4 < 8000) :
    mbxAnswers s (.setPowerCap c) rowSetPowerCap c none 4 [] [] unchanged :=
  mbxAnswers_of_bad (job := noJob) rfl (by simp [hlow])

/-- Settles O44: each command's own part, run on the state in which the command is consumed, writes fields that are
apart from what the clause keeps. -/
theorem replicasTolerancesAndCap : Obligations.ReplicasTolerancesAndCap := by
  intro s c p
  refine ⟨fun d hd hb => ⟨replicaSet_of_started hd hb, fun hs _ => replicaSet_of_not_started hd hb hs⟩,
    replicaSet_of_no_job, fun hp hn => ⟨digestPolicy_of_started hp hn, digestPolicy_of_not_started hp hn⟩,
    fun hb => ⟨setLatTol_of_module_denied hb, setLatTol_of_module hb, setLatTol_of_context hb⟩,
    fun _ => setPowerCap_of_below, fun hp hlow => ⟨setPowerCap_of_above hp hlow, setPowerCap_of_allowed hp hlow⟩⟩

end Sys2Proof.Machine
end

section
/-!
SUPPORT. That a mailbox completion touches no memory, poison or sync word, and a module on which the end of a job that
has not started does: clearing its pins makes room by evicting a reduction entry (R227, R237, R241, R585, log entry 75).
-/

namespace Sys2Proof.Machine

/-! ### Completions and memory -/

theorem State.send_memory (s : State) (o : OutMsg) : memorySame s (s.send o) := ⟨rfl, rfl, rfl⟩

theorem State.setMbox_memory (s : State) (m : Nat) (b : MboxSt) : memorySame s (s.setMbox m b) := ⟨rfl, rfl, rfl⟩

theorem State.mbxBump_memory (s : State) (off : Nat) : memorySame s (s.mbxBump off) := s.bumpBoth_memory _ 1

theorem State.interrupt_memory (s : State) (p : Fin 2) (source ctx vector : Nat) :
    memorySame s (s.interrupt p source ctx vector) :=
  memorySame_trans (s.send_memory _) (State.cclBump_memory ..)

theorem State.mbxAnnounce_memory (s : State) (m : Nat) : memorySame s (s.mbxAnnounce m) :=
  memorySame_trans (s.interrupt_memory ..) (State.setMbox_memory ..)

theorem State.putDone_memory (s : State) (m : Nat) (bytes : List Byte) : memorySame s (s.putDone m bytes) := by
  unfold State.putDone
  extract_lets b n sent counted k
  have written : memorySame s counted := memorySame_trans (s.send_memory _) (sent.setMbox_memory m _)
  exact memorySame_ite (memorySame_trans written (counted.mbxAnnounce_memory m)) written

theorem State.mbxDone_memory (s : State) (m : Nat) (bytes : List Byte) : memorySame s (s.mbxDone m bytes) :=
  memorySame_ite (memorySame_refl s) (memorySame_ite (s.putDone_memory m bytes) (s.setMbox_memory m _))

/-- A completion goes to the companion or into a datagram and touches no memory, poison or sync word (R447, R489). -/
theorem State.complete_memory (s : State) (c : MbxCmd) (code status : Nat) (result resp : List Byte) :
    memorySame s (s.complete c code status result resp) := by
  unfold State.complete
  extract_lets m done wrongState busy told gen out answered _ _ _ datagram _
  have counted (t : State) (p : Prop) [Decidable p] (off : Nat) : memorySame t (if p then t.mbxBump off else t) :=
    memorySame_ite (t.mbxBump_memory off) (memorySame_refl t)
  have counters : memorySame s busy :=
    memorySame_trans (s.mbxBump_memory 0x100) (memorySame_trans (counted ..) (counted ..))
  split
  · have payload : memorySame busy answered := memorySame_ite (memorySame_refl busy) (busy.send_memory _)
    exact memorySame_trans counters (memorySame_trans payload (answered.mbxDone_memory ..))
  · have sends : memorySame busy datagram := busy.send_memory _
    exact memorySame_trans counters sends

/-! ### A drain that writes a reduction entry through -/

/-- JOB_DRAIN of domain id 5, given on MBX0 (Table 14.9). -/
def drainCmd : MbxCmd :=
  ⟨0, ⟨1, 0, 0, 0, 0, 64, 0, 0, 0, 0, 0, 0, 0, 0, 0⟩, 5 :: List.replicate 63 0, [], 0, 0, 0, 0, 0⟩

/-- A full home-cache set on die 0 (R227, R235): in the pinned way a pinned line, in the others lines of normal
priority, the least recently used of which is a reduction entry whose int32 element 0 is 7 (R240). -/
def fullSet : List HcLine :=
  ⟨0, 2 ^ 23, .clean, .pinned⟩ ::
    ((List.range 14).map fun w => ⟨w + 1, 2 ^ 23 + 16384 * (w + 1), .clean, .normal⟩) ++
    [⟨15, 2 ^ 23 + 16384 * 15, .red 0 1 0 7, .normal⟩]

/-- GA of that reduction entry's line. -/
def redGa : Nat := lineGa 0 (2 ^ 23 + 16384 * 15)

/-- An ACTIVE module with a session on MBX0, on which the job in slot 0 runs and the job in slot 1, with domain id 5, is
loaded and has not started. Each pins one range of die 0 in one pinned way (R237): slot 0 lines 512 to 1023 of region 1
by HC_PIN0, slot 1 the lines below them by HC_PIN1, of which the set above holds one. -/
def drainState : State :=
  let s : State := { State.reset with
    powered := true, running := true, modState := 5
    fw := { FwSt.reset with
      images := some ⟨0, 0, 1, false, 0, 700, 64, 8, 2, 1024, [], [], [], 0⟩
      sessions := [(0, ⟨true, 1, 0, 0⟩)] } }
  let s := (s.setField (regGa 48 (sqOff 0)) 63 63 1).setField (domReg 1 0) 63 56 5
  let s := ((s.setField (hcReg 0 0x40) 63 63 1).setField (hcReg 0 0x40) 45 32 1).setField (hcReg 0 0x40) 13 0 1
  let s := (s.setField (hcReg 0 0x48) 63 63 1).setField (hcReg 0 8) 3 0 1
  let s := s.setDie 0 { DieSt.reset with sets := [(0, fullSet)] }
  let s := s.setDom 0 { DomSt.reset with
    loaded := true, started := true, ctx := 1, pins := [(0, 0)], pinWays := [(0, 1)] }
  s.setDom 1 { DomSt.reset with loaded := true, ctx := 2, pins := [(0, 1)], pinWays := [(0, 1)] }

/-- The command reaches its own part in that state (R492). -/
theorem drainState_goes : mbxGoes drainState rowJobDrain drainCmd (some 1) := by
  unfold mbxGoes
  decide +kernel

/-- The command names slot 1, whose job has not started, and its payload is in order. -/
theorem drainState_named : drainState.namedDom drainCmd = some 1 ∧ domBad drainCmd 1 = false ∧
    drainState.foreignDom drainCmd 1 = false ∧ (drainState.dom 1).started = false := by
  decide +kernel

/-- With the job's range cleared, its line drops to normal priority and must leave the way that the other job keeps
pinned; the reduction entry is the victim that makes room, and its sum is added into memory (R227, R237, R241). -/
theorem drainState_writes_through : drainState.byte redGa = 0 ∧
    ∃ n, exec (.jobDrain drainCmd) drainState = .next n ∧ n.byte redGa = 7 :=
  ⟨by decide +kernel, _, rfl, by decide +kernel⟩

/-- Refutes O43: JOB_DRAIN of a job that has not started clears its pins, and the line that then leaves a pinned way can
evict a reduction entry, which adds its sum into memory; the last clause keeps memory as it was. -/
theorem not_jobsRunAndEnd : ¬ Obligations.JobsRunAndEnd := by
  unfold Obligations.JobsRunAndEnd
  intro h
  obtain ⟨named, good, own, waiting⟩ := drainState_named
  obtain ⟨-, -, -, drains⟩ := h drainState drainCmd 1 named
  obtain ⟨-, frees⟩ := drains good own
  obtain ⟨x, ran, -, -, sameMem, -⟩ := frees (.inl waiting) drainState_goes
  obtain ⟨before, n, ran', after⟩ := drainState_writes_through
  have kept : n.byte redGa = drainState.byte redGa := by
    rw [Host.Outcome.next.inj (ran'.symm.trans ran), memorySame_byte (x.complete_memory ..), State.byte, sameMem,
      State.byte]
  rw [after, before] at kept
  exact absurd kept (by decide)

end Sys2Proof.Machine
end

section
/-!
SUPPORT. What the operations of a boot leave alone: power, pins, what the boot latched and what was sent stay as they
are while registers, flash, fences and event logs are written (R462 to R473).
-/

namespace Sys2Proof.Machine

/-! ### What the operations of a boot keep -/

/-- The register of FD0 whose SELF field holds the straps (R21). -/
abbrev selfReg : Nat := regGa 48 0x2000

/-- Power, pins, the service connector and the straps are as before, and no message is taken back. -/
structure KeepsSupply (s t : State) : Prop where
  powered : t.powered = s.powered := by rfl
  running : t.running = s.running := by rfl
  pwr : t.pwr = s.pwr := by rfl
  svc : t.svc = s.svc := by rfl
  self : t.reg selfReg = s.reg selfReg := by rfl
  out : s.out ⊆ t.out := by exact List.Subset.refl _

/-- And so are the contexts and the manifest in force. -/
structure KeepsBoot (s t : State) : Prop extends KeepsSupply s t where
  xl : t.xl = s.xl := by rfl
  images : t.fw.images = s.fw.images := by rfl

variable {s t u : State}

theorem KeepsSupply.trans (h : KeepsSupply s t) (k : KeepsSupply t u) : KeepsSupply s u :=
  ⟨k.powered.trans h.powered, k.running.trans h.running, k.pwr.trans h.pwr, k.svc.trans h.svc, k.self.trans h.self,
    List.Subset.trans h.out k.out⟩

theorem KeepsSupply.selfIndex (h : KeepsSupply s t) : t.selfIndex = s.selfIndex := by
  rw [State.selfIndex, State.regField, h.self, State.selfIndex, State.regField]

theorem KeepsBoot.refl (s : State) : KeepsBoot s s := {}

theorem KeepsBoot.trans (h : KeepsBoot s t) (k : KeepsBoot t u) : KeepsBoot s u :=
  ⟨h.toKeepsSupply.trans k.toKeepsSupply, k.xl.trans h.xl, k.images.trans h.images⟩

theorem KeepsBoot.ite {p : Prop} [Decidable p] (ht : KeepsBoot s t) (hu : KeepsBoot s u) :
    KeepsBoot s (if p then t else u) := by
  split
  · exact ht
  · exact hu

/-- What is done only where a condition holds. -/
theorem KeepsBoot.ifThen {p : Prop} [Decidable p] (h : KeepsBoot s t) : KeepsBoot s (if p then t else s) :=
  h.ite (.refl s)

/-- What is left out where a condition holds. -/
theorem KeepsBoot.unless {p : Prop} [Decidable p] (h : KeepsBoot s t) : KeepsBoot s (if p then s else t) :=
  (KeepsBoot.refl s).ite h

theorem KeepsBoot.foldl {β : Type} {f : State → β → State} {l : List β} (hf : ∀ s, ∀ b ∈ l, KeepsBoot s (f s b))
    (s : State) : KeepsBoot s (l.foldl f s) :=
  List.foldlRecOn (motive := fun t : State => KeepsBoot s t) l f (.refl s) fun t ht b hb => ht.trans (hf t b hb)

/-! ### Plain updates -/

theorem State.setReg_keepsBoot (s : State) {a : Nat} (v : Word) (h : selfReg ≠ a) : KeepsBoot s (s.setReg a v) :=
  { self := s.setReg_reg_ne v h }

theorem State.setField_keepsBoot (s : State) {a : Nat} (hi lo v : Nat) (h : selfReg ≠ a) :
    KeepsBoot s (s.setField a hi lo v) := s.setReg_keepsBoot _ h

theorem State.bump_keepsBoot (s : State) {a : Nat} (n : Nat) (h : selfReg ≠ a) : KeepsBoot s (s.bump a n) :=
  (s.setReg_keepsBoot _ h).unless

theorem State.send_keepsBoot (s : State) (m : OutMsg) : KeepsBoot s (s.send m) := { out := List.subset_append_left .. }

theorem State.setEvt_keepsBoot (s : State) (e : EvtSt) : KeepsBoot s { s with evt := e } := {}

theorem State.setTile_keepsBoot (s : State) (i : TileId) (x : TileSt) : KeepsBoot s (s.setTile i x) := {}

theorem State.setFlash_keepsBoot (s : State) (d : Nat) (x : FlashDev) : KeepsBoot s (s.setFlash d x) := {}

theorem State.free_keepsBoot (s : State) : KeepsBoot s s.free.2 := {}

theorem State.newCcl_keepsBoot (s : State) (who : ReqWho) (len : Nat) : KeepsBoot s (s.newCcl who len).2 := {}

theorem State.toState_keepsBoot (s : State) (v : Nat) : KeepsBoot s (s.toState v) := by
  have entered : KeepsBoot s { s with modState := v } := {}
  exact (entered.trans (State.send_keepsBoot _ _).ifThen).unless

@[simp] theorem State.toState_modState (s : State) (v : Nat) : (s.toState v).modState = v := by
  unfold State.toState
  split
  · assumption
  · dsimp only; split <;> rfl

@[simp] theorem State.toState_regs (s : State) (v : Nat) : (s.toState v).regs = s.regs := by
  unfold State.toState
  dsimp only
  split
  · rfl
  · split <;> rfl

@[simp] theorem State.toState_fw (s : State) (v : Nat) : (s.toState v).fw = s.fw := by
  unfold State.toState
  dsimp only
  split
  · rfl
  · split <;> rfl

/-! ### Events and fences -/

theorem State.cclBump_keepsBoot (s : State) {off : Nat} (n : Nat) (h : off < 0x10000) : KeepsBoot s (s.cclBump off n) :=
  (s.bump_keepsBoot n (regGa_ne (by decide) (by omega) (.inr (by omega)))).trans
    (State.bump_keepsBoot _ n (regGa_ne (by decide) (by omega) (.inr (by omega))))

theorem State.ringInterrupt_keepsBoot (s : State) (m : Nat) (g : EvtRing) : KeepsBoot s (s.ringInterrupt m g) :=
  (s.send_keepsBoot _).trans ((State.cclBump_keepsBoot _ 1 (by decide)).trans (State.setEvt_keepsBoot _ _))

theorem State.ringAnnounce_keepsBoot (s : State) (m : Nat) : KeepsBoot s (s.ringAnnounce m) := by
  unfold State.ringAnnounce
  split
  · exact .refl s
  · exact (s.ringInterrupt_keepsBoot m _).ifThen

theorem State.ringAsk_keepsBoot (s : State) (m : Nat) (g : EvtRing) : KeepsBoot s (s.ringAsk m g) :=
  ((s.newCcl_keepsBoot _ _).trans (State.send_keepsBoot _ _)).unless

theorem State.ringWrite_keepsBoot (s : State) (m : Nat) (g : EvtRing) (r : EvtRec) : KeepsBoot s (s.ringWrite m g r) :=
  (s.send_keepsBoot _).trans (State.setEvt_keepsBoot _ _)

/-- A register above the straps' is another one. -/
theorem selfReg_ne_regGa (d : Nat) {off : Nat} (h : 0x2000 < off ∧ off < 2 ^ 30) : selfReg ≠ regGa d off :=
  regGa_ne (by decide) h.2 (.inr (by omega))

theorem State.ringOffer_keepsBoot (s : State) (r : EvtRec) (m : Nat) : KeepsBoot s (s.ringOffer r m) := by
  unfold State.ringOffer
  split
  · exact .refl s
  · next g _ =>
    have written := (s.ringWrite_keepsBoot m g r).trans (State.ringAnnounce_keepsBoot _ m)
    have held (e : EvtSt) := (s.setEvt_keepsBoot e).trans (State.ringAsk_keepsBoot _ m g)
    have dropped (e : EvtSt) (d : Nat) := (s.ringAsk_keepsBoot m g).trans ((State.setEvt_keepsBoot _ e).trans
      (State.bump_keepsBoot _ 1 (selfReg_ne_regGa d (off := 0x150118) (by decide))))
    exact (written.ite ((held _).ite (dropped _ _))).unless.unless

theorem State.logRec_keepsBoot (s : State) (r : EvtRec) : KeepsBoot s (s.logRec r) := by
  have logged (e : EvtSt) (d : Nat) := (s.setEvt_keepsBoot e).trans
    (State.bump_keepsBoot _ 1 (selfReg_ne_regGa d (off := 0x150100) (by decide)))
  exact (logged _ _).trans (KeepsBoot.foldl (fun t m _ => t.ringOffer_keepsBoot r m) _).unless

theorem State.sendSummary_keepsBoot (s : State) (q : EvtReq) : KeepsBoot s (s.sendSummary q) :=
  ((s.logRec_keepsBoot _).trans (State.setEvt_keepsBoot _ _)).unless

/-- Raising an event writes logs, rings and counters, and may change the module's state. -/
theorem State.raise_keepsBoot (s : State) (q : EvtReq) : KeepsBoot s (s.raise q) := by
  unfold State.raise
  extract_lets src sec st summed st' put
  split
  · have sent (e : EvtSt) (r : EvtRec) := (summed.setEvt_keepsBoot e).trans (State.logRec_keepsBoot _ r)
    have held (e : EvtSt) := (summed.setEvt_keepsBoot e).trans
      (State.bump_keepsBoot _ 1 (selfReg_ne_regGa q.die (off := 0x150108) (by decide)))
    have summary : KeepsBoot s summed := (s.sendSummary_keepsBoot q).unless
    exact summary.trans ((sent _ _).ite (held _))
  · exact s.logRec_keepsBoot _
  · exact (s.logRec_keepsBoot _).trans (State.toState_keepsBoot _ 9)
  · refine (s.logRec_keepsBoot (s.mkRec q false)).trans ?_
    split
    · exact .refl _
    · exact (State.setTile_keepsBoot ..).ifThen

theorem State.calWrite_keepsBoot (s : State) (f : CalRec → CalRec) : KeepsBoot s (s.calWrite f) := by
  have status (t : State) (d : Nat) : KeepsBoot t (t.setField (regGa d 0x60000) 61 61 1) :=
    t.setField_keepsBoot _ _ _ (selfReg_ne_regGa d (by decide))
  exact KeepsBoot.unless ((KeepsBoot.foldl (fun t d _ => t.setFlash_keepsBoot d _) s).trans
    ((status _ 48).trans (status _ 49)))

theorem State.raiseFence_keepsBoot (s : State) (code grain a b c : Nat) :
    KeepsBoot s (s.raiseFence code grain a b c) := by
  unfold State.raiseFence
  exact s.raise_keepsBoot _

theorem State.enterFence_keepsBoot (s : State) (f : FenceEnt) : KeepsBoot s (s.enterFence f) := by
  have listed (l : List FenceEnt) : KeepsBoot s { s with fences := l } := {}
  have bumped (t : State) : KeepsBoot t t.capBump := {}
  refine KeepsBoot.unless ((listed (s.fences ++ [f])).trans ?_)
  refine KeepsBoot.trans ?_ ((bumped _).trans (State.raiseFence_keepsBoot ..))
  exact (State.calWrite_keepsBoot _ _).unless

/-! ### Flash -/

theorem State.putSelector_keepsBoot (s : State) (d : Nat) (v : Selector) : KeepsBoot s (s.putSelector d v) :=
  s.setFlash_keepsBoot d _

theorem State.trialStep_keepsBoot (s : State) (d : Nat) : KeepsBoot s (s.trialStep d).2 := by
  unfold State.trialStep
  dsimp only
  split
  · exact s.putSelector_keepsBoot d _
  · split
    · exact s.putSelector_keepsBoot d _
    · exact .refl s

theorem State.settleMin_keepsBoot (s : State) (d : Nat) (im : Images) : KeepsBoot s (s.settleMin d im) := by
  unfold State.settleMin
  split
  · exact .refl s
  · exact (s.setFlash_keepsBoot d _).ite (s.setFlash_keepsBoot d _)

/-! ### Parts of a boot -/

theorem State.raiseSc_keepsBoot (s : State) (cls : EvClass) (code detail : Nat) :
    KeepsBoot s (s.raiseSc cls code detail) := s.raise_keepsBoot _

theorem State.bistFound_keepsBoot (s : State) (b : BistFault) : KeepsBoot s (s.bistFound b) := by
  unfold State.bistFound
  split
  · exact (s.free_keepsBoot.trans (State.calWrite_keepsBoot _ _)).trans (State.raise_keepsBoot _ _)
  · split <;> exact s.enterFence_keepsBoot _

theorem State.setRail_keepsBoot (s : State) (i : TileId) : KeepsBoot s (s.setRail i) := by
  have idx : tileIdx i < 12 := Nat.mod_lt _ (by decide)
  exact s.free_keepsBoot.trans (State.setField_keepsBoot _ _ _ _ (selfReg_ne_regGa _ (by omega)))

/-- The straps' register is none of a link's control and status registers. -/
theorem selfReg_ne_linkReg {l off : Nat} (h : off < 0x100) : selfReg ≠ linkReg l off := by
  unfold linkReg
  split <;> exact regGa_ne (by decide) (by omega) (.inr (by omega))

theorem State.startPorts_keepsBoot (s : State) (im : Images) : KeepsBoot s (s.startPorts im) := by
  have write (t : State) (l : Nat) {off : Nat} (hi lo v : Nat) (h : off < 0x100) :
      KeepsBoot t (t.setField (linkReg l off) hi lo v) := t.setField_keepsBoot _ _ _ (selfReg_ne_linkReg h)
  refine KeepsBoot.foldl (fun t l _ => ?_) s
  refine KeepsBoot.trans ?_ (write _ l 7 6 2 (by decide)).ifThen
  exact (write t l 63 60 1 (by decide)).ite (write t l 0 0 0 (by decide))

theorem State.bootRegs_keepsBoot (s : State) (im : Images) (failed code : Nat) (raised trial : Bool) (b : BootWorld) :
    KeepsBoot s (s.bootRegs im failed code raised trial b) := by
  have write {t u : State} (h : KeepsBoot t u) {f off : Nat} (v : Word) (ho : 0x2000 < off ∧ off < 2 ^ 30) :
      KeepsBoot t (u.setReg (regGa f off) v) := h.trans (u.setReg_keepsBoot v (selfReg_ne_regGa f ho))
  refine KeepsBoot.foldl (fun t f _ => ?_) s
  have digest (t : State) : KeepsBoot t ((List.range 8).foldl (fun s n =>
      s.setReg (regGa f (0x70040 + 8 * n)) (BitVec.ofNat 64 (im.digest.toNat / 2 ^ (64 * n)))) t) :=
    KeepsBoot.foldl (fun t n hn => write (.refl t) _ (by have := List.mem_range.mp hn; omega)) t
  refine write (write (write (write (KeepsBoot.trans ?_ (digest _)) _ ?_) _ ?_) _ ?_) _ ?_
  · exact write (write (.refl t) _ (by decide)) _ (by decide)
  all_goals decide

end Sys2Proof.Machine
end

section
/-!
SUPPORT. The boot in its parts (R462, R463, R472): what it latches, which source it takes, and how it ends.
-/

namespace Sys2Proof.Machine

/-! ### Flash read by the boot -/

/-- What the flash holds decides the checks of a bank. -/
theorem State.checkBank_congr {s t : State} (h : t.fw.flash = s.fw.flash) : t.checkBank = s.checkBank := by
  have bytes : t.bankBytes = s.bankBytes := by
    funext dev bank off n
    simp only [State.bankBytes, State.bankByte, State.flashDev, h]
  funext dev bank least
  simp only [State.checkBank, bytes]

theorem FlashDev.minVersion_congr {x y : FlashDev} (h : x.minver = y.minver) : x.minVersion = y.minVersion := by
  rw [FlashDev.minVersion, h, FlashDev.minVersion]

theorem State.setFlash_minVersion (s : State) {d : Nat} {x : FlashDev} (e : Nat)
    (h : x.minver = (s.flashDev d).minver) : ((s.setFlash d x).flashDev e).minVersion = (s.flashDev e).minVersion := by
  by_cases he : e = d
  · subst he
    simp only [State.setFlash, State.flashDev, mapGet_mapSet_self]
    exact FlashDev.minVersion_congr h
  · simp only [State.setFlash, State.flashDev, mapGet_mapSet_ne _ _ _ _ he]

/-- Trying a device writes its selector at most, never a minimum version (R462). -/
theorem State.trialStep_minVersion (s : State) (d e : Nat) :
    ((s.trialStep d).2.flashDev e).minVersion = (s.flashDev e).minVersion := by
  unfold State.trialStep
  dsimp only
  split
  · exact s.setFlash_minVersion e rfl
  · split
    · exact s.setFlash_minVersion e rfl
    · rfl

/-- At most the two banks of a device are tried. -/
theorem State.trialStep_length (s : State) (d : Nat) : (s.trialStep d).1.length ≤ 2 := by
  unfold State.trialStep
  dsimp only
  split
  · exact Nat.le_succ 1
  · split <;> exact Nat.le_refl 2

/-- A device whose active bank is not on trial has that bank tried first, and its selector left as it is (R462). -/
theorem State.trialStep_of_not_trial {s : State} {d : Nat} (h : (s.flashDev d).selector.trial = false) :
    s.trialStep d = ([(s.flashDev d).selector.active, 1 - (s.flashDev d).selector.active], s) := by
  simp [State.trialStep, h]

/-- The first source that passes its checks is taken (R463). -/
theorem State.trySources_of_ok {s : State} {dev bank least : Nat} {im : Images} (rest : List (Nat × Nat))
    (h : s.checkBank dev bank least = .ok im) : s.trySources (some least) ((dev, bank) :: rest) = (0, 0, some im) := by
  unfold State.trySources
  simp only [h]

/-- Without a minimum version every source fails (R460). -/
theorem State.trySources_none (s : State) (l : List (Nat × Nat)) :
    (s.trySources none l).1 = l.length ∧ (s.trySources none l).2.2 = none := by
  induction l with
  | nil => exact ⟨rfl, rfl⟩
  | cons x l ih =>
    unfold State.trySources
    exact ⟨congrArg (· + 1) ih.1, ih.2⟩

/-! ### What the boot latches -/

/-- Running, with MSTR_SEL and the straps latched (R615). -/
def State.strapped (s : State) (b : BootWorld) : State :=
  let s : State := { s with running := true, svc := { s.svc with mstrSel := b.mstrSel, tap := 1 } }
  (List.range 4).foldl (fun s f => s.setField (regGa (48 + f) 0x2000) 44 33 b.straps.toNat) s

theorem foldl_setField_eq (s : State) (l : List Nat) (a : Nat → Nat) (hi lo v : Nat) :
    ∃ r, l.foldl (fun s f => s.setField (a f) hi lo v) s = { s with regs := r } :=
  List.foldlRecOn (motive := fun t : State => ∃ r, t = { s with regs := r }) l _ ⟨s.regs, rfl⟩
    fun t ⟨r, h⟩ f _ => ⟨(t.setField (a f) hi lo v).regs, by rw [h]; rfl⟩

/-- Latching changes nothing but MSTR_SEL, the scan's instruction and registers. -/
theorem State.strapped_eq (s : State) (b : BootWorld) : ∃ r, s.strapped b =
    { s with running := true, svc := { s.svc with mstrSel := b.mstrSel, tap := 1 }, regs := r } :=
  foldl_setField_eq _ _ _ _ _ _

theorem State.strapped_selfIndex (s : State) (b : BootWorld) : (s.strapped b).selfIndex = b.straps := by
  have latched : (s.strapped b).regField (regGa (48 + 0) 0x2000) 44 33 = b.straps.toNat := by
    refine foldl_establishes (P := fun t f => t.regField (regGa (48 + f) 0x2000) 44 33 = b.straps.toNat)
      (fun t f => ?_) (fun t f g hg h => ?_) (List.mem_range.mpr (by decide)) _
    · rw [State.setField_regField_self _ _ (by decide) (by decide), Nat.mod_eq_of_lt b.straps.isLt]
    · rw [State.setField_regField_apart _ _ (by decide) (by decide)
        (.inl (regGa_ne (by decide) (by decide) (.inl (by omega)))), h]
  rw [State.selfIndex, latched, BitVec.ofNat_toNat, BitVec.setWidth_eq]

/-- In ROM_CHECK, with REFCLK noted (R616). -/
def State.clocked (s : State) (b : BootWorld) : State :=
  let s := s.setTime 50 50 (if b.refclk then 1 else 0)
  ({ s with time := { s.time with refBoot := b.refclk } } : State).toState 1

theorem State.clocked_keepsBoot (s : State) (b : BootWorld) : KeepsBoot s (s.clocked b) := by
  have time : KeepsBoot s (s.setTime 50 50 (if b.refclk then 1 else 0)) := KeepsBoot.foldl
    (fun t _ _ => t.setField_keepsBoot _ _ _ (regGa_ne (by decide) (by decide) (.inr (by decide)))) s
  have noted (t : State) (x : TimeSt) : KeepsBoot t { t with time := x } := {}
  exact (time.trans (noted _ _)).trans (State.toState_keepsBoot _ 1)

theorem State.clocked_fw (s : State) (b : BootWorld) : (s.clocked b).fw = s.fw := by
  obtain ⟨r, h⟩ := foldl_setField_eq s (List.range 4) (fun f => regGa (48 + f) 0x8010) 50 50 (if b.refclk then 1 else 0)
  rw [State.clocked, State.toState_fw, State.setTime, h]

/-! ### The boot in its parts -/

/-- The state in which the sources are tried: latched, with trials counted on both devices (R462). -/
def State.trying (s : State) (b : BootWorld) : State :=
  ((((s.strapped b).clocked b).trialStep 0).2.trialStep 1).2

/-- The sources in the order in which they are tried: the banks of FL0, then those of FL1 (R462). -/
def State.sources (s : State) (b : BootWorld) : List (Nat × Nat) :=
  let p := ((s.strapped b).clocked b).trialStep 0
  p.1.map (fun k => (0, k)) ++ (p.2.trialStep 1).1.map fun k => (1, k)

/-- The attempt on the sources, under the minimum version of FL0 (R460). -/
def State.attempt (s : State) (b : BootWorld) : Nat × Nat × Option Images :=
  (s.trying b).trySources ((s.trying b).flashDev 0).minVersion (s.sources b)

/-- FAULTED, where no source passed: BOOT_STATUS says how many failed and why (R463). -/
def State.bootFailed (s : State) (failed : Nat) (b : BootWorld) : State :=
  let code := if (s.flashDev 0).minVersion.isNone then 10 else 255
  (([48, 49] : List Nat).foldl (fun s f => s.setReg (regGa f 0x70000)
    (BitVec.ofNat 64 (code * 2 ^ 56 + failed * 2 ^ 52 + 2 ^ 48 + b.bootMs.toNat))) s).toState 9

/-- The boot goes on under the manifest of the first source that passed, or ends (R463). -/
theorem State.boot_eq (s : State) (b : BootWorld) : s.boot b = (s.attempt b).2.2.elim
    ((s.trying b).bootFailed (s.attempt b).1 b) fun im => (s.trying b).bootOn im (s.attempt b).1 (s.attempt b).2.1 b := by
  have matched : s.boot b = match (s.attempt b).2.2 with
    | some im => (s.trying b).bootOn im (s.attempt b).1 (s.attempt b).2.1 b
    | none => (s.trying b).bootFailed (s.attempt b).1 b := rfl
  rw [matched]
  generalize s.attempt b = found
  obtain ⟨n, c, _ | im⟩ := found <;> dsimp only [Option.elim]

theorem State.trying_keepsBoot (s : State) (b : BootWorld) : KeepsBoot (s.strapped b) (s.trying b) :=
  ((State.clocked_keepsBoot _ b).trans (State.trialStep_keepsBoot _ 0)).trans (State.trialStep_keepsBoot _ 1)

theorem State.strapped_fw (s : State) (b : BootWorld) : (s.strapped b).fw = s.fw := by
  obtain ⟨r, h⟩ := s.strapped_eq b
  rw [h]

theorem State.clocked_strapped_flashDev (s : State) (b : BootWorld) (d : Nat) :
    ((s.strapped b).clocked b).flashDev d = s.flashDev d := by
  rw [State.flashDev, State.clocked_fw, State.strapped_fw, State.flashDev]

theorem State.trying_minVersion (s : State) (b : BootWorld) (d : Nat) :
    ((s.trying b).flashDev d).minVersion = (s.flashDev d).minVersion := by
  rw [State.trying, State.trialStep_minVersion, State.trialStep_minVersion, State.clocked_strapped_flashDev]

theorem State.sources_length (s : State) (b : BootWorld) : (s.sources b).length ≤ 4 := by
  have h0 := State.trialStep_length ((s.strapped b).clocked b) 0
  have h1 := State.trialStep_length (((s.strapped b).clocked b).trialStep 0).2 1
  simp only [State.sources, List.length_append, List.length_map]
  omega

/-- With no trial, the active bank of FL0 is the first source, and is taken if it passes (R462, R463). -/
theorem State.attempt_of_ok {s : State} {b : BootWorld} {least : Nat} {im : Images}
    (h0 : (s.flashDev 0).selector.trial = false) (h1 : (s.flashDev 1).selector.trial = false)
    (hmin : (s.flashDev 0).minVersion = some least)
    (hok : s.checkBank 0 (s.flashDev 0).selector.active least = .ok im) : s.attempt b = (0, 0, some im) := by
  have dev (d : Nat) := s.clocked_strapped_flashDev b d
  have first : ((s.strapped b).clocked b).trialStep 0 =
      ([(s.flashDev 0).selector.active, 1 - (s.flashDev 0).selector.active], (s.strapped b).clocked b) := by
    rw [State.trialStep_of_not_trial (by rw [dev]; exact h0), dev]
  have same : s.trying b = (s.strapped b).clocked b := by
    rw [State.trying, first, State.trialStep_of_not_trial (by rw [dev]; exact h1)]
  have passes : (s.trying b).checkBank 0 (s.flashDev 0).selector.active least = .ok im := by
    rw [State.checkBank_congr (s := s) (by rw [same, State.clocked_fw, State.strapped_fw]), hok]
  rw [State.attempt, State.trying_minVersion, hmin, State.sources, first]
  exact State.trySources_of_ok _ passes

/-! ### The boot under an accepted manifest -/

/-- The manifest in force, the system context made, and the fences on record in force (R472). -/
def State.enforce (s : State) (im : Images) : State :=
  let z := s.free
  { z.2 with
    fw := { z.2.fw with images := some im, mValue := z.1, mCounter := 0, mLast := none }, capVersion := 1,
    xl := { z.2.xl with ctxs := [(0, some ⟨false, 0⟩)] },
    fences := s.calRec.fences.map fun r => ⟨r.grain, r.a, r.b, r.c, r.pkg, false⟩ }

theorem State.enforce_keepsSupply (s : State) (im : Images) : KeepsSupply s (s.enforce im) := {}

/-- Minimum versions settled on both devices, and the registers of identity and boot written (R460, R461, R472). -/
def State.settled (s : State) (im : Images) (failed code : Nat) (b : BootWorld) : State :=
  let s := s.toState 2
  let least := (s.flashDev 0).minVersion
  let s := (s.settleMin 0 im).settleMin 1 im
  let raised := decide ((s.flashDev 0).minVersion ≠ least)
  let v := (s.flashDev im.dev).selector
  s.bootRegs im failed code raised (v.trial && decide (v.active = im.bank)) b

theorem State.settled_keepsBoot (s : State) (im : Images) (failed code : Nat) (b : BootWorld) :
    KeepsBoot s (s.settled im failed code b) := by
  unfold State.settled
  extract_lets entered least versions raised v
  have settles : KeepsBoot entered versions :=
    (entered.settleMin_keepsBoot 0 im).trans (State.settleMin_keepsBoot _ 1 im)
  exact ((s.toState_keepsBoot 2).trans settles).trans (State.bootRegs_keepsBoot ..)

/-- Self-test's findings put right, rails set, and ports started (R473, R530, R465). -/
def State.started (s : State) (im : Images) (b : BootWorld) : State :=
  ((List.range 576).foldl (fun s t => s.setRail (tileOf t)) (b.bist.foldl (fun s f => s.bistFound f) s)).startPorts im

theorem State.started_keepsBoot (s : State) (im : Images) (b : BootWorld) : KeepsBoot s (s.started im b) :=
  ((KeepsBoot.foldl (fun t f _ => t.bistFound_keepsBoot f) _).trans
    (KeepsBoot.foldl (fun t i _ => t.setRail_keepsBoot (tileOf i)) _)).trans (State.startPorts_keepsBoot _ im)

/-- LOCKED, with a record of each part of the module's identity that is missing (R464, R467, R471). -/
def State.locked (s : State) (b : BootWorld) : State :=
  let s := if b.deputyOk then s else s.raiseSc .contained 0x7004 0
  let s := if b.pufFails < 5 then s else s.raiseSc .contained 0x7004 1
  let s := if s.regField (regGa 48 0x60000) 61 61 = 1 then s else s.raiseSc .contained 0x7004 2
  s.toState 3

theorem State.locked_keepsBoot (s : State) (b : BootWorld) : KeepsBoot s (s.locked b) := by
  unfold State.locked
  extract_lets deputy puf cal
  exact ((s.raiseSc_keepsBoot ..).unless.trans (deputy.raiseSc_keepsBoot ..).unless).trans
    ((puf.raiseSc_keepsBoot ..).unless.trans (cal.toState_keepsBoot 3))

theorem State.locked_modState (s : State) (b : BootWorld) : (s.locked b).modState = 3 := State.toState_modState _ 3

/-- The trial of the manifest's bank ended where it was on trial (R462). -/
def State.accepted (s : State) (im : Images) (trial : Bool) : State :=
  if trial then
    ([0, 1] : List Nat).foldl (fun s d =>
      let v := (s.flashDev d).selector
      if v.trial ∧ v.active = im.bank then s.putSelector d { v with trial := false } else s) s
  else s

theorem State.accepted_keepsBoot (s : State) (im : Images) (trial : Bool) : KeepsBoot s (s.accepted im trial) :=
  (KeepsBoot.foldl (fun t d _ => (t.putSelector_keepsBoot d _).ifThen) s).ifThen

theorem State.accepted_modState (s : State) (im : Images) (trial : Bool) :
    (s.accepted im trial).modState = s.modState := by
  unfold State.accepted
  split
  · refine List.foldlRecOn (motive := fun t : State => t.modState = s.modState) _ _ rfl fun t ht d _ => ?_
    dsimp only
    split <;> exact ht
  · rfl

/-- A boot under an accepted manifest goes through its parts (R472). -/
theorem State.bootOn_parts (s : State) (im : Images) (failed code : Nat) (b : BootWorld) : ∃ trial,
    s.bootOn im failed code b =
      ((((s.settled im failed code b).enforce im).started im b).locked b).accepted im trial :=
  ⟨_, rfl⟩

/-- What a boot under an accepted manifest ends in (R472). -/
theorem State.bootOn_result (s : State) (im : Images) (failed code : Nat) (b : BootWorld) :
    KeepsSupply s (s.bootOn im failed code b) ∧ (s.bootOn im failed code b).modState = 3 ∧
      (s.bootOn im failed code b).fw.images = some im ∧ mapGet none (s.bootOn im failed code b).xl.ctxs 0 ≠ none := by
  obtain ⟨trial, parts⟩ := s.bootOn_parts im failed code b
  rw [parts]
  have before := s.settled_keepsBoot im failed code b
  generalize s.settled im failed code b = t at before
  have after : KeepsBoot (t.enforce im) ((((t.enforce im).started im b).locked b).accepted im trial) :=
    ((State.started_keepsBoot _ im b).trans (State.locked_keepsBoot _ b)).trans (State.accepted_keepsBoot _ im trial)
  refine ⟨(before.toKeepsSupply.trans (t.enforce_keepsSupply im)).trans after.toKeepsSupply, ?_, after.images, ?_⟩
  · rw [State.accepted_modState, State.locked_modState]
  · rw [after.xl]
    simp [State.enforce, mapGet]

/-! ### The boot without a source -/

theorem State.bootFailed_keepsBoot (s : State) (failed : Nat) (b : BootWorld) : KeepsBoot s (s.bootFailed failed b) :=
  KeepsBoot.trans (KeepsBoot.foldl (fun t f _ => t.setReg_keepsBoot _ (selfReg_ne_regGa f (by decide))) s)
    (State.toState_keepsBoot _ 9)

theorem State.bootFailed_modState (s : State) (failed : Nat) (b : BootWorld) : (s.bootFailed failed b).modState = 9 :=
  State.toState_modState _ 9

/-- The top byte of BOOT_STATUS is the failure code (Table 13.13). -/
theorem bits_bootStatus {code failed ms : Nat} (hc : code < 2 ^ 8) (hf : failed < 2 ^ 4) (hm : ms < 2 ^ 32) :
    bits (BitVec.ofNat 64 (code * 2 ^ 56 + failed * 2 ^ 52 + 2 ^ 48 + ms)) 63 56 = code := by
  simp only [bits, BitVec.toNat_ofNat, Nat.shiftRight_eq_div_pow]
  omega

/-- Without a minimum version on FL0 the failure code is 10 (R460, R463). -/
theorem State.bootFailed_code {s : State} {failed : Nat} (b : BootWorld) (h : (s.flashDev 0).minVersion = none)
    (hf : failed < 2 ^ 4) : (s.bootFailed failed b).regField (regGa 48 0x70000) 63 56 = 10 := by
  have other : regGa 48 0x70000 ≠ regGa 49 0x70000 := regGa_ne (by decide) (by decide) (.inl (by decide))
  rw [State.regField, State.reg, State.bootFailed, State.toState_regs, h]
  exact (congrArg (bits · 63 56) ((State.setReg_reg_ne _ _ other).trans (State.setReg_reg_self ..))).trans
    (bits_bootStatus (by decide) hf b.bootMs.isLt)

/-- A boot leaves power, pins and what it latched, runs the module, and ends in LOCKED or FAULTED (R463, R472). -/
theorem State.boot_result (s : State) (b : BootWorld) :
    KeepsSupply (s.strapped b) (s.boot b) ∧ ((s.boot b).modState = 3 ∨ (s.boot b).modState = 9) := by
  have latched := (s.trying_keepsBoot b).toKeepsSupply
  rw [State.boot_eq]
  generalize s.attempt b = found
  obtain ⟨n, c, _ | im⟩ := found <;> dsimp only [Option.elim]
  · exact ⟨latched.trans (State.bootFailed_keepsBoot ..).toKeepsSupply, .inr (State.bootFailed_modState ..)⟩
  · obtain ⟨kept, state, -, -⟩ := (s.trying b).bootOn_result im n c b
    exact ⟨latched.trans kept, .inl state⟩

/-- A boot whose first source passes ends in LOCKED under that source's manifest (R472). -/
theorem State.boot_of_first {s : State} {least : Nat} {im : Images} (b : BootWorld)
    (h0 : (s.flashDev 0).selector.trial = false) (h1 : (s.flashDev 1).selector.trial = false)
    (hmin : (s.flashDev 0).minVersion = some least)
    (hok : s.checkBank 0 (s.flashDev 0).selector.active least = .ok im) :
    (s.boot b).modState = 3 ∧ (s.boot b).fw.images = some im ∧ mapGet none (s.boot b).xl.ctxs 0 ≠ none := by
  have locked := ((s.trying b).bootOn_result im 0 0 b).2
  simp only [State.boot_eq, State.attempt_of_ok h0 h1 hmin hok, Option.elim]
  exact locked

/-- A boot without a minimum version on FL0 ends in FAULTED with code 10 (R460, R463). -/
theorem State.boot_of_no_minVersion {s : State} (b : BootWorld) (h : (s.flashDev 0).minVersion = none) :
    (s.boot b).modState = 9 ∧ (s.boot b).regField (regGa 48 0x70000) 63 56 = 10 := by
  have none' : ((s.trying b).flashDev 0).minVersion = none := (s.trying_minVersion b 0).trans h
  have attempted : s.attempt b = (s.trying b).trySources none (s.sources b) := by rw [State.attempt, none']
  obtain ⟨count, fails⟩ := (s.trying b).trySources_none (s.sources b)
  rw [← attempted] at count fails
  have few : (s.attempt b).1 < 2 ^ 4 := by have := s.sources_length b; omega
  simp only [State.boot_eq, fails, Option.elim]
  exact ⟨State.bootFailed_modState .., State.bootFailed_code b none' few⟩

end Sys2Proof.Machine
end

section
/-!
SUPPORT. What supply and reset leave: a power-up, a shutdown, a level of MOD_RST_N (R528, R529, R605, R627).
-/

namespace Sys2Proof.Machine

/-! ### Power-up -/

/-- Every die has power, and PWR_OK has risen (R528). -/
def State.energized (s : State) : State :=
  ({ s with powered := true, pwr := { s.pwr with stage := .on } } : State).send (.pwrOk true)

/-- A power-up boots the module where MOD_RST_N is high already (R627). -/
theorem State.powerUp_cases (s : State) :
    (s.powerUp = s.energized ∧ (s.pwr.rst = true → ∀ b, s.pwr.world ≠ some b)) ∨
      ∃ b, s.pwr.rst = true ∧ s.pwr.world = some b ∧ s.powerUp = s.energized.boot b := by
  cases hr : s.pwr.rst with
  | false => exact .inl (by simp [State.powerUp, State.energized, hr])
  | true =>
    cases hw : s.pwr.world with
    | none => exact .inl (by simp [State.powerUp, State.energized, hr, hw])
    | some b => exact .inr ⟨b, rfl, rfl, by simp [State.powerUp, State.energized, hr, hw]⟩

/-- What every boot leaves: power and pins as they were, the module running in LOCKED or FAULTED, straps and MSTR_SEL
latched (R463, R472, R615). -/
theorem State.boot_frame (s : State) (b : BootWorld) :
    (s.boot b).powered = s.powered ∧ (s.boot b).pwr = s.pwr ∧ s.out ⊆ (s.boot b).out ∧ (s.boot b).running = true ∧
      (s.boot b).modState ≠ 0 ∧ (s.boot b).selfIndex = b.straps ∧ (s.boot b).svc.mstrSel = b.mstrSel := by
  obtain ⟨kept, state⟩ := s.boot_result b
  have straps := kept.selfIndex.trans (s.strapped_selfIndex b)
  obtain ⟨r, latched⟩ := s.strapped_eq b
  rw [latched] at kept
  exact ⟨kept.powered, kept.pwr, kept.out, kept.running, by omega, straps, congrArg SvcSt.mstrSel kept.svc⟩

/-- What a power-up leaves: power, PWR_OK high, and with MOD_RST_N high already a booted module (R528, R627). -/
theorem State.powerUp_result (s : State) :
    s.powerUp.powered = true ∧ s.powerUp.pwr.stage = .on ∧ .pwrOk true ∈ s.powerUp.out ∧
      (s.pwr.rst = false → s.powerUp.modState = s.modState ∧ s.powerUp.running = s.running ∧ memorySame s s.powerUp) ∧
      (∀ b, s.pwr.rst = true → s.pwr.world = some b → s.powerUp.running = true ∧ s.powerUp.modState ≠ 0) := by
  have risen : .pwrOk true ∈ s.energized.out := List.mem_append_right _ List.mem_cons_self
  obtain ⟨up, low⟩ | ⟨b, hr, hw, up⟩ := s.powerUp_cases
  · rw [up]
    exact ⟨rfl, rfl, risen, fun _ => ⟨rfl, rfl, rfl, rfl, rfl⟩, fun b hr hw => absurd hw (low hr b)⟩
  · obtain ⟨powered, pwr, out, running, state, -, -⟩ := s.energized.boot_frame b
    rw [up, powered, pwr]
    exact ⟨rfl, rfl, out risen, fun hl => absurd (hr.symm.trans hl) (by decide), fun _ _ _ => ⟨running, state⟩⟩

/-- The three ways to a power-up act in their own stage of the supply, with both clips made (R528, R529, R605). -/
theorem exec_powerUp {i : Instr} {st : Supply} (h : (i = .inputTurnOn ∧ st = .off) ∨
    (i = .inrushRetry ∧ st = .stopped) ∨ (i = .powerUpRetry ∧ st = .down)) (s : State) :
    exec i s = .next (if s.pwr.stage = st ∧ s.clipsMade then s.powerUp else s) := by
  obtain ⟨rfl, rfl⟩ | ⟨rfl, rfl⟩ | ⟨rfl, rfl⟩ := h <;> rfl

/-! ### Shutdown -/

/-- A shutdown takes power and all state but flash, and leaves the clips as they are (R529, R605). -/
theorem State.shutdown_result (s : State) {i : Instr} {k : Fin 2} (broken : i = .clipSenseBreak k → s.clipsMade = false) :
    s.shutdown.powered = false ∧ s.shutdown.running = false ∧ s.shutdown.modState = 0 ∧ s.shutdown.mem = [] ∧
      s.shutdown.sync = [] ∧ s.shutdown.regs = [] ∧ s.shutdown.tiles = [] ∧ s.shutdown.doms = [] ∧
      s.shutdown.xl.ctxs = [] ∧ s.shutdown.fw.images = none ∧ s.shutdown.fw.flash = s.fw.flash ∧
      s.shutdown.pwr.stage = .down ∧ s.shutdown.svc.dyn = none ∧ s.shutdown.out = s.out ++ [.pwrOk false] ∧
      (i = .clipSenseBreak k → s.shutdown.clipsMade = false) :=
  ⟨rfl, rfl, rfl, rfl, rfl, rfl, rfl, rfl, rfl, rfl, rfl, rfl, rfl, rfl, broken⟩

/-- A clip's sense contact open (R605). -/
def State.unclipped (s : State) (k : Fin 2) : State :=
  { s with pwr := { s.pwr with clips := if k = 0 then (false, s.pwr.clips.2) else (s.pwr.clips.1, false) } }

theorem State.unclipped_clipsMade (s : State) (k : Fin 2) : (s.unclipped k).clipsMade = false := by
  by_cases hk : k = 0 <;> simp [State.unclipped, State.clipsMade, hk]

theorem exec_supplyShutdown (c : ShutdownCause) (s : State) :
    exec (.supplyShutdown c) s = .next (if s.powered then s.shutdown else s) := rfl

theorem exec_clipSenseBreak (k : Fin 2) (s : State) :
    exec (.clipSenseBreak k) s = .next (if s.powered then (s.unclipped k).shutdown else s.unclipped k) := rfl

/-! ### MOD_RST_N -/

/-- MOD_RST_N high, with what a boot meets (R627). -/
def State.resetHigh (s : State) (b : BootWorld) : State := { s with pwr := { s.pwr with rst := true, world := some b } }

theorem exec_modRstNRise (b : BootWorld) (s : State) : exec (.modRstNRise b) s = .next (
    if s.pwr.rst then s else if s.powered then (s.resetHigh b).boot b else s.resetHigh b) := rfl

/-- With PWR_OK high the rise boots the module (R627). -/
theorem exec_modRstNRise_boots {s : State} (b : BootWorld) (low : s.pwr.rst = false) (on : s.powered = true) :
    exec (.modRstNRise b) s = .next ((s.resetHigh b).boot b) := by
  rw [exec_modRstNRise, if_neg (by simp [low]), if_pos on]

/-- MOD_RST_N low, and what a reset leaves (R627). -/
def State.resetLow (s : State) : State := { s.cleared with pwr := { s.cleared.pwr with rst := false, world := none } }

theorem exec_modRstNFall (ns : Nat) (s : State) :
    exec (.modRstNFall ns) s = .next (if ns < 10000 ∨ !s.pwr.rst then s else s.resetLow) := rfl

/-- Settles O56: a power-up is `State.energized`, followed by a boot where MOD_RST_N is high; a boot keeps power and pins
through all of its parts and ends in LOCKED or FAULTED; shutdown and reset start from the cleared state. -/
theorem supplyAndReset : Obligations.SupplyAndReset := by
  intro s
  refine ⟨fun i st h => ⟨fun no => ?_, fun hs hc => ?_⟩, fun hs hc => congrArg _ (if_pos ⟨hs, hc⟩),
    fun c k => ⟨fun off => ?_, fun off => ?_, ?_⟩, fun b => ⟨fun high => ?_, fun low off => ?_, fun low on => ⟨?_, ?_⟩⟩,
    fun ns => ⟨fun no => ?_, fun long high => ?_⟩⟩
  · rw [exec_powerUp h, if_neg (not_and_or.mpr (by simpa using no))]
  · exact ⟨_, by rw [exec_powerUp h, if_pos ⟨hs, hc⟩], s.powerUp_result⟩
  · simp [exec_supplyShutdown, off]
  · exact ⟨s.unclipped k, by simp [exec_clipSenseBreak, off], s.unclipped_clipsMade k, rfl⟩
  · rintro on i (rfl | rfl)
    · exact ⟨_, by rw [exec_supplyShutdown, if_pos on], s.shutdown_result nofun⟩
    · exact ⟨_, by rw [exec_clipSenseBreak, if_pos on],
        (s.unclipped k).shutdown_result fun _ => s.unclipped_clipsMade k⟩
  · simp [exec_modRstNRise, high]
  · simp [exec_modRstNRise, low, off, State.resetHigh]
  · intro least im trials hmin hok
    have passes : (s.resetHigh b).checkBank 0 (s.flashDev 0).selector.active least = .ok im := by
      rw [State.checkBank_congr (s := s) (t := s.resetHigh b) rfl, hok]
    obtain ⟨-, -, -, running, -, straps, mstrSel⟩ := (s.resetHigh b).boot_frame b
    obtain ⟨state, images, ctx⟩ :=
      (s.resetHigh b).boot_of_first b (trials 0 (by decide)) (trials 1 (by decide)) hmin passes
    exact ⟨_, exec_modRstNRise_boots b low on, state, running, images, straps, mstrSel, ctx⟩
  · intro hmin
    exact ⟨_, exec_modRstNRise_boots b low on, (s.resetHigh b).boot_of_no_minVersion b hmin⟩
  · simp [exec_modRstNFall, no]
  · refine ⟨s.resetLow, ?_, rfl, rfl, rfl, rfl, rfl, rfl, rfl, rfl, rfl, rfl, rfl, rfl⟩
    rw [exec_modRstNFall, if_neg (by simp [high, long])]

end Sys2Proof.Machine
end
